-- ==== Sys2Proof/Word.lean ====
section
/-!
DEFINITION. The word types of the GL24 and nothing else: every bit-field helper that a test could show wrong stands
in Sys2Proof/Machine.
-/

namespace Sys2Proof

/-- One byte of memory, of a structure or of a wire. -/
abbrev Byte := BitVec 8

/-- A 32-bit doubleword: the unit of BAR0 accesses (R6). -/
abbrev Word32 := BitVec 32

/-- A 64-bit word: a g register (R100), an instruction word (R124), a wide register (R13). -/
abbrev Word64 := BitVec 64

/-- Station number (R1, R365): the GL24 has room for 24. -/
abbrev StationNo := Fin 24

/-- Context number (R20). -/
abbrev CtxNo := Fin 8

/-- Queue number (R48). -/
abbrev QueueNo := Fin 16

/-- Traverse channel number (R223). -/
abbrev ChanNo := Fin 16

end Sys2Proof
end

