-- ==== Sys2Proof/Syntax.lean ====
section
/-!
DEFINITION. The commands of the GL24: Instr, with one constructor for every row of spec/opcode_table.json, and the
operand types they carry. Where a command reports something that the block cannot know by itself (what the host, a NAND
die, a peer chip, a line or a supply monitor answered), that answer is an operand.
-/

namespace Sys2Proof

/-- The four engines of a station that have a queue (chapter 5, "The engines of a station"). -/
inductive Engine where
  | dmu | vector | quantiser | arrays
  deriving DecidableEq, Repr

/-- A write of a 64-bit register: whole, or one half of it (R6, R7). -/
inductive W64 where
  | both (v : BitVec 64)
  | low (v : BitVec 32)
  | high (v : BitVec 32)
  deriving DecidableEq, Repr

/-- How a read of host memory ended: with data, or as a bus error (R51). -/
inductive HostReply where
  | data (bytes : List Byte)
  | busError
  deriving DecidableEq, Repr

/-- What the host does to MSI-X in an MSIX_UNMASK command (R75). Unmasking a vector writes its BAR2 table entry. -/
inductive MsixUnmask where
  | vector (v : Fin 64) (addr : BitVec 64) (data : BitVec 32)
  | functionMask
  | enable
  deriving DecidableEq, Repr

/-- A part of the configuration space that the spec names (R47, R48, R75, R297): the header of 64 bytes, Device Control
with the programmed payload and read-request sizes, the control word of MSI-X, and the power state. -/
inductive CfgReg where
  | header | deviceControl | msixControl | powerState
  deriving DecidableEq, Repr

/-- Where a host request lands (R47, R48): one of the three BARs, the configuration space, or a feature that the device does
not support. -/
inductive Window where
  | bar0 | bar2 | bar4
  | config (r : CfgReg)
  | unsupported
  deriving DecidableEq, Repr

/-- A host read: where it lands, the offset of its first byte, and its length in bytes (R6). -/
structure HostRead where
  window : Window := .bar0
  off : BitVec 24
  len : Nat := 4
  deriving DecidableEq, Repr

/-- A host write: where it lands, the offset of its first byte, and its bytes, each present where its byte enable is set
(R6). -/
structure HostWrite where
  window : Window := .bar0
  off : BitVec 24
  lanes : List (Option Byte)
  deriving DecidableEq, Repr

/-- The codes of the four benchmark pairs Z, H, F and N in the 256 repetitions of a measurement (R162): how the analog path of
the part codes each is known from its noise model only (R159). -/
abbrev BenchCodes := Vector (Vector (BitVec 6) 4) 256

/-- Who made a read or an access on the traverse engine's read side: a channel, an array programmer (R246), a
SET_PARCELS job (R65), a mode-1 LOAD_ARRAYS job (R164), or the report write of an ATTEST job (R351). -/
inductive Requester where
  | chan (ch : Fin 16)
  | programmer (k : Fin 4)
  | setParcels (q : Fin 16)
  | tables (q : Fin 16)
  | attest (q : Fin 16)
  | sample (c : Fin 8)
  deriving DecidableEq, Repr

/-- How the decoder fared on one codeword (R207, R208): corrected with a number of corrected bits, or not. -/
inductive DecodeOutcome where
  | corrected (bits : BitVec 16)
  | fails
  deriving DecidableEq, Repr

/-- The operation of a link message (R256). -/
inductive MsgOp where
  | write | read | markAdd | flush | readResp | flushAck | errResp | abort | hello
  deriving DecidableEq, Repr

/-- A link message (R256): header fields and data. `len` is the LEN - 1 field. -/
structure Msg where
  op : MsgOp
  src : Fin 8
  dst : Fin 8
  job : BitVec 12 := 0
  gen : BitVec 8 := 0
  tag : Fin 64 := 0
  ch : Fin 16 := 0
  len : BitVec 8 := 0
  mark : Fin 64 := 0
  off : BitVec 28 := 0
  origin : Fin 8 := 0
  aseq : BitVec 8 := 0
  refused : Bool := false
  data : List Byte := []
  deriving DecidableEq, Repr

/-- Samples 7, 8 and 9 of one bit on a serial line, as levels (R319). -/
structure Samples where
  s7 : Bool
  s8 : Bool
  s9 : Bool
  deriving DecidableEq, Repr

/-- A start bit as the receiver saw it (R319): the consecutive samples that read high before its first low one, and its samples. -/
structure StartBit where
  high : Nat := 16
  samples : Samples := ⟨false, false, false⟩
  deriving DecidableEq, Repr

/-- A character as the receiver sampled it (R319, R320): start bit, data bits in the order of the line, parity bit, first stop bit. Bits
that the format does not have are not looked at. -/
structure RxChar where
  start : StartBit := {}
  data : Vector Samples 8
  parity : Samples := ⟨true, true, true⟩
  stop : Samples := ⟨true, true, true⟩
  deriving DecidableEq, Repr

/-- What a LIN node saw of a header (R332): the protected identifier, whether the sync byte read 0x55, the measured T8
in peripheral clocks, and whether samples disagreed (R327). -/
structure LinHeader where
  pid : BitVec 8
  syncOk : Bool := true
  t8 : BitVec 24 := 0
  noise : Bool := false
  deriving DecidableEq, Repr

/-- How a LIN response ended (R331, R333): a bit read back wrong, a published response sent, or bytes received. -/
inductive FrameEvent where
  | bitError (noise : Bool)
  | published (noise : Bool)
  | received (bytes : List Byte) (checksum : BitVec 8) (framing noise : Bool)
  deriving DecidableEq, Repr

/-- What a LIN node had of a response at its time limit (R333): the bytes received, and whether samples disagreed (R327). -/
structure PartResponse where
  received : Fin 10
  noise : Bool := false
  deriving DecidableEq, Repr

/-- Where a transaction on the management bus goes (R335, R336): the address of its first byte, and the item address. -/
structure MgtAddr where
  bus : BitVec 7
  item : BitVec 16
  deriving DecidableEq, Repr

/-- What one NAND target's parameter page reports (R198). `main` is coded as NFC_GEOM.MAIN. -/
structure TargetParam where
  main : BitVec 2
  spare : BitVec 12
  ppb : BitVec 16
  planes : Bool
  blocks : BitVec 16
  twoLuns : Bool
  deriving DecidableEq, Repr

/-- One copy of a target's parameter page (R198): whether its ONFI signature and its CRC are valid, and the fields that are used. -/
structure ParamCopy where
  signature : Bool := true
  crc : Bool := true
  param : TargetParam
  deriving DecidableEq, Repr

/-- What discovery finds at one CE_N (R198): whether the target answers, the copies of its parameter page, and whether each set-up
through SET FEATURES works. -/
structure TargetReply where
  answers : Bool := false
  copies : List ParamCopy := []
  ddr3 : Bool := true
  ddr2 : Bool := true
  deriving DecidableEq, Repr

/-- What the dispatcher finds at its start (R198, R221): what each CE_N answers, channel by channel, and whether codeword 0 of each
region-table page can be corrected. -/
structure Discovery where
  targets : Vector TargetReply 16
  table0 : Bool := true
  table1 : Bool := true
  deriving DecidableEq, Repr

/-- How the ROM's read of a copy goes with the full read ladder (R38): every codeword is corrected, or a codeword of the copy stays
uncorrectable or times out. -/
inductive CopyRead where
  | good
  | ecc (codeword : Nat)
  | timeout (codeword : Nat)
  deriving DecidableEq, Repr

/-- What a boot finds (R301, R26, R38): whether VCORE and VSRAM are in range, whether the root PLL locks, what the parameter page of
LUN 0 gives where it can be read, and how the read of each NAND copy goes should it be tried. -/
structure BootInputs where
  vcoreOk : Bool := true
  vsramOk : Bool := true
  pllOk : Bool := true
  param : Option TargetParam := none
  copies : Vector CopyRead 4 := Vector.replicate 4 .good
  deriving DecidableEq, Repr


/-- An address byte on the management bus in Dormant, and the boot that a wake brings (R335, R340). -/
structure BusWake where
  bus : BitVec 7
  boot : BootInputs
  deriving DecidableEq, Repr

/-- The commands of the block: one constructor per row of spec/opcode_table.json, in the table's order. A station
instruction carries its station and the 52 bits below its opcode fields (R124). -/
inductive Instr where
  /-- SQ_TAIL (R53). Driver writes a queue's submission tail doorbell; the device accepts or discards it and the queue may start fetching descriptors. -/
  | sqTail (q : Fin 16) (idx : BitVec 32)
  /-- CQ_HEAD (R53). Driver writes a queue's completion head doorbell, releasing ring entries; a record waiting in the hold slot can then be written. -/
  | cqHead (q : Fin 16) (idx : BitVec 32)
  /-- HQ_COMMIT (R76). Driver writes HQ_q_COMMIT, capturing the staged queue configuration as a pending set. -/
  | hqCommit (q : Fin 16)
  /-- QUEUE_CONFIG_ACTIVATE (R76). A pending queue configuration becomes active once the queue is idle and its hold slot is empty; indices reset and PHASE becomes 1. -/
  | queueConfigActivate (q : Fin 16)
  /-- DESCRIPTOR_FETCH (R55). A job descriptor fetch from host memory completes; SQ_HEAD advances, or the queue halts on a bus error. -/
  | descriptorFetch (q : Fin 16) (reply : Option (BitVec 512))
  /-- JOB_START (R59). The dispatcher starts a taken job once its mark wait, engines and stations allow it, choosing among queues by priority. -/
  | jobStart (q : Fin 16)
  /-- JOB_END (R112). A job completes once its last station is free and its chains and NAND reads have ended; its effects become visible in the order of R69. -/
  | jobEnd (q : Fin 16)
  /-- MSIX_UNMASK (R75). Host unmasks a vector or the function, or enables MSI-X, and the device sends one message for each pending bit. -/
  | msixUnmask (what : MsixUnmask)
  /-- HQ_MARK (R72). Driver writes a mark through HQ_MARK_n with a 64-bit write; 32-bit writes are discarded. -/
  | hqMark (m : Fin 64) (w : W64)
  /-- GLB_HOSTWIN (R49). Driver writes the host-window base, which is accepted only while all queues and channels are idle. -/
  | glbHostwin (w : W64)
  /-- GLB_BOOT_GO (R39). Driver starts loading a PCI Express boot image, which is checked and verified by the boot ROM. -/
  | glbBootGo (reply : HostReply)
  /-- FLR (R36). Host initiates a Function Level Reset; bound jobs are aborted, NAND writes drain within their bound and the main domain resets. -/
  | flr (boot : BootInputs)
  /-- PERST (R34). PERST_N is asserted and the main domain resets; the assertion has no effect in Dormant. -/
  | perst
  /-- PERST_N_RELEASE (R381). PERST_N rises and the boot ROM starts within 0.1 ms. -/
  | perstNRelease (boot : BootInputs)
  /-- D3HOT (R297). Host writes D3hot to the Power Management capability, forcing Hold without resetting the device. -/
  | d3hot
  /-- RETURN_TO_D0 (R297). Host returns the function to D0, ending a D3hot Hold and releasing held completion records. -/
  | returnToD0
  /-- RUN_PROGRAM (R102). A RUN_PROGRAM job starts one program on the selected stations with their initial register state. -/
  | runProgram (q : Fin 16)
  /-- LOAD_ARRAYS_WEIGHTS (R165). A mode-0 LOAD_ARRAYS job queues the programming of array images into the selected arrays. -/
  | loadArraysWeights (q : Fin 16)
  /-- LOAD_ARRAYS_TABLES (R164). A mode-1 LOAD_ARRAYS job writes post-processing tables of the selected arrays. -/
  | loadArraysTables (q : Fin 16)
  /-- NAND_IO_READ (R201). A NAND_IO READ job queues page reads of a striped stream into device memory. -/
  | nandIoRead (q : Fin 16)
  /-- NAND_IO_PROGRAM (R213). A NAND_IO PROGRAM job queues page programs of a striped stream from device memory. -/
  | nandIoProgram (q : Fin 16)
  /-- NAND_IO_ERASE (R201). A NAND_IO ERASE job queues block erases of a striped stream. -/
  | nandIoErase (q : Fin 16)
  /-- NAND_IO_SET_FEATURES (R200). A NAND_IO job sends SET FEATURES to one target. -/
  | nandIoSetFeatures (q : Fin 16)
  /-- NAND_IO_GET_FEATURES (R200). A NAND_IO job reads four feature bytes from one target into memory. -/
  | nandIoGetFeatures (q : Fin 16)
  /-- NAND_IO_READ_PARAM (R202). A NAND_IO job reads the first valid parameter-page copy of a target into memory. -/
  | nandIoReadParam (q : Fin 16)
  /-- NAND_IO_RESET (R216). A NAND_IO job sends RESET to one target, after which its mode is set up again. -/
  | nandIoReset (q : Fin 16)
  /-- COPY (R62). A COPY job moves bytes between two device addresses on a traverse channel of the context, with an optional CRC. -/
  | copy (q : Fin 16)
  /-- FENCE (R63). A FENCE job completes when every job taken before it in its scope has completed. -/
  | fence (q : Fin 16)
  /-- MARK_OP_ADD (R64). A MARK job adds VALUE to a mark atomically, modulo 2^64. -/
  | markOpAdd (q : Fin 16)
  /-- MARK_OP_SET (R64). A MARK job writes VALUE into a mark atomically. -/
  | markOpSet (q : Fin 16)
  /-- TIMESTAMP (R392). A TIMESTAMP job completes at once with the time at which the queue's previous record was formed. -/
  | timestamp (q : Fin 16)
  /-- ATTEST (R351). An ATTEST job captures the attestation fields, signs them with the unit key and writes the report. -/
  | attest (q : Fin 16)
  /-- SIGNATURE_ENGINE_START (R352). The shared signature engine starts the next ATTEST job or verify request in arrival order. -/
  | signatureEngineStart
  /-- SET_PARCELS (R65). A SET_PARCELS job waits for its context to be idle, then reads entries and writes them into the parcel table all at once. -/
  | setParcels (q : Fin 16)
  /-- NOP (R130). Scalar instruction that does nothing. -/
  | nop (n : Fin 24) (w : BitVec 52)
  /-- ADD (R130). Scalar add modulo 2^64. -/
  | add (n : Fin 24) (w : BitVec 52)
  /-- SUB (R130). Scalar subtract modulo 2^64. -/
  | sub (n : Fin 24) (w : BitVec 52)
  /-- AND (R130). Scalar bitwise AND. -/
  | and (n : Fin 24) (w : BitVec 52)
  /-- OR (R130). Scalar bitwise OR. -/
  | or (n : Fin 24) (w : BitVec 52)
  /-- XOR (R130). Scalar bitwise XOR. -/
  | xor (n : Fin 24) (w : BitVec 52)
  /-- SHL (R130). Scalar shift left. -/
  | shl (n : Fin 24) (w : BitVec 52)
  /-- SHR (R130). Scalar logical shift right. -/
  | shr (n : Fin 24) (w : BitVec 52)
  /-- SRA (R130). Scalar arithmetic shift right. -/
  | sra (n : Fin 24) (w : BitVec 52)
  /-- MUL (R130). Scalar multiply, low 64 bits. -/
  | mul (n : Fin 24) (w : BitVec 52)
  /-- MIN (R130). Scalar signed minimum. -/
  | min (n : Fin 24) (w : BitVec 52)
  /-- MAX (R130). Scalar signed maximum. -/
  | max (n : Fin 24) (w : BitVec 52)
  /-- SLT (R130). Scalar signed set-less-than. -/
  | slt (n : Fin 24) (w : BitVec 52)
  /-- SLTU (R130). Scalar unsigned set-less-than. -/
  | sltu (n : Fin 24) (w : BitVec 52)
  /-- SEQ (R130). Scalar set-if-equal. -/
  | seq (n : Fin 24) (w : BitVec 52)
  /-- MOVHI (R130). Scalar move of IMM into the high word of a register. -/
  | movhi (n : Fin 24) (w : BitVec 52)
  /-- LD64 (R131). Scalar 8-byte load from a parcel through a descriptor. -/
  | ld64 (n : Fin 24) (w : BitVec 52)
  /-- LD32 (R131). Scalar 4-byte zero-extending load from a parcel. -/
  | ld32 (n : Fin 24) (w : BitVec 52)
  /-- ST64 (R131). Scalar 8-byte store to a parcel; it may be a traverse kick. -/
  | st64 (n : Fin 24) (w : BitVec 52)
  /-- ST32 (R131). Scalar 4-byte store to a parcel. -/
  | st32 (n : Fin 24) (w : BitVec 52)
  /-- DSET (R130). Fills a range descriptor from two g registers without checking it. -/
  | dset (n : Fin 24) (w : BitVec 52)
  /-- DGET (R130). Reads one half of a range descriptor into a g register. -/
  | dget (n : Fin 24) (w : BitVec 52)
  /-- DOFF (R130). Adds to a descriptor's OFFSET modulo 2^29. -/
  | doff (n : Fin 24) (w : BitVec 52)
  /-- RDTIME (R130). Reads TCK_TIME into a g register. -/
  | rdtime (n : Fin 24) (w : BitVec 52)
  /-- VADD (R132). Vector lane-wise add. -/
  | vadd (n : Fin 24) (w : BitVec 52)
  /-- VSUB (R132). Vector lane-wise subtract. -/
  | vsub (n : Fin 24) (w : BitVec 52)
  /-- VMUL (R132). Vector lane-wise multiply. -/
  | vmul (n : Fin 24) (w : BitVec 52)
  /-- VFMA (R132). Vector fused multiply-add, rounded once. -/
  | vfma (n : Fin 24) (w : BitVec 52)
  /-- VMAX (R132). Vector lane-wise maximum. -/
  | vmax (n : Fin 24) (w : BitVec 52)
  /-- VMIN (R132). Vector lane-wise minimum. -/
  | vmin (n : Fin 24) (w : BitVec 52)
  /-- VBCAST (R132). Broadcasts a g register into the active vector lanes. -/
  | vbcast (n : Fin 24) (w : BitVec 52)
  /-- VCMPLT (R132). Vector less-than compare into a predicate register. -/
  | vcmplt (n : Fin 24) (w : BitVec 52)
  /-- VCMPEQ (R132). Vector equality compare into a predicate register. -/
  | vcmpeq (n : Fin 24) (w : BitVec 52)
  /-- VREDSUM (R132). Sums the active lanes in a fixed tree into a g register. -/
  | vredsum (n : Fin 24) (w : BitVec 52)
  /-- VREDMAX (R132). Takes the maximum of the active lanes into a g register. -/
  | vredmax (n : Fin 24) (w : BitVec 52)
  /-- VLD (R132). Loads 256 bytes of the vector buffer into a v register. -/
  | vld (n : Fin 24) (w : BitVec 52)
  /-- VST (R132). Stores a v register into 256 bytes of the vector buffer. -/
  | vst (n : Fin 24) (w : BitVec 52)
  /-- VSTA (R132). Stores a v register into 256 bytes of DMU A. -/
  | vsta (n : Fin 24) (w : BitVec 52)
  /-- M_LD (R135). Memory-range transfer from a parcel into an operand buffer. -/
  | mLd (n : Fin 24) (w : BitVec 52)
  /-- M_ST (R135). Memory-range transfer from an operand buffer to a parcel, with optional conversion. -/
  | mSt (n : Fin 24) (w : BitVec 52)
  /-- M_STA (R135). Memory-range transfer from a buffer to a parcel as accumulate-on-write. -/
  | mSta (n : Fin 24) (w : BitVec 52)
  /-- MMA (R137). Matrix tile multiply-add into the DMU accumulator. -/
  | mma (n : Fin 24) (w : BitVec 52)
  /-- MMAZ (R137). Matrix tile multiply into a zeroed region of the DMU accumulator. -/
  | mmaz (n : Fin 24) (w : BitVec 52)
  /-- ACLR (R137). Clears a region of the DMU accumulator. -/
  | aclr (n : Fin 24) (w : BitVec 52)
  /-- ACONV (R139). Applies an input slot to the selected arrays and places the post-processed outputs in their latches. -/
  | aconv (n : Fin 24) (w : BitVec 52)
  /-- MAA (R158). Adds the output latches of the selected arrays into the multi-array accumulator. -/
  | maa (n : Fin 24) (w : BitVec 52)
  /-- QNT (R177). Quantises a run of elements into codes, scales and optional statistics. -/
  | qnt (n : Fin 24) (w : BitVec 52)
  /-- DQN (R179). De-quantises codes and scales into BF16 values. -/
  | dqn (n : Fin 24) (w : BitVec 52)
  /-- QACT (R180). Quantises activations to integer array inputs with one shared scale. -/
  | qact (n : Fin 24) (w : BitVec 52)
  /-- MSIG (R115). Program adds a g register to a mark, or holds the signal under an open epoch. -/
  | msig (n : Fin 24) (w : BitVec 52)
  /-- MWAIT (R115). Program waits until a mark reaches a g register's value. -/
  | mwait (n : Fin 24) (w : BitVec 52)
  /-- BAR (R113). Station arrives at a barrier with a participant mask. -/
  | bar (n : Fin 24) (w : BitVec 52)
  /-- S_FENCE (R142). Station waits until every scoreboard entry is released and every engine queue is empty. -/
  | sFence (n : Fin 24) (w : BitVec 52)
  /-- BR (R143). Unconditional relative branch. -/
  | br (n : Fin 24) (w : BitVec 52)
  /-- BRC (R143). Conditional relative branch. -/
  | brc (n : Fin 24) (w : BitVec 52)
  /-- CALL (R143). Branch that saves the return offset in a g register. -/
  | call (n : Fin 24) (w : BitVec 52)
  /-- JR (R143). Jump to the offset held in a g register. -/
  | jr (n : Fin 24) (w : BitVec 52)
  /-- LOOP (R144). Opens a hardware loop over an address range with a captured count. -/
  | loop (n : Fin 24) (w : BitVec 52)
  /-- END (R112). Ends the station's part of the job. -/
  | endProg (n : Fin 24) (w : BitVec 52)
  /-- EOPEN (R183). Opens an epoch of the context and returns its number. -/
  | eopen (n : Fin 24) (w : BitVec 52)
  /-- ECLOSE_COMMIT (R191). Commits an epoch and every older one, releasing their held effects and reporting latched faults. -/
  | ecloseCommit (n : Fin 24) (w : BitVec 52)
  /-- ECLOSE_DISCARD (R192). Discards an epoch and every newer one, dropping held entries, cancelling queued reads and suppressing faults. -/
  | ecloseDiscard (n : Fin 24) (w : BitVec 52)
  /-- EFENCE (R194). Waits for the station's work to end and returns its spec register. -/
  | efence (n : Fin 24) (w : BitVec 52)
  /-- INSTRUCTION_RETIRE (R108). An engine completes an issued instruction, which retires and releases its scoreboard ranges. -/
  | instructionRetire (n : Fin 24) (e : Engine)
  /-- CONVERSION_START (R107). A waiting array conversion starts once a conversion slot is free and no clock switch is pending. -/
  | conversionStart (n : Fin 24)
  /-- MARK_SIGNAL_VISIBLE (R96). A mark signal takes effect device-wide once every earlier write of the program has been applied. -/
  | markSignalVisible (n : Fin 24)
  /-- MARK_WAIT_END (R115). A station's mark wait ends once the mark reaches its threshold. -/
  | markWaitEnd (n : Fin 24)
  /-- BARRIER_RELEASE (R113). A barrier releases every participant once all have arrived. -/
  | barrierRelease (q : Fin 16) (b : Fin 4)
  /-- KICK (R250). A kick store takes effect after earlier writes apply, starting a channel, becoming its pending kick or being held under an epoch. -/
  | kick (n : Fin 24)
  /-- PROGRAMMER_START (R165). A free programmer takes the next waiting array and begins reading its image. -/
  | programmerStart
  /-- ARRAY_PROGRAMMING_END (R165). Programming of one array ends, leaving it WRITTEN or UNWRITTEN by its fail count. `failCells` counts
  cells of 512 rows and 520 columns; `maxIter` is how many iterations beyond the least of 8 the longest row group took. -/
  | arrayProgrammingEnd (k : Fin 4) (failCells : Fin 266241) (maxIter : Fin 17)
  /-- HELD_TABLE_WRITE (R157). A table or zero-point write held during a conversion takes effect once that conversion's output is in its latch. -/
  | heldTableWrite (n : Fin 24)
  /-- STN_BENCH_CTRL (R162). Driver starts a benchmark measurement of an array, or the request is refused. -/
  | stnBenchCtrl (n : Fin 24) (a : Fin 32) (go : Bool)
  /-- BENCHMARK_MEASUREMENT_END (R162). The 256 benchmark repetitions finish, their code sums are stored and DONE is set. `codes` is what the four
  converters delivered in each repetition. -/
  | benchmarkMeasurementEnd (n : Fin 24) (codes : BenchCodes)
  /-- TRV_START (R226). Driver writes START to a channel, which starts a chain or arms the channel. -/
  | trvStart (ch : Fin 16)
  /-- TRV_PAUSE (R241). Driver sets PAUSE; the channel stops issuing new reads and begins to drain. -/
  | trvPause (ch : Fin 16)
  /-- PAUSED (R241). A pausing channel has drained its reads and holding buffer and sets PAUSED. -/
  | paused (ch : Fin 16)
  /-- TRV_RESUME (R242). Driver clears PAUSE and the channel resumes from its registers. -/
  | trvResume (ch : Fin 16)
  /-- TRV_CANCEL (R243). Driver cancels a chain it started; the channel drains and becomes IDLE. -/
  | trvCancel (ch : Fin 16)
  /-- TRV_CHN_OWNER (R223). Driver assigns a channel's owning context, which is accepted only while the channel is idle. -/
  | trvChnOwner (ch : Fin 16) (c : Fin 8) (valid : Bool)
  /-- TRV_CHN_COMMIT (R238). Driver commits a channel's staged FMT, which becomes active at the next descriptor fetch. -/
  | trvChnCommit (ch : Fin 16)
  /-- TICK (R252). A tick generator ticks, adopting a pending period and phase and feeding armed channels. -/
  | tick (g : Fin 4)
  /-- TRAVERSE_DESCRIPTOR_FETCH (R231). A channel's descriptor fetch completes and the descriptor is checked before it moves any byte. -/
  | traverseDescriptorFetch (ch : Fin 16) (reply : BitVec 256)
  /-- TRAVERSE_READ_COMPLETION (R225). A traverse read returns data, which is dropped if its generation is stale. -/
  | traverseReadCompletion (who : Requester) (gen : BitVec 8) (data : List (BitVec 8))
  /-- DESCRIPTOR_END (R247). A descriptor ends: its writes are applied, then its mark signal, interrupt and, with LAST, the chain end. -/
  | descriptorEnd (ch : Fin 16)
  /-- ACCESS_FAIL (R245). A traverse access fails and is retried up to TRV_RETRY times. -/
  | accessFail (who : Requester)
  /-- TCK_COMMIT (R252). Driver commits staged tick periods and phases. -/
  | tckCommit
  /-- NFC_COMMIT (R362). Driver commits the NAND controller's staged set, and no new command sequence starts. -/
  | nfcCommit
  /-- NFC_SET_ACTIVATE (R362). The pending NAND set becomes active when no command sequence or ladder is running. -/
  | nfcSetActivate
  /-- NAND_OPERATION_START (R211). The controller starts the next LUN operation by its read-first ordering. -/
  | nandOperationStart (u : Fin 32)
  /-- STATUS_POLL (R197). A READ STATUS ENHANCED poll of a busy LUN falls due. -/
  | statusPoll (u : Fin 32) (ready : Bool) (fail : Bool)
  /-- NAND_OPERATION_END (R213). A LUN operation ends with its status and data written; failures and refusals are recorded. -/
  | nandOperationEnd (u : Fin 32) (data : List (BitVec 8))
  /-- CODEWORD_DECODE (R208). A transferred codeword is decoded, with the read ladder continuing until it is corrected or uncorrectable. -/
  | codewordDecode (u : Fin 32) (k : Fin 5) (outcome : DecodeOutcome)
  /-- NAND_TIMEOUT (R215). A NAND operation passes its timeout; it ends with TIMEOUT_NAND and the target is reset. -/
  | nandTimeout (u : Fin 32)
  /-- OKL_COMMIT (R262). Driver commits staged link routes, applied per port from the next message boundary. -/
  | oklCommit
  /-- OKL_CTX_COMMIT (R263). Driver commits a context's staged link binding and window as a pending set. -/
  | oklCtxCommit (c : Fin 8)
  /-- BINDING_ACTIVATE (R263). A pending binding becomes active when the context has no running job, or is left invalid with BAD_BIND or BIND_CONFLICT. -/
  | bindingActivate (c : Fin 8)
  /-- RETRAIN (R254). Driver writes RETRAIN, which starts training of an enabled link port. -/
  | retrain (p : Fin 2)
  /-- PORT_DISABLE (R258). Driver clears a port's ENABLE, taking the port down. -/
  | portDisable (p : Fin 2)
  /-- LINK_TRAINING_END (R254). Link training ends with a width or fails. -/
  | linkTrainingEnd (p : Fin 2) (width : Option (Fin 3))
  /-- HELLO (R254). A HELLO message carrying the neighbour's chip ID is received; an equal ID keeps the port down. -/
  | hello (p : Fin 2) (m : Msg)
  /-- WRITE (R265). A peer WRITE message arrives and is applied to the bound window, or refused. -/
  | write (p : Fin 2) (m : Msg)
  /-- READ (R265). A peer READ message arrives and is answered with READ_RESP or ERR_RESP. -/
  | read (p : Fin 2) (m : Msg)
  /-- MARK_ADD (R267). A MARK_ADD message arrives and adds 1 to a local mark after earlier writes from its source. -/
  | markAdd (p : Fin 2) (m : Msg)
  /-- FLUSH (R267). A FLUSH message arrives and is answered with FLUSH_ACK after earlier writes and mark adds apply. -/
  | flush (p : Fin 2) (m : Msg)
  /-- READ_RESP (R266). A READ_RESP arrives for a reserved tag, or is dropped as stale. -/
  | readResp (p : Fin 2) (m : Msg)
  /-- FLUSH_ACK (R267). A FLUSH_ACK arrives; the descriptor's writes count as applied, or the chain halts if REFUSED is set. -/
  | flushAck (p : Fin 2) (m : Msg)
  /-- ERR_RESP (R266). An ERR_RESP arrives and counts as a bus error of the peer read. -/
  | errResp (p : Fin 2) (m : Msg)
  /-- ABORT (R269). An ABORT message arrives; it is logged, forwarded and resets the bound context, unless it is a duplicate. -/
  | abort (p : Fin 2) (m : Msg)
  /-- NAK (R257). A NAK is received and the transmitter replays every flit from ACK + 1; too many take the port down. -/
  | nak (p : Fin 2) (ack : BitVec 8)
  /-- ACK_INTERVAL (R257). The receiver's 1 us acknowledgement interval expires and an ACK is sent. -/
  | ackInterval (p : Fin 2)
  /-- LINK_SILENCE (R258). No flit arrives on a port for 10 us and the port goes down. -/
  | linkSilence (p : Fin 2)
  /-- RESPONSE_TIMEOUT (R266). A peer read's response does not arrive within 50 us and counts as a bus error. -/
  | responseTimeout (tag : Fin 64)
  /-- CTX_RESET (R273). Driver writes CTX_c_RESET.GO, triggering a context reset that counts toward escalation. -/
  | ctxReset (c : Fin 8) (go : Bool)
  /-- CONTEXT_RESET_SEQUENCE (R275). A triggered context's reset steps 2 to 12 run once earlier resets have ended. -/
  | contextResetSequence (c : Fin 8)
  /-- SAMPLE_TIMEOUT (R283). The sample is not finished 500 us after step 3 starts and is abandoned. -/
  | sampleTimeout (c : Fin 8)
  /-- REVOCATION (R286). A drain bound of the reset expires and the resources still held are revoked. -/
  | revocation (c : Fin 8)
  /-- CTX_ESC_COMMIT (R291). Driver commits the escalation limit and window pair at once. -/
  | ctxEscCommit
  /-- CTX_PT_COMMIT (R89). Driver commits a context's staged parcel table as a pending set. -/
  | ctxPtCommit (c : Fin 8)
  /-- PARCEL_TABLE_ACTIVATE (R89). A pending parcel table becomes active when no job of the context runs; bad entries are left invalid. -/
  | parcelTableActivate (c : Fin 8)
  /-- SHM_MODE (R83). Driver writes the shared-memory mode, which is accepted only when idle and leaves shared memory undefined. -/
  | shmMode (split : Bool)
  /-- SHM_CNT_CLEAR (R82). Driver zeroes every shared-memory bank conflict counter. -/
  | shmCntClear
  /-- STN_CNT_CLEAR (R99). Driver zeroes a station's conflict and scoreboard counters. -/
  | stnCntClear (n : Fin 24)
  /-- STN_EXEC_CLEAR (R108). Driver zeroes a station's execution counters. -/
  | stnExecClear (n : Fin 24)
  /-- NFC_CNT_CLEAR (R209). Driver zeroes the NAND counters and histogram. -/
  | nfcCntClear
  /-- CTX_SPEC_CLEAR (R192). Driver zeroes a context's speculation counters. -/
  | ctxSpecClear (c : Fin 8)
  /-- PWR_CLK_CTRL (R29). Driver writes the station divider, which is checked against VCORE and either refused or recorded as pending. -/
  | pwrClkCtrl (div : BitVec 2) (vcore : BitVec 8)
  /-- DIVIDER_SWITCH (R30). A pending divider change takes place once running conversions end, and array issue resumes. -/
  | dividerSwitch
  /-- VCORE_FORCE (R32). VCORE stays below the divider minimum for 2 us and divide-by-8 is forced. -/
  | vcoreForce (vcore : BitVec 8)
  /-- PLL_UNLOCK (R26). The root PLL loses lock; the main domain stops, FAULT_N is asserted and the field book is flushed. -/
  | pllUnlock
  /-- PLL_NO_LOCK (R26). The root PLL fails to lock within 200 us and boot fails with PLL_NO_LOCK. -/
  | pllNoLock
  /-- STRAP_LATCH (R37). One millisecond after VSYS passes 2.7 V, the strap balls are latched. -/
  | strapLatch (straps : BitVec 7) (boot : BootInputs)
  /-- FIRMWARE_START (R40). The dispatcher firmware reports its start, discovers NAND and sets READY. -/
  | firmwareStart (found : Discovery)
  /-- FW_START_TIMEOUT (R40). The firmware does not report its start within 50 ms and boot fails terminally. -/
  | fwStartTimeout
  /-- SUPPLY_RETRY (R301). After a failed rail check, PWR_EN_OUT has been low for 10 ms and the wake sequence restarts, or it gives up after three attempts. -/
  | supplyRetry (boot : BootInputs)
  /-- TRIM_ENTRY (R295). The Trim idle timer expires and station clocks are gated. -/
  | trimEntry
  /-- HOLD_ENTRY (R295). The Hold idle timer expires and the device enters Hold. -/
  | holdEntry
  /-- FORCED_HOLD (R297). After a forced Hold request, running work drains and the device enters Hold. -/
  | forcedHold
  /-- PWR_FORCE_HOLD_SET (R297). Driver writes PWR_FORCE.HOLD = 1, requesting a forced Hold. -/
  | pwrForceHoldSet
  /-- PWR_FORCE_HOLD_CLEAR (R297). Driver writes PWR_FORCE.HOLD = 0, ending a forced Hold. -/
  | pwrForceHoldClear
  /-- DRAIN_ABORT (R316). PWR_DRAIN_WAIT expires during a forced Hold and unfinished work ends with POWER_ABORT. -/
  | drainAbort
  /-- HOLD_WAKE (R298). A wake event in Hold runs the fixed 120 us wake sequence. -/
  | holdWake
  /-- DORMANT_NOTICE (R296). The Dormant timer expires in Hold; DORMANT_NOTICE is set and a 1 ms notice starts. -/
  | dormantNotice
  /-- DORMANT_NOTICE_CANCEL (R296). Driver writes 1 to DORMANT_NOTICE during the notice and Dormant entry is cancelled. -/
  | dormantNoticeCancel
  /-- DORMANT_ENTRY (R296). The 1 ms notice ends and the device powers down into Dormant in fixed order. -/
  | dormantEntry
  /-- DORMANT_WAKE (R340). The I2C matcher matches its address in Dormant and requests a wake, which is a reset with cause DORMANT_WAKE. -/
  | dormantWake (w : BusWake)
  /-- SUPPLY_WARN (R307). VSYS falls below the warning level; the divider is forced and the field book is flushed. -/
  | supplyWarn (vsys : BitVec 13)
  /-- WARNING_RECOVERY (R307). VSYS rises above the recovery level, WARN clears and the 10 ms hold-off starts. -/
  | warningRecovery (vsys : BitVec 13)
  /-- HOLDOFF_END (R307). The 10 ms hold-off expires and DIP_FORCE clears. -/
  | holdoffEnd
  /-- BOR_VSYS (R309). VSYS falls below 2.7 V and the main domain is reset and powered down. -/
  | borVsys
  /-- BOR_VSYS_RELEASE (R309). VSYS rises above 2.8 V and the wake sequence runs, followed by boot. -/
  | borVsysRelease (boot : BootInputs)
  /-- COLD (R34). VSYS falls below 2.2 V or rises through 2.7 V from unpowered, causing a cold reset. -/
  | cold
  /-- BOR_LP (R305). The AON regulator is overloaded in low-power mode for 20 us and the device resets. -/
  | borLp
  /-- DFT_EN (R369). DFT_EN reads high and the main domain is held in reset. -/
  | dftEn
  /-- CHARGE_SAMPLE (R311). Every 100 us the sense voltage is sampled and subtracted from SUP_CHARGE. -/
  | chargeSample (sense : Int) (vsys : BitVec 13)
  /-- SUP_CHARGE (R311). Driver seeds SUP_CHARGE with a 64-bit write. -/
  | supCharge (w : W64)
  /-- PWR_PAD_RELEASE (R314). Driver releases the pad-hold latches, connecting the held balls to their blocks. -/
  | pwrPadRelease (go : Bool)
  /-- FIELD_BOOK_FLUSH_END (R356). A field-book flush completes and any pending flush starts. -/
  | fieldBookFlushEnd
  /-- FBK_FLUSH (R356). Driver requests a field-book flush. -/
  | fbkFlush
  /-- FBK_DRV_LOG (R355). Driver writes one driver entry into the field book with the committed data. -/
  | fbkDrvLog (code : BitVec 8)
  /-- IDK_PMK_BURN (R346). Driver starts burning the product-maker key hash into OTP, or the burn is refused. -/
  | idkPmkBurn (v : BitVec 32)
  /-- PMK_BURN_END (R346). The key-hash burn completes and PMK_STATE becomes WRITTEN. -/
  | pmkBurnEnd
  /-- IDK_COMMIT (R348). Driver commits the maker key, which is checked against PMK_HASH and then used to verify the region table. -/
  | idkCommit
  /-- IDK_VFY_GO (R349). Driver starts a verify request for an image against the loaded key. -/
  | idkVfyGo
  /-- VERIFY_END (R349). A verify request finishes and writes DIGEST, REASON and STATUS. -/
  | verifyEnd (req : HostReply) (img : HostReply)
  /-- SERN_DATA_WRITE (R321). Driver writes a UART's transmit holding register, or the byte is lost. -/
  | sernDataWrite (u : Fin 2) (b : BitVec 8)
  /-- SERN_DATA_READ (R324). Driver reads the receive holding register, clearing RXFULL and the marked error flags. -/
  | sernDataRead (u : Fin 2)
  /-- SERN_STAT_READ (R324). Driver reads SERn_STAT, marking the error flags that it returns. -/
  | sernStatRead (u : Fin 2)
  /-- SERN_COMMIT (R362). Driver commits a UART's staged configuration as a pending set. -/
  | sernCommit (u : Fin 2)
  /-- SER_SET_ACTIVATE (R362). A pending UART configuration becomes active when the UART is idle and no frame is in progress. -/
  | serSetActivate (u : Fin 2)
  /-- CHARACTER_START (R321). The transmit shifter falls idle and takes the held byte, starting its start bit. -/
  | characterStart (u : Fin 2)
  /-- CHARACTER_RECEIVED (R320). A received character finishes at its stop bit and enters the holding register, or sets OE. -/
  | characterReceived (u : Fin 2) (c : RxChar)
  /-- SER1_LIN_HDR (R331). Driver starts a commander LIN header. -/
  | ser1LinHdr (id : BitVec 6) (go : Bool)
  /-- SER1_LIN_WAKE (R334). Driver starts a LIN wake pulse. -/
  | ser1LinWake (us : BitVec 13) (go : Bool)
  /-- WAKE_PULSE_END (R334). The wake pulse ends and STATE returns to IDLE. -/
  | wakePulseEnd
  /-- BREAK (R332). A responder detects a LIN break, ending any frame in progress and starting a new one. -/
  | breakSeen
  /-- PID (R329). A LIN protected identifier is accepted or fails parity, and the table entry decides the response. -/
  | pid (h : LinHeader)
  /-- FRAME_END (R334). A LIN frame ends with its result, counters and DONE set. -/
  | frameEnd (e : FrameEvent)
  /-- HDR_TIMEOUT (R333). A LIN header has not finished within 47.6 bit times. -/
  | hdrTimeout
  /-- NO_RESPONSE (R333). A LIN response has not finished within its time limit and ends with NO_RESPONSE or INCOMPLETE. -/
  | noResponse (r : PartResponse)
  /-- WAKE_SEEN (R334). A line held low for 150 us or more that is not a break sets WAKE_SEEN. -/
  | wakeSeen
  /-- MGT_READ (R337). A management-port read transaction returns item bytes, capturing multi-byte items. -/
  | mgtRead (addr : MgtAddr) (count : Nat)
  /-- MGT_WRITE (R337). A management-port write transaction updates a writable item once its highest byte is written. -/
  | mgtWrite (addr : MgtAddr) (bytes : List (BitVec 8))
  /-- MGT_PWR_CMD_HOLD_SET (R339). MGT_PWR_CMD bit 0 sets PWR_FORCE.HOLD. -/
  | mgtPwrCmdHoldSet
  /-- MGT_PWR_CMD_HOLD_CLEAR (R339). MGT_PWR_CMD bit 1 clears PWR_FORCE.HOLD. -/
  | mgtPwrCmdHoldClear
  /-- MGT_PWR_CMD_FLUSH (R339). MGT_PWR_CMD bit 2 starts a field-book flush. -/
  | mgtPwrCmdFlush
  /-- MGT_PWR_CMD_PAD_RELEASE (R339). MGT_PWR_CMD bit 3 releases the pad-hold latches. -/
  | mgtPwrCmdPadRelease
  /-- BUS_TIMEOUT (R338). SCL stays low for 25 ms during a transaction and the management port returns to idle. -/
  | busTimeout
  /-- MGT_COPY_REFRESH (R338). Every 1 ms the port's copy of SUP_VSYS and SUP_CHARGE is refreshed. -/
  | mgtCopyRefresh (vsys : BitVec 13)
  /-- LOW_WORD_READ (R14). A read of the low word of an RS register latches its high word into that port's snapshot. The
  command is a host read of any window, offset and length (R6). -/
  | lowWordRead (r : HostRead)
  /-- FIELD_BOOK_ENTRY_READ (R358). A read of bytes 0 to 7 of a field-book entry latches its bytes 8 to 15. -/
  | fieldBookEntryRead (off : BitVec 24)
  /-- REGISTER_WRITE (R8). A BAR0 write to a register with no behaviour of its own acts as its type states. The command is a
  host write of any window, offset and byte enables (R6); `reply` is what host memory answers should the write start the load
  of a boot image (R39). -/
  | registerWrite (r : HostWrite) (reply : HostReply)
  /-- FLIT (R257). A flit arrives at a link port. Its CRC and SEQ are checked and its ACK and credits are applied. A bad or out-of-order flit is discarded and NAKed, a message for another chip is forwarded, and a message with a reserved OP is dropped. -/
  | flit (p : Fin 2) (f : BitVec 512)
  /-- UNDEFINED_OPCODE (R125). An instruction word whose major or minor opcode is not defined reaches issue and faults with ILLEGAL_INSTR, reason 0x01. -/
  | undefinedOpcode (n : Fin 24) (word : BitVec 64)
  /-- FALSE_START (R319). A UART receiver's start bit has a high majority, so no character results and only NOISE may be set. -/
  | falseStart (u : Fin 2) (start : StartBit)
  /-- PCIE_LINK_L0 (R302). The PCI Express link reaches L0 after a wake, and the device releases WAKE_OUT_N. -/
  | pcieLinkL0
  /-- WAKE_OUT_N_TIMEOUT (R302). WAKE_OUT_N has been asserted for 100 ms without the link reaching L0, and it is released. -/
  | wakeOutNTimeout
  /-- DFT_EN_LOW (R369). DFT_EN falls low, releasing the main domain from reset so that boot can start. -/
  | dftEnLow (boot : BootInputs)
  /-- FLR_NAND_WAIT (R36). During an FLR, the wait for NAND programs and erases in flight reaches the smaller of NFC_RESET_WAIT and 10 ms; the controller issues RESET, marks the page suspect and the main domain resets. -/
  | flrNandWait
  deriving DecidableEq, Repr

end Sys2Proof
end

