-- ==== Sys2Proof/Decode.lean ====
section
/-!
DEFINITION. The command that a word spells by the bits of spec/opcode_table.json. The table gives no row any bits: a
command reaches this block as a command, so no word spells one. (The words of station instructions, R124, are operands;
their fields are taken apart in Sys2Proof/Machine/Operands.lean.)
-/

namespace Sys2Proof

/-- No row of the table has bits, so no word spells a command. -/
def decodeTableWord (_nbits _w : Nat) : Option Instr := none

end Sys2Proof
end

