-- ==== Sys2Proof/Config.lean ====
section
/-!
DEFINITION. What the spec leaves open and the model leaves free: constants with no body, so that nothing can be proved
of their values. Each is applied to a stamp (a number of the state that the step advances) or to the operands it
depends on. notes/assumptions names each of them.
-/

namespace Sys2Proof.Config

/-- The byte that an address of a memory reads as when nothing has been written there since the contents last became
undefined (R19, R77, R83, R90, R139). `stamp` names that occasion, `addr` the address. -/
opaque freeByte (stamp addr : Nat) : BitVec 8

/-- The code of the time-to-digital converter for one column pair and one plane (R151): only the noise model bounds its
accuracy, and that model is a distribution (R159, R160), so the value is free. `stamp` names the conversion, `d` is the
ideal sum of the plane in level units and `range` the RANGE field in force. -/
opaque converterCode (stamp plane column : Nat) (d : Int) (range : Nat) : BitVec 6

/-- A parity byte that the LDPC encoder computes over a codeword (R205): the spec gives no code. `column` is the byte's
column in the page, `codeword` the 4,104 bytes it protects. -/
opaque parityByte (column : Nat) (codeword : List (BitVec 8)) : BitVec 8

/-- A byte of the hard-decision data of a codeword that stays uncorrectable (R209): the errors of the die are open. -/
opaque hardDecisionByte (stamp i : Nat) : BitVec 8

/-- A doubleword of the configuration header to which the spec gives no value: the vendor, the subsystem, the pointer to the
capabilities (R47). -/
opaque configWord (i : Nat) : BitVec 32

/-- The feature address (the low byte) and the four parameters with which SET FEATURES sets up a mode of NFC_CH_MODE (R198, R216): the
spec names neither. -/
opaque modeFeature (mode : BitVec 2) : BitVec 40

/-- The station-memory offset that an engine at work requests through its port in a station clock, if it requests one (R78, R79): the
spec gives no schedule of accesses. `stamp`, `time` and `clock` name the clock; ports as STN_CONFLICT_b_e numbers them. -/
opaque portRequest (stamp time clock station port : Nat) : Option (BitVec 19)

/-- The address that a requester at work sends to shared memory in a fabric clock, if it sends one (R82). -/
opaque shmRequest (stamp time clock requester : Nat) : Option (BitVec 28)

/-- The levels at the input balls when the pad-hold latches capture them (R313): GPIO[7:0], then SER0_RX and SER1_RX. -/
opaque pinLevels (stamp : Nat) : BitVec 10

/-- Whether a UART is receiving a character when Hold is entered (R325): no command shows the start of one. -/
opaque receiving (stamp uart : Nat) : Bool

/-- Whether samples of a frame that ends before its bits are told have disagreed (R327). -/
opaque lineNoise (stamp : Nat) : Bool

/-- Whether the header that a responder sees enters its next field in a peripheral clock (R334). -/
opaque headerMoves (stamp time : Nat) : Bool

/-- A byte of the overlap of source and destination that R234 leaves undefined. -/
opaque overlapByte (stamp addr : Nat) : BitVec 8


end Sys2Proof.Config
end

