-- ==== Sys2Proof/Machine/State.lean ====
section
/-!
DEFINITION. The state of the GL24 as plain data: every register, memory, queue, buffer, counter, mode and pin that the
spec gives the device, and the queue of commands that wait. Each structure's defaults are its values after reset; a
device reset gives the main domain its defaults again (R35).
-/

namespace Sys2Proof.Machine

/-! ## Memories -/

/-- A byte memory. `known` lists the address ranges [lo, hi) whose contents are defined, rising and separated; `cells`
lists the non-zero bytes at known addresses, rising. A known address that is not in `cells` holds zero; any other
address holds undefined data, which reads as a free value named by `stamp` (R19, R77, R83). -/
structure Memory where
  stamp : Nat := 0
  known : List (Nat × Nat) := []
  cells : List Host.Cell := []
  deriving DecidableEq, Repr

/-- A staged register set (R9 to R12): the active copy, the staging copy and the pending copy of a COMMIT. -/
structure Staged (α : Type) where
  active : α
  staging : α
  pending : Option α := none
  deriving DecidableEq, Repr

/-! ## Parts that every device reset keeps -/

/-- The datum record of R161, written at manufacture: its values lie within the bounds of R160. `inl` has one byte for each
array, 32 to a station. -/
structure Datum where
  sigma : Vector (BitVec 16) 16 := Vector.replicate 16 0x3400
  nu : BitVec 16 := 0x2400
  sigmaNu : BitVec 16 := 0x1C00
  inl : Vector (BitVec 8) 768 := Vector.replicate 768 0x40
  deriving DecidableEq, Repr

/-- What the CA chose for the device certificate (R342): the certificate's serial number, the issuer's Name and notBefore as they are
encoded, and the CA's signature. -/
structure Cert where
  serial : Nat := 1
  issuer : List Byte := [0x30, 0x00]
  notBefore : List Byte := [0x17, 0x0D, 0x37, 0x30, 0x30, 0x31, 0x30, 0x31, 0x30, 0x30, 0x30, 0x30, 0x30, 0x30, 0x5A]
  sigR : BitVec 256 := 0
  sigS : BitVec 256 := 0
  deriving DecidableEq, Repr

/-- Fuses and OTP (R35, R43, R161, R341, R342, R346). `pmkState` is 0 BLANK, 1 WRITTEN, 2 DAMAGED. -/
structure Otp where
  stationMap : BitVec 24 := 0xFFFFFF
  shmGroups : BitVec 3 := 7
  serial : BitVec 64 := 0
  unitKey : BitVec 256 := 1
  cert : Cert := {}
  vendorHash : BitVec 256 := 0
  pmkHash : BitVec 256 := 0
  pmkState : BitVec 2 := 0
  datum : Datum := {}
  deriving DecidableEq, Repr

/-- The non-volatile header and the cells of one array (R147, R148, R167, R350). `state` is 0 UNWRITTEN, 1 WRITTEN,
2 PROGRAMMING; `image` holds the level bytes of the column pairs, `bench` those of the four benchmark pairs, the same on every row. -/
structure ArrayNv where
  state : BitVec 2 := 0
  worn : Bool := false
  degraded : Bool := false
  failCells : BitVec 16 := 0
  cycles : BitVec 17 := 0
  maxIter : BitVec 8 := 0
  digest : BitVec 256 := 0
  image : Memory := {}
  bench : Vector (BitVec 8) 4 := Vector.replicate 4 0
  deriving DecidableEq, Repr

/-- A field-book flush under way (R356, R308): the slot, the sequence number and the bytes that it will hold. -/
structure Flush where
  slot : Fin 16
  seq : BitVec 32
  bytes : List Byte
  deriving DecidableEq, Repr

/-- The management port (R335 to R340): TIMEOUT, the port's captures of multi-byte items by item address, the bytes of a
write to a multi-byte item, and the copies of SUP_VSYS and SUP_CHARGE. -/
structure Mgmt where
  timeout : Bool := false
  captures : List (Nat × List Byte) := []
  vsysCopy : BitVec 13 := 0
  chargeCopy : BitVec 64 := 0
  deriving DecidableEq, Repr

/-- The AON domain (R34, R35, R37, R292, R300 to R314, R353 to R358). Kept by every reset but COLD and BOR_LP. `faultN`
and `wakeOut` say what the AON domain asserts, `bootBad` that the last boot failed (R46); `padFault`, `padWake`, `padGpio` and `padRx` what the pad-hold latches
captured (R313: GPIO balls and SERn_RX are inputs, SERn_TX is captured high); `padZ` that the latches were cleared and the held balls
float until the first release. -/
structure Aon where
  cause : BitVec 6 := 1
  history : BitVec 6 := 1
  rstCount : BitVec 16 := 1
  bootSel : BitVec 2 := 0
  linkId : Fin 8 := 0
  mgtAddr : BitVec 2 := 0
  ring : Vector (BitVec 128) 512 := Vector.replicate 512 0
  fbHead : Fin 512 := 0
  fbCount : Nat := 0
  flushing : Option Flush := none
  flushPend : Option (BitVec 16) := none
  slotSel : Fin 16 := 0
  lastSlot : Fin 16 := 0
  seq : BitVec 32 := 0
  vsysWarn : BitVec 4 := 2
  warn : Bool := false
  dip : Bool := false
  holdoff : Bool := false
  padHeld : Bool := true
  padZ : Bool := true
  padFault : Bool := false
  padWake : Bool := false
  padGpio : BitVec 8 := 0
  padRx : BitVec 2 := 0
  faultN : Bool := false
  bootBad : Bool := false
  wakeOut : Bool := false
  pwrEn : Bool := false
  supplyTries : Nat := 0
  certReady : Bool := false
  mgmt : Mgmt := {}
  deriving DecidableEq, Repr

/-- What keeps the main domain from serving, or that it serves (R26, R37, R41, R296, R301, R309, R339, R369, R381).
`strapWait`: after COLD or BOR_LP, before the straps latch. `borHeld`: powered down until VSYS passes 2.8 V.
`supplyWait`: PWR_EN_OUT low after a failed rail check. `supplyDead`: the third check failed. `pllWait`: the PLL is
enabled and has not locked. `pllNever`, `pllLost`: stopped under R26. `inReset`: PERST_N low. `dftHeld`: DFT_EN high.
`bootPcie`: stage 4. `bootFw`: stage 6. `bootFailed`: R41. `serving`: READY is 1. `dormant`: powered down (R296). -/
inductive Phase where
  | strapWait | borHeld | supplyWait | supplyDead | pllWait | pllNever | pllLost | inReset | dftHeld | bootPcie | bootFw
  | bootFailed | serving | dormant
  deriving DecidableEq, Repr

/-- The power states of a powered main domain (R292); the fourth, Dormant, is a Phase. -/
inductive PState where
  | run | trim | hold
  deriving DecidableEq, Repr

/-! ## Queues, jobs and interrupts -/

/-- One entry of a parcel table (R84). `rights` is byte 9: R 0, W 1, X 2, ACC 3, RESIDENT 4, SPEC 5, VALID 7. -/
structure Parcel where
  base : BitVec 28 := 0
  bound : BitVec 29 := 0
  space : BitVec 8 := 0
  rights : BitVec 8 := 0
  deriving DecidableEq, Repr

/-- The 32 entries of a context (R84). -/
abbrev PTable := Vector Parcel 32

/-- The staged configuration of a queue (R76). -/
structure QueueCfg where
  enable : Bool := false
  ctx : CtxNo := 0
  prio : BitVec 2 := 0
  nosnoop : Bool := false
  sqBase : BitVec 64 := 0
  cqBase : BitVec 64 := 0
  sqLog2 : BitVec 4 := 4
  cqLog2 : BitVec 4 := 4
  deriving DecidableEq, Repr

/-- How far a taken job has come: fetched; started by the dispatcher (R59); at work in its engine; at its end. -/
inductive JobPhase where
  | taken | started | running | ended
  deriving DecidableEq, Repr

/-- A job that was taken (R55, R66). `order` numbers the jobs in the order in which they were taken; `stations` is the
mask of stations the job still holds; `readLeft` counts reads that SET_PARCELS or mode-1 LOAD_ARRAYS still awaits;
`doomed` marks a job that step 1 of a context reset found (R279); `waiting` one that was next and waited on its mark when a
parcel table or a binding of its context was committed, so that it counts as running (chapter 4, Collisions); `endTag`: the epoch
under which the job ended, where its completion waits for a closure-buffer entry (R188, R195). -/
structure Job where
  desc : BitVec 512
  ctx : CtxNo
  gen : BitVec 8
  takenAt : BitVec 64
  order : Nat
  prio : BitVec 2
  nosnoop : Bool
  phase : JobPhase := .taken
  status : BitVec 16 := 0
  detail : BitVec 32 := 0
  crc : BitVec 32 := 0
  cycles : Nat := 0
  faulted : Bool := false
  stations : BitVec 24 := 0
  retries : Nat := 0
  doomed : Bool := false
  waiting : Bool := false
  endTag : Option (BitVec 16) := none
  endedAt : Option (BitVec 64) := none
  report : List Byte := []
  deriving DecidableEq, Repr

/-- A completion record before its phase bit (R66), and whether its descriptor had IRQ set. -/
structure Rec where
  status : BitVec 16
  tag : BitVec 16
  gen : BitVec 8
  ctx : CtxNo
  queue : QueueNo
  cycles : BitVec 32
  detail : BitVec 32
  crc : BitVec 32
  time : BitVec 64
  irq : Bool
  deriving DecidableEq, Repr

/-- A queue (R53 to R57, R67, R68, R76). `jobs`: taken and not completed, the first runs, the second was fetched ahead.
`hold`: the hold slot. CQ_STALL shows that it is not empty. `lastTime`: the last record's time (R392). -/
structure Queue where
  cfg : Staged QueueCfg := ⟨{}, {}, none⟩
  sqHead : BitVec 12 := 0
  sqTail : BitVec 12 := 0
  cqHead : BitVec 12 := 0
  cqWrite : BitVec 12 := 0
  phase : Bool := true
  halted : Bool := false
  fetchErr : Bool := false
  badDoorbell : Bool := false
  dbInReset : Bool := false
  jobsDone : BitVec 64 := 0
  jobs : List Job := []
  hold : List Rec := []
  lastTime : Option (BitVec 64) := none
  deriving DecidableEq, Repr

/-- MSI-X (R48, R74, R75, R361): the table, the Pending Bit Array, the function mask and the Enable bit. -/
structure Msix where
  addr : Vector (BitVec 64) 64 := Vector.replicate 64 0
  data : Vector (BitVec 32) 64 := Vector.replicate 64 0
  mask : BitVec 64 := 0xFFFFFFFFFFFFFFFF
  enable : Bool := false
  functionMask : Bool := false
  pba : BitVec 64 := 0
  deriving DecidableEq, Repr

/-- The state of the PCI Express link (R35, R46, R302). -/
inductive LinkState where
  | down | training | up
  deriving DecidableEq, Repr

/-- The PCI Express function (R47, R48): the link, and the configuration registers that a host writes. `devCtl` holds Max
Payload Size in [7:5], Max Read Request Size in [14:12] and No Snoop Enable in [11]. -/
structure Pcie where
  link : LinkState := .down
  command : BitVec 16 := 0
  bars : Vector (BitVec 64) 3 := Vector.replicate 3 0
  intLine : BitVec 8 := 0
  devCtl : BitVec 16 := 0x2800
  deriving DecidableEq, Repr

/-! ## Speculation -/

/-- An effect that the closure buffer holds (R187): MSIG with its place in the order of issue, a held kick with its captured head descriptor (R189, R251), a
chain's SIG update, a chain's interrupt, or the end of a job with its signal and the first fault attached (R193). -/
inductive HeldEffect where
  | msig (n : StationNo) (mark : Fin 64) (value : BitVec 64) (seq : Nat)
  | kick (n : StationNo) (ch : ChanNo) (head : BitVec 64) (desc : BitVec 256)
  | sig (mark : Fin 64)
  | irq (vector : Fin 64)
  | completion (record : Rec) (signal : Option (Fin 64)) (order : Nat) (fault : Option (BitVec 16 × BitVec 32))
  deriving DecidableEq, Repr

/-- A closure-buffer entry: the epoch it is tagged with and the effect (R185, R188). -/
structure Held where
  epoch : BitVec 16
  eff : HeldEffect
  deriving DecidableEq, Repr

/-- A latched fault (R120, R187, R193). -/
structure Latched where
  epoch : BitVec 16
  station : StationNo
  queue : QueueNo
  order : Nat
  status : BitVec 16
  detail : BitVec 32
  pc : BitVec 37
  instr : BitVec 64
  deriving DecidableEq, Repr

/-- An effect that takes place only when its epoch commits and needs no entry (R182, R187, R222): flags of a station,
the capture of an uncorrectable codeword with its IRQ flag. -/
inductive DeferredEffect where
  | qntFlags (n : StationNo) (flags : BitVec 7)
  | accFlags (n : StationNo) (flags : BitVec 2)
  | uce (loc : BitVec 32) (info : BitVec 9)
  | lunLost (luns : BitVec 32)
  deriving DecidableEq, Repr

/-- A deferred effect with its epoch. -/
structure Deferred where
  epoch : BitVec 16
  eff : DeferredEffect
  deriving DecidableEq, Repr

/-- What a context reset captured at its trigger (R278 to R281): time, cause, sample settings, stations that ran a job of
the context with their STN_PC, the parcel table, and whether step 3 or a drain is under way. -/
structure ResetRun where
  time : BitVec 64
  cause : BitVec 3
  addr : BitVec 64
  en : Bool
  sel : BitVec 32
  stations : BitVec 24
  pcs : Vector (BitVec 37) 24
  table : PTable
  sampling : Bool := false
  deriving DecidableEq, Repr

/-- A context (R271 to R291, R183 to R195, R84 to R89). `step` is RST_STAT.STEP, 0 when no reset runs. -/
structure Ctx where
  table : Staged PTable := ⟨Vector.replicate 32 {}, Vector.replicate 32 {}, none⟩
  badEntry : Bool := false
  reset : Option ResetRun := none
  step : Fin 13 := 0
  waiting : Bool := false
  cause : BitVec 3 := 0
  done : Bool := false
  sampleErr : Bool := false
  sampleCut : Bool := false
  revoked : Bool := false
  gen : BitVec 8 := 0
  progress : BitVec 64 := 0
  lastAct : BitVec 64 := 0
  staleDrops : BitVec 64 := 0
  resets : BitVec 64 := 0
  sampleAddr : BitVec 64 := 0
  sampleEn : Bool := false
  sampleSel : BitVec 32 := 0
  revTrv : Bool := false
  revSb : Bool := false
  revLink : Bool := false
  revChannels : BitVec 16 := 0
  rstTime : BitVec 32 := 0
  residue : BitVec 16 := 0
  epochs : List (BitVec 16) := []
  nextEpoch : BitVec 16 := 0
  closed : List (BitVec 16 × Bool) := []
  held : List Held := []
  latched : List Latched := []
  deferred : List Deferred := []
  suppressed : BitVec 64 := 0
  dropped : BitVec 64 := 0
  commits : BitVec 64 := 0
  discards : BitVec 64 := 0
  cbFull : BitVec 64 := 0
  deriving DecidableEq, Repr

/-! ## Stations -/

/-- A memory space of an access: shared memory, or the memory of a station (R84, R86). -/
inductive Space where
  | shm
  | station (n : StationNo)
  deriving DecidableEq, Repr

/-- How a range is used (R92, R93); an accumulate carries its ACCOP. -/
inductive RangeKind where
  | read
  | write
  | acc (op : BitVec 2)
  deriving DecidableEq, Repr

/-- A range of 64-byte granules, first and last included (R92). -/
structure Range where
  space : Space
  first : Nat
  last : Nat
  kind : RangeKind
  deriving DecidableEq, Repr

/-- The memory side of an M transfer, resolved and captured at issue (R104, R135). -/
structure Xfer where
  space : Space
  start : Nat
  length : Nat
  esize : Nat
  stride : Nat
  deriving DecidableEq, Repr

/-- A conversion that has started (R139, R157): array, PPSET and zero point read at its start, and its stamp. -/
structure Conv where
  array : Fin 32
  ppset : BitVec 8
  zp : BitVec 10
  stamp : Nat
  deriving DecidableEq, Repr

/-- An instruction in an engine's queue (R104, R105): its word, the epoch it belongs to (R185), its place in the order
of issue, the g value and the transfer it captured, the range it holds, and for ACONV the arrays still to start and those converting. -/
structure Issued where
  word : BitVec 64
  seq : Nat := 0
  epoch : Option (BitVec 16) := none
  gval : BitVec 64 := 0
  xfer : Option Xfer := none
  range : Option Range := none
  todo : BitVec 32 := 0
  convs : List Conv := []
  deriving DecidableEq, Repr

/-- A kick store that has issued and has not taken effect (R250), with its place in the order of issue. -/
structure KickReq where
  ch : ChanNo
  head : BitVec 64
  seq : Nat := 0
  epoch : Option (BitVec 16) := none
  deriving DecidableEq, Repr

/-- A mark signal that has issued and is not yet visible (R96, R115), with its place in the order of issue. -/
structure Signal where
  mark : Fin 64
  value : BitVec 64
  seq : Nat := 0
  deriving DecidableEq, Repr

/-- A barrier wait (R113): the barrier number, the participants that its mask names, and the instruction word. -/
structure BarWait where
  bar : Fin 4
  mask : BitVec 24
  word : BitVec 64
  deriving DecidableEq, Repr

/-- An active hardware loop (R144): first and last offset of its body and the passes left. -/
structure Loop where
  first : Nat
  last : Nat
  left : BitVec 64
  deriving DecidableEq, Repr

/-- What the next instruction waits for at issue; the clocks of a wait are counted by the counter of each (chapter 4,
Collisions). -/
inductive Stall where
  | reg | overlap | entries | closure | queue
  deriving DecidableEq, Repr

/-- A table or zero-point write held during a conversion (R157). -/
structure HeldWrite where
  array : Fin 32
  entry : Option (Fin 256)
  value : BitVec 32
  deriving DecidableEq, Repr

/-- The volatile part of an array: zero point and post-processing table (R153 to R157). `pptab` lists the entries that
differ from 0x0000_3C00, rising. -/
structure ArrayRegs where
  zp : BitVec 10 := 0
  pptab : List (Nat × BitVec 32) := []
  deriving DecidableEq, Repr

/-- A station (R100 to R123, R77 to R99, R147 to R182). Its spec register is a view of its context's epochs and of the
faults latched by it (R184), worked out where it is read; `ended`: it executed END; `claim`: the queue whose job was
started on it by the dispatcher and not yet by RUN_PROGRAM; `reserved`: R59. -/
structure Station where
  running : Bool := false
  ended : Bool := false
  stopping : Bool := false
  ctx : CtxNo := 0
  queue : QueueNo := 0
  order : Nat := 0
  claim : Option QueueNo := none
  reserved : Option QueueNo := none
  markWait : Option (Fin 64 × BitVec 64) := none
  barWait : Option BarWait := none
  fetchWait : Bool := false
  pc : BitVec 32 := 0
  pcParcel : Fin 32 := 0
  g : Vector (BitVec 64) 32 := Vector.replicate 32 0
  d : Vector (BitVec 128) 8 := Vector.replicate 8 0
  v : Vector (BitVec 2048) 16 := Vector.replicate 16 0
  p : Vector (BitVec 256) 8 := Vector.replicate 8 0
  loops : List Loop := []
  dmuQ : List Issued := []
  vecQ : List Issued := []
  qntQ : List Issued := []
  arrQ : List Issued := []
  issueSeq : Nat := 0
  board : List Range := []
  boardMax : Nat := 0
  kicks : List KickReq := []
  signals : List Signal := []
  stalls : List Stall := []
  mem : Memory := {}
  bufA : Memory := {}
  bufB : Memory := {}
  acc : Memory := {}
  vec : Memory := {}
  qnt : Memory := {}
  arr : Memory := {}
  maa : Memory := {}
  latches : Memory := {}
  faultStatus : BitVec 16 := 0
  faultValid : Bool := false
  faultSecondary : Bool := false
  faultSpec : Bool := false
  faultPc : BitVec 37 := 0
  faultInstr : BitVec 64 := 0
  faultDetail : BitVec 32 := 0
  retired : BitVec 64 := 0
  busy : BitVec 64 := 0
  regWait : BitVec 64 := 0
  queueFull : BitVec 64 := 0
  syncWait : BitVec 64 := 0
  sbWait : BitVec 64 := 0
  sbFull : BitVec 64 := 0
  conflicts : Vector (BitVec 64) 60 := Vector.replicate 60 0
  ports : Vector (Option (BitVec 19)) 5 := Vector.replicate 5 none
  accStat : BitVec 2 := 0
  qntStat : BitVec 7 := 0
  ppset : Vector (BitVec 8) 16 := Vector.replicate 16 0
  arrays : Vector ArrayRegs 32 := Vector.replicate 32 {}
  heldWrites : List HeldWrite := []
  benchBusy : Bool := false
  benchDone : Bool := false
  benchRefused : Bool := false
  benchArray : Fin 32 := 0
  benchRes : BitVec 64 := 0
  deriving DecidableEq, Repr

/-! ## Array programmers -/

/-- An array that waits for a programmer, or has one (R165): the job, the station and array, and where its image is. -/
structure ProgWork where
  order : Nat
  queue : QueueNo
  ctx : CtxNo
  gen : BitVec 8
  station : StationNo
  array : Fin 32
  source : BitVec 40
  failLimit : BitVec 16
  retries : Nat := 0
  programming : Bool := false
  digest : BitVec 256 := 0
  image : List Byte := []
  deriving DecidableEq, Repr

/-! ## Traverse engine -/

/-- State of a channel (TRV_CHn_STAT.STATE). -/
inductive ChanState where
  | idle | armed | running | halted
  deriving DecidableEq, Repr

/-- Who started a chain (R226). -/
inductive Starter where
  | driver
  | copy (q : QueueNo)
  | program (n : StationNo) (q : QueueNo) (order : Nat)
  deriving DecidableEq, Repr

/-- The staged packing format of a channel (R237, R238). -/
structure Fmt where
  pack : Bool := false
  sign : Bool := false
  srcW : BitVec 3 := 0
  dstW : BitVec 3 := 0
  deriving DecidableEq, Repr

/-- A read that a channel has in flight (R225): the address and the number of its wanted bytes, whether it fetches index
values, the response tag of a READ that was sent to a peer, the data of a response that waits for its turn in the stream, and
whether its last attempt failed (R245). -/
structure TrvRead where
  addr : Nat
  len : Nat
  index : Bool := false
  tag : Option (Fin 64) := none
  data : Option (List Byte) := none
  dead : Bool := false
  deriving DecidableEq, Repr

/-- A descriptor that was fetched and checked, or the one that a COPY forms (R226 to R235). `src`, `dst` and `index` are
device addresses, or offsets in the window of the peer chip that `srcPeer` or `dstPeer` names; `srcLive`, `dstLive`: the
binding and the route that the fetch found for it (R266). `rows` counts rows or elements (1 for a linear move) of `rowLen`
source bytes. `rUnit`, `rOff`: the row and the source byte within it to request next; `unit`, `off`: those of the next
destination byte to write. `written`: destination bytes so far. `idxs`: index values from the row being written on; `wrote`: the
destination addresses of the elements that a scatter has begun. `reads`: the reads in flight, oldest first; `got`: the
holding buffer; `out`: the holding register, or the WRITE message being filled, and `beats` its beats granted. `needTick`: it waits
for a tick. `tag`: the response tag of the FLUSH under way. `done`: its writes are applied. -/
structure Active where
  raw : BitVec 256
  kind : Fin 5
  last : Bool
  src : Nat := 0
  dst : Nat := 0
  index : Nat := 0
  srcPeer : Option (Fin 8) := none
  dstPeer : Option (Fin 8) := none
  rows : Nat := 1
  rowLen : Nat := 0
  srcStride : Nat := 0
  dstStride : Nat := 0
  srcLive : Bool := true
  dstLive : Bool := true
  fmt : Fmt := {}
  rUnit : Nat := 0
  rOff : Nat := 0
  unit : Nat := 0
  off : Nat := 0
  written : Nat := 0
  idxs : List (BitVec 32) := []
  wrote : List Nat := []
  reads : List TrvRead := []
  got : List Byte := []
  out : List Byte := []
  beats : Nat := 0
  needTick : Bool := false
  tag : Option (Fin 64) := none
  flushing : Bool := false
  done : Bool := false
  deriving DecidableEq, Repr

/-- A kick that is pending on a channel (R250, R251): its captured head descriptor with the format it was fetched under (R238), its
epoch, and whether it is held until that epoch commits. `arrival` orders it against COPY jobs that wait for the channel. -/
structure PendKick where
  station : StationNo
  queue : QueueNo
  order : Nat
  head : BitVec 64
  desc : Option (BitVec 256) := none
  fmt : Fmt := {}
  epoch : Option (BitVec 16) := none
  held : Bool := false
  arrival : Nat := 0
  deriving DecidableEq, Repr

/-- A traverse channel (chapter 11). `crc` is the running value before the final XOR; `wantFetch`: the next step of the
chain is a descriptor fetch at `descAddr`; `classify`: the fetch under way classifies a speculative kick (R251);
`fetchBeats`, `classBeats`: the beats granted to each fetch (R244). `retries`, `wrRetries`, `classRetries`: failed attempts of the
read side, of the write side and of the classification. `how`: the TRIG under which the chain was started (R227). `forgotten`: revoked
requests whose replies may still come (R285). `startHeld`: the head of a driver's START that a forced Hold keeps from beginning
(R297). -/
structure Chan where
  pause : Bool := false
  trig : BitVec 2 := 0
  tsel : Fin 4 := 0
  tch : Fin 16 := 0
  prio : BitVec 2 := 0
  crcSel : BitVec 2 := 0
  rearm : Bool := false
  fmt : Staged Fmt := ⟨{}, {}, none⟩
  ownCtx : CtxNo := 0
  ownValid : Bool := false
  gen : BitVec 8 := 0
  head : BitVec 64 := 0
  kickOffset : BitVec 16 := 0
  kickStation : BitVec 5 := 0
  kickEn : Bool := false
  state : ChanState := .idle
  paused : Bool := false
  spec : Option (BitVec 16) := none
  pendCount : BitVec 4 := 0
  lastStatus : BitVec 16 := 0
  overrun : Bool := false
  ownerBusy : Bool := false
  cancelled : Bool := false
  cancelRefused : Bool := false
  src : BitVec 40 := 0
  dst : BitVec 40 := 0
  posBytes : BitVec 32 := 0
  posUnits : BitVec 16 := 0
  descAddr : BitVec 40 := 0
  descCount : BitVec 21 := 0
  crc : BitVec 32 := 0
  crcActive : BitVec 2 := 0
  errAddr : BitVec 48 := 0
  errDetail : BitVec 32 := 0
  bytes : BitVec 64 := 0
  starter : Starter := .driver
  wantFetch : Bool := false
  classify : Option PendKick := none
  cur : Option Active := none
  pendKick : Option PendKick := none
  copyWaits : List (QueueNo × Nat) := []
  retries : Nat := 0
  wrRetries : Nat := 0
  classRetries : Nat := 0
  fetchBeats : Nat := 0
  classBeats : Nat := 0
  how : BitVec 2 := 0
  forgotten : Nat := 0
  cancelling : Bool := false
  startHeld : Option (BitVec 64) := none
  deriving DecidableEq, Repr

/-- One side of the traverse engine (R244): the channel granted last, and the consecutive beats it was granted. -/
structure Side where
  last : Option ChanNo := none
  run : Nat := 0
  deriving DecidableEq, Repr

/-- A tick generator (R252); `ticked`: the TCK_TIME of its last tick. -/
structure TickGen where
  period : Staged (BitVec 32) := ⟨1000000, 1000000, none⟩
  phase : Staged (BitVec 32) := ⟨0, 0, none⟩
  en : Bool := false
  ticked : Option (BitVec 64) := none
  deriving DecidableEq, Repr

/-! ## NAND controller -/

/-- The class of a LUN operation (R213, R215). -/
inductive NandKind where
  | read | program | erase | setFeatures | getFeatures | readParam | reset
  deriving DecidableEq, Repr

/-- Whose operation it is: a job, a channel's descriptor, or the controller's own (the RESET of R215). -/
inductive NandOwner where
  | job (q : QueueNo) (order : Nat)
  | chan (ch : ChanNo)
  | ctrl
  deriving DecidableEq, Repr

/-- The outcome kept for an owner: status, DETAIL and the lowest failing stream position (R213). -/
structure NandFail where
  pos : Nat
  status : BitVec 16
  detail : BitVec 32
  deriving DecidableEq, Repr

/-- One entry of a LUN queue (R210): the number of its stream, position in it, page, codewords, memory address, feature
operands; `mp`: its stream asks for multi-plane operations; `arrived`: its place in the order of arrival at the controller
(R212); `overtaken` counts the reads in a row that overtook a program or erase (R211). -/
structure NandOp where
  kind : NandKind
  owner : NandOwner
  ctx : CtxNo
  gen : BitVec 8
  spec : Option (BitVec 16) := none
  pos : Nat := 0
  block : Nat := 0
  page : Nat := 0
  profile : Fin 16 := 0
  cwFirst : Nat := 0
  cwLast : Nat := 0
  raw : Bool := false
  mem : BitVec 40 := 0
  faddr : BitVec 8 := 0
  params : BitVec 32 := 0
  seq : Nat := 0
  mp : Bool := false
  arrived : Nat := 0
  overtaken : Nat := 0
  deriving DecidableEq, Repr

/-- Where the ladder of a page read stands (R208): the page is read, a threshold set is sent before the next read of the page, the
default set is sent back, or the default set is back. -/
inductive ReadPhase where
  | page | setting | restoring | restored
  deriving DecidableEq, Repr

/-- The operation in flight on a LUN (R208, R212 to R215): the operation of the other plane where the two make one multi-plane
command; whether the die is ready and showed FAIL; the ladder step of the read in progress (0 default, then soft sets, then retry
sets) and where it stands; whether the transfer of this read of the page has begun; the codewords decoded, those tried in this step,
whether any stayed uncorrectable; whether the operation passed its bound and its results are ignored (R219); and whether a RESET of
its target cut it, so that it waits to be issued again (R216). -/
structure InFlight where
  op : NandOp
  pair : Option NandOp := none
  ready : Bool := false
  fail : Bool := false
  ladder : Nat := 0
  phase : ReadPhase := .page
  moved : Bool := false
  decoded : BitVec 5 := 0
  tried : BitVec 5 := 0
  uncorr : Option (Fin 5) := none
  ignored : Bool := false
  again : Bool := false
  deriving DecidableEq, Repr

/-- A LUN: its block count (R198), its queue of 8 (R210), the operation in flight, whether a RESET of its target is due at once
(R215) and for which speculative read (R187), whether the RESET of a context reset waits for an entry of the queue (R210, R219), and
whether its target needs its mode set up again (R216). -/
structure Lun where
  blocks : BitVec 16 := 0
  queue : List NandOp := []
  cur : Option InFlight := none
  resetPend : Bool := false
  resetFor : Option (CtxNo × BitVec 16) := none
  resetWait : Bool := false
  setup : Bool := false
  deriving DecidableEq, Repr

/-- What a channel bus carries in a command sequence (R197): a command, two column cycles, three row cycles, a byte, or a number of
data bytes. -/
inductive BusCycle where
  | command (c : Byte)
  | column (c : Nat)
  | row (r : Nat)
  | byte (b : Byte)
  | data (n : Nat)
  deriving DecidableEq, Repr

/-- A stream of positions that are not all queued yet (R201, R210); `seq` is its number, which its operations carry. -/
structure NandStream where
  seq : Nat
  kind : NandKind
  owner : NandOwner
  ctx : CtxNo
  gen : BitVec 8
  spec : Option (BitVec 16)
  raw : Bool
  mp : Bool
  profile : Fin 16
  u0 : Nat
  s : Nat
  block0 : Nat
  page0 : Nat
  count : Nat
  cwFirst : Nat
  cwLast : Nat
  mem : BitVec 40
  next : Nat := 0
  faddr : BitVec 8 := 0
  params : BitVec 32 := 0
  live : Nat := 0
  worst : Option NandFail := none
  deriving DecidableEq, Repr

/-- The staged set of the NFC_ block, raw as written (chapter 10, Registers). -/
structure NfcCfg where
  tim0 : BitVec 32 := 0xC8A03050
  tim1 : BitVec 32 := 0x001C5010
  to0 : BitVec 32 := 0x03E800C8
  to1 : BitVec 32 := 0x61A81388
  resetWait : BitVec 16 := 4000
  ladder : BitVec 32 := 0x00100000
  retryDef : BitVec 64 := 0
  soft : Vector (BitVec 64) 3 := Vector.replicate 3 0
  retry : Vector (BitVec 64) 16 := Vector.replicate 16 0
  prof : Vector (BitVec 64) 16 := (Vector.replicate 16 0x1000).set 0 0x102F
  deriving DecidableEq, Repr

/-- The NAND controller (chapter 10). The WP_N balls are a view of the LUNs (R218, State.wpHigh). `rt0`, `rt1`: what start-up read of the region tables
(R221), `rtChosen` the copy that was chosen. `sent`: the command sequence that each channel bus carried last, and for which LUN
(R197); `arrivals` numbers the operations in their order of arrival (R212). -/
structure Nfc where
  ready : Bool := false
  rtBad : Bool := false
  present : BitVec 32 := 0
  chMode : BitVec 8 := 0
  main : BitVec 2 := 0
  planes : Bool := false
  spare : BitVec 12 := 0
  pageBits : BitVec 4 := 0
  ppb : BitVec 16 := 0
  blocks : BitVec 16 := 0
  bootWrite : Bool := false
  cfg : Staged NfcCfg := ⟨{}, {}, none⟩
  counts : Vector (BitVec 64) 7 := Vector.replicate 7 0
  hist : Vector (BitVec 64) 16 := Vector.replicate 16 0
  histWidth : BitVec 6 := 16
  uceLoc : BitVec 32 := 0
  uceInfo : BitVec 9 := 0
  irqStat : BitVec 3 := 0
  irqEn : BitVec 3 := 0
  luns : Vector Lun 32 := Vector.replicate 32 {}
  streams : List NandStream := []
  seq : Nat := 0
  arrivals : Nat := 0
  sent : Vector (Option (Fin 32 × List BusCycle)) 4 := Vector.replicate 4 none
  rt0 : Option (List Byte) := none
  rt1 : Option (List Byte) := none
  rtChosen : Bool := false
  deriving DecidableEq, Repr

/-! ## Orokai Link -/

/-- A flit that was sent and that no ACK covers yet (R257): its SEQ and its 64 bytes. -/
structure SentFlit where
  seq : BitVec 8
  bytes : BitVec 512
  deriving DecidableEq, Repr

/-- A flit that waits to be sent on a virtual channel (R255, R259): whether it begins a message, and its body. -/
structure OutFlit where
  som : Bool
  body : BitVec 448
  deriving DecidableEq, Repr

/-- A message that leaves a port on a virtual channel: its flits that are here, the flits still to come of one that another port
forwards flit by flit, that port (R260), and the job of a message that this chip made. -/
structure OutMsg where
  flits : List OutFlit
  left : Nat := 0
  origin : Option (Fin 2) := none
  job : Option (BitVec 12) := none
  deriving DecidableEq, Repr

/-- What becomes of a message that a port receives: consumed here, forwarded, or dropped (R256, R260). -/
inductive RxWay where
  | here
  | forward (p : Fin 2)
  | drop
  deriving DecidableEq, Repr

/-- A message received in part (R256, R259, R262): its bytes, where it is consumed here; the flits still to come; its way, found
at its first flit; the slots that it holds. -/
structure RxMsg where
  bytes : List Byte := []
  left : Nat := 0
  way : RxWay := .here
  held : Nat := 0
  deriving DecidableEq, Repr

/-- A link port (R254 to R260). `state`: 0 down, 1 training, 2 up. `outCtl`, `outRsp`, `outReq`: messages waiting, per virtual
channel. `replay`: flits sent and not covered. `credCtl` and so on: credits held; `retCtl` and so on: credits to return. `rxCtl`
and so on: the message received in part. `wire`: the flits that the port has sent since it last started, oldest first (the
model's own field); an idle flit is listed where it carries an ACK, a NAK or credits. -/
structure Port where
  enable : Bool := false
  state : BitVec 2 := 0
  width : BitVec 2 := 0
  idConflict : Bool := false
  trained : Bool := false
  neighbour : Fin 8 := 0
  cause : BitVec 3 := 0
  cntCrc : BitVec 64 := 0
  cntReplay : BitVec 64 := 0
  cntBad : BitVec 64 := 0
  flitsTx : BitVec 64 := 0
  flitsRx : BitVec 64 := 0
  txSeq : BitVec 8 := 0
  rxSeq : BitVec 8 := 0
  naks : Nat := 0
  nakSent : Bool := false
  ackDue : Nat := 0
  ackSent : BitVec 8 := 255
  replay : List SentFlit := []
  outCtl : List OutMsg := []
  outRsp : List OutMsg := []
  outReq : List OutMsg := []
  credCtl : Nat := 8
  credReq : Nat := 64
  credRsp : Nat := 64
  rxCtl : Option RxMsg := none
  rxReq : Option RxMsg := none
  rxRsp : Option RxMsg := none
  retCtl : Nat := 0
  retReq : Nat := 0
  retRsp : Nat := 0
  wire : List (BitVec 512) := []
  deriving DecidableEq, Repr

/-- A context's link binding and window (R263). -/
structure Binding where
  job : BitVec 12 := 0
  valid : Bool := false
  base : BitVec 28 := 0
  bound : BitVec 29 := 0
  rights : BitVec 2 := 0
  deriving DecidableEq, Repr

/-- A binding register set of a context with its status bits (R263). -/
structure BindRegs where
  set : Staged Binding := ⟨{}, {}, none⟩
  badBind : Bool := false
  bindConflict : Bool := false
  deriving DecidableEq, Repr

/-- What a reserved response tag waits for (R266, R267): the channel, the context, its generation, whether it is a FLUSH. -/
structure TagUse where
  ch : ChanNo
  ctx : CtxNo
  gen : BitVec 8
  isFlush : Bool
  deriving DecidableEq, Repr

/-- The link block (chapter 12). `refusedNotes`: refused writes noted per source chip and channel for the next FLUSH, with
the first refused offset (R265). `seen`: the last ORIGIN and ASEQ pair accepted (R269). `lost`: revoked response tags with their
context and generation (R285, R286). -/
structure Link where
  route : Staged (BitVec 16) := ⟨0, 0, none⟩
  irqStat : BitVec 5 := 0
  irqEn : BitVec 5 := 0
  abortLog : BitVec 25 := 0
  cntRefused : BitVec 64 := 0
  ports : Vector Port 2 := Vector.replicate 2 {}
  binds : Vector BindRegs 8 := Vector.replicate 8 {}
  tags : Vector (Option TagUse) 64 := Vector.replicate 64 none
  refusedNotes : List (Fin 8 × Fin 16 × BitVec 28) := []
  aseq : BitVec 8 := 0
  seen : List (Fin 8 × BitVec 8) := []
  lost : List (Fin 64 × CtxNo × BitVec 8) := []
  deriving DecidableEq, Repr

/-! ## Serial ports, management, identity, supply -/

/-- The staged configuration of a UART (chapter 15, Registers). `lin` holds SER1_LIN_CTRL and is unused on UART 0. -/
structure SerCfg where
  dbits : BitVec 2 := 3
  parity : BitVec 2 := 0
  stop2 : Bool := false
  rxen : Bool := false
  txen : Bool := false
  divisor : BitVec 24 := 13889
  linEn : Bool := false
  linRole : Bool := false
  linAdapt : Bool := true
  linBreak : BitVec 4 := 0
  linDelim : BitVec 2 := 0
  deriving DecidableEq, Repr

/-- A UART (R317 to R327). `txShift`: the bits of the character that is being sent, in the order of the line; `flags` and `marks` are FE 0, PE 1, OE 2, NOISE 3, BRK 4 (R324). -/
structure Uart where
  cfg : Staged SerCfg := ⟨{}, {}, none⟩
  rxHold : BitVec 8 := 0
  rxFull : Bool := false
  txHold : Option (BitVec 8) := none
  txShift : Option (List Bool) := none
  flags : BitVec 5 := 0
  marks : BitVec 5 := 0
  txLost : Bool := false
  lpLost : Bool := false
  deriving DecidableEq, Repr

/-- LIN frame mode of SER1 (R327 to R334). `id`, `pidByte`, `sending`: identifier and published bytes captured at the PID; `out`: the
bits that SER1 sends for the frame, in the order of the line; `clocks`: peripheral clocks since a commander's break began. -/
structure Lin where
  state : BitVec 4 := 0
  lastId : BitVec 6 := 0
  result : BitVec 4 := 0
  done : Bool := false
  err : Bool := false
  wakeSeen : Bool := false
  hdrLost : Bool := false
  noise : Bool := false
  meas : BitVec 24 := 0
  cntOk : BitVec 64 := 0
  cntErr : BitVec 64 := 0
  tab : Vector (BitVec 7) 64 := Vector.replicate 64 8
  buf : Vector (BitVec 64) 64 := Vector.replicate 64 0
  id : BitVec 6 := 0
  pidByte : BitVec 8 := 0
  sending : BitVec 64 := 0
  out : List Bool := []
  clocks : Nat := 0
  wakeUs : BitVec 13 := 0
  deriving DecidableEq, Repr

/-- What the signature engine serves (R352): an ATTEST job or a verify request with the key captured at GO. -/
inductive SigWork where
  | attest (q : QueueNo) (order : Nat)
  | verify (req : BitVec 40) (key : BitVec 512) (loaded : Bool)
  deriving DecidableEq, Repr

/-- The identity block (R341 to R352). `burnHash`: what the burn under way writes into PMK_HASH (R346). -/
structure Idk where
  keyLoaded : Bool := false
  rtStat : BitVec 3 := 0
  burnBusy : Bool := false
  burnHash : BitVec 256 := 0
  vfyBusy : Bool := false
  burnRefused : Bool := false
  keyBad : Bool := false
  vfyRefused : Bool := false
  pmkKey : Staged (BitVec 512) := ⟨0, 0, none⟩
  vfyReq : BitVec 64 := 0
  fwHash : BitVec 256 := 0
  fwVersion : BitVec 64 := 0
  rtHash : BitVec 256 := 0
  sigQueue : List SigWork := []
  sigBusy : Option SigWork := none
  deriving DecidableEq, Repr

/-- Supply telemetry (R311, R312). -/
structure Supply where
  en : Bool := false
  sense : BitVec 16 := 0
  charge : BitVec 64 := 0
  emptyLevel : BitVec 64 := 0
  vsys : BitVec 13 := 3700
  chargeEmpty : Bool := false
  adcSat : Bool := false
  irqEn : Bool := false
  capCharge : BitVec 64 := 0
  capVsys : BitVec 13 := 0
  capTime : BitVec 64 := 0
  deriving DecidableEq, Repr

/-- The main-domain part of the PWR_ block (R28 to R33, R292 to R316). `notice`: the 1 ms Dormant notice runs. -/
structure Power where
  state : PState := .run
  d3hot : Bool := false
  idleTrim : BitVec 16 := 2
  idleHold : BitVec 16 := 5
  idleDormant : BitVec 16 := 0
  force : Bool := false
  drainWait : BitVec 16 := 200
  evt : BitVec 5 := 0
  evtEn : BitVec 5 := 0
  supEn : Bool := false
  notice : Bool := false
  div : BitVec 2 := 3
  effDiv : BitVec 2 := 3
  switching : Bool := false
  refused : Bool := false
  dipForce : Bool := false
  vcoreForce : Bool := false
  vcoreMv : BitVec 8 := 160
  wakeCause : Bool := false
  deriving DecidableEq, Repr

/-- The main-domain part of the GLB_ block (chapter 2). -/
structure Glb where
  ready : Bool := false
  booting : Bool := true
  bootFailed : Bool := false
  outOfService : Bool := false
  earlyDoorbell : Bool := false
  hostwinBusy : Bool := false
  bootStage : BitVec 4 := 0
  bootErr : BitVec 8 := 0
  bootLog : BitVec 20 := 0
  bootAddr : BitVec 64 := 0
  bootLen : BitVec 32 := 0
  hostwin : BitVec 64 := 0
  deriving DecidableEq, Repr

/-- Escalation (R288, R291). `history`: times of the last 15 counting triggers, newest first. -/
structure Esc where
  limit : Staged (BitVec 4) := ⟨4, 4, none⟩
  window : Staged (BitVec 10) := ⟨10, 10, none⟩
  count : BitVec 4 := 0
  lastCtx : CtxNo := 0
  time : BitVec 64 := 0
  history : List (BitVec 64) := []
  deriving DecidableEq, Repr

/-- Shared memory and its registers (R81 to R83). `waits`: the address at which each requester waits for its bank; `granted`: the
requester that each bank granted last (R82). -/
structure Shm where
  split : Bool := false
  modeBusy : Bool := false
  conflicts : Vector (BitVec 64) 64 := Vector.replicate 64 0
  waits : Vector (Option (BitVec 28)) 29 := Vector.replicate 29 none
  granted : Vector (Fin 29) 64 := Vector.replicate 64 28
  mem : Memory := {}
  deriving DecidableEq, Repr

/-- The main domain: everything that a device reset returns to its reset value (R35). `snaps`: the high-word snapshots of
the PCI Express port by BAR0 offset (R14); `fbLatches`: the latches of field-book entries by BAR0 offset (R14, R358). -/
structure Main where
  glb : Glb := {}
  pwr : Power := {}
  time : BitVec 64 := 0
  snaps : List (Nat × BitVec 32) := []
  fbLatches : List (Nat × BitVec 64) := []
  pcie : Pcie := {}
  msix : Msix := {}
  queues : Vector Queue 16 := Vector.replicate 16 {}
  lastWin : QueueNo := 15
  jobOrder : Nat := 0
  marks : Vector (BitVec 64) 64 := Vector.replicate 64 0
  ctxs : Vector Ctx 8 := Vector.replicate 8 {}
  resetOrder : List CtxNo := []
  esc : Esc := {}
  shm : Shm := {}
  stations : Vector Station 24 := Vector.replicate 24 {}
  progWait : List ProgWork := []
  progs : Vector (Option ProgWork) 4 := Vector.replicate 4 none
  chans : Vector Chan 16 := Vector.replicate 16 {}
  rdSide : Side := {}
  wrSide : Side := {}
  trvRetry : BitVec 3 := 3
  chainLimit : BitVec 21 := 4096
  trvIrqMask : BitVec 16 := 0
  laErrAddr : BitVec 40 := 0
  gens : Vector TickGen 4 := Vector.replicate 4 {}
  nfc : Nfc := {}
  link : Link := {}
  uarts : Vector Uart 2 := Vector.replicate 2 {}
  lin : Lin := {}
  idk : Idk := {}
  fbkDrv : Staged (BitVec 64) := ⟨0, 0, none⟩
  sup : Supply := {}
  deriving DecidableEq, Repr

/-- A station whose memory, operand buffers and latches hold undefined data, each under a stamp of its own (R19, R77). -/
def Station.fresh (stamp : Nat) : Station :=
  { mem := { stamp := stamp }, bufA := { stamp := stamp + 1 }, bufB := { stamp := stamp + 2 },
    acc := { stamp := stamp + 3 }, vec := { stamp := stamp + 4 }, qnt := { stamp := stamp + 5 },
    arr := { stamp := stamp + 6 }, maa := { stamp := stamp + 7 }, latches := { stamp := stamp + 8 } }

/-- How many stamps Main.fresh uses. -/
def Main.stamps : Nat := 1 + 24 * 9

/-- The main domain right after a device reset (R35): every register at its reset value, every memory undefined. SHM_MODE
resets to split on a part that lacks a bank group (R83), and CPP of profile 0 waits for discovery (R220). -/
def Main.fresh (stamp : Nat) (groups : BitVec 3) : Main :=
  { shm := { split := groups != 7, mem := { stamp := stamp } },
    stations := Vector.ofFn fun n => Station.fresh (stamp + 1 + n.val * 9) }

/-! ## The machine -/

/-- Why a step of the model could stop. No command of the block raises a fault: what goes wrong on the device is a status,
a flag or a record in State. The one name is kept for a state that the model could not continue from; no meaning uses
it. -/
inductive Fault where
  /-- Raised by no command. Safe: a stop proves nothing false of the device. -/
  | unreachable
  deriving DecidableEq, Repr

/-- Why a command has no meaning in the model. -/
inductive Refusal where
  /-- Raised by an arm of exec that has no meaning yet, by name. Safe: the model stops. -/
  | notModelled (mnemonic : String)
  deriving DecidableEq, Repr

/-- The state of the GL24. `pending` is the queue of commands, first in first out. `nand` holds the flash bytes of every
die, inverted, so that an erased byte is zero; `slots` the 4 KiB field-book slots, short ones ending in zeros (R356). `hostMem` holds what the device has written to host memory. `phase`,
`perstLow` and `dftHigh` say what keeps the main domain from serving. `flrWait`: an FLR waits for NAND writes (R36).
`stamp` numbers the occasions on which contents became undefined. `readData` and `mgtData` are what the last read
through each port returned, `readUr` whether the last LOW_WORD_READ or REGISTER_WRITE completed with Unsupported Request (the model's own
fields). -/
structure State where
  pending : List Instr := []
  otp : Otp := {}
  nv : Vector (Vector ArrayNv 32) 24 := Vector.replicate 24 (Vector.replicate 32 {})
  slots : Vector (List Byte) 16 := Vector.replicate 16 []
  nand : Memory := { stamp := 1 }
  hostMem : Memory := { stamp := 2 }
  aon : Aon := {}
  phase : Phase := .strapWait
  perstLow : Bool := false
  dftHigh : Bool := false
  flrWait : Option BootInputs := none
  stamp : Nat := 4 + Main.stamps
  readData : List Byte := []
  readUr : Bool := false
  mgtData : List Byte := []
  main : Main := Main.fresh 4 7
  deriving DecidableEq, Repr

/-- The machine right after a cold reset (R34, R35): the AON domain has left COLD, the straps are not latched yet, and
every register of the main domain holds its reset value. -/
def State.reset : State := {}

end Sys2Proof.Machine
end

