-- ==== Sys2Proof/Machine/Bits.lean ====
section
/-!
DEFINITION. Bit fields, byte order and small list and vector helpers that the meanings share. Every multi-byte field is
little-endian (R3).
-/

namespace Sys2Proof.Machine

/-- Field [hi:lo] of a word, as a number. -/
def field {w : Nat} (x : BitVec w) (hi lo : Nat) : Nat := (x.extractLsb hi lo).toNat

/-- Bit i of a word. -/
def bit {w : Nat} (x : BitVec w) (i : Nat) : Bool := x.getLsbD i

/-- Bit i of a word set or cleared. -/
def setBit {w : Nat} (x : BitVec w) (i : Nat) (b : Bool) : BitVec w :=
  if b then x ||| BitVec.twoPow w i else x &&& ~~~(BitVec.twoPow w i)

/-- A Bool as bit i of a word. -/
def flag (w i : Nat) (b : Bool) : BitVec w := if b then BitVec.twoPow w i else 0

/-- A number placed at bit lo of a word. -/
def at' (w lo n : Nat) : BitVec w := BitVec.ofNat w (n * 2 ^ lo)

/-- Byte i of a word, byte 0 lowest (R3). -/
def byteOf {w : Nat} (x : BitVec w) (i : Nat) : Byte := x.extractLsb' (8 * i) 8

/-- The n lowest bytes of a word, lowest first (R3). -/
def toBytes {w : Nat} (x : BitVec w) (n : Nat) : List Byte := (List.range n).map (byteOf x)

/-- The number that bytes spell, lowest first (R3). -/
def fromBytes : List Byte → Nat
  | [] => 0
  | b :: bs => b.toNat + 256 * fromBytes bs

/-- A word from bytes, lowest first (R3). -/
def word (w : Nat) (bs : List Byte) : BitVec w := BitVec.ofNat w (fromBytes bs)

/-- Bytes lo to lo + n - 1 of a list, as a number (R3). -/
def leAt (bs : List Byte) (lo n : Nat) : Nat := fromBytes ((bs.drop lo).take n)

/-- n bytes of zero. -/
def zeros (n : Nat) : List Byte := List.replicate n 0

/-- A list cut or padded with zeros to n bytes. -/
def padTo (n : Nat) (bs : List Byte) : List Byte := bs.take n ++ zeros (n - bs.length)

/-- An entry of a vector changed by a function. -/
def upd {α : Type} {n : Nat} (v : Vector α n) (i : Fin n) (f : α → α) : Vector α n := v.set i (f v[i])

/-- A value noted under a key in a list that rises by key. -/
def noteAt {α : Type} (l : List (Nat × α)) (k : Nat) (v : α) : List (Nat × α) :=
  (l.filter fun p => p.1 < k) ++ [(k, v)] ++ l.filter fun p => k < p.1

/-- The value noted under a key. -/
def notedAt {α : Type} (l : List (Nat × α)) (k : Nat) : Option α := (l.find? fun p => p.1 == k).map Prod.snd

/-- Bytes lo to lo + n - 1 of a function of offsets. -/
def bytesOf (f : Nat → Byte) (lo n : Nat) : List Byte := (List.range n).map fun i => f (lo + i)

/-- The number of bits set. -/
def popCount {w : Nat} (x : BitVec w) : Nat := (List.range w).countP (fun i => x.getLsbD i)

/-- The indices of the set bits, ascending. -/
def setBits {w : Nat} (n : Nat) (x : BitVec w) : List (Fin n) := (List.finRange n).filter (fun i => x.getLsbD i.val)

/-- The lower of two numbers that may be absent. -/
def minOpt : List Nat → Option Nat
  | [] => none
  | a :: t => some (t.foldl min a)

/-- A saturating 32-bit count (R66). -/
def sat32 (n : Nat) : BitVec 32 := if n < 0x100000000 then BitVec.ofNat 32 n else 0xFFFFFFFF

/-- A 64-bit write of a register, whole or by halves (R7). -/
def applyW64 (old : BitVec 64) : W64 → BitVec 64
  | .both v => v
  | .low v => (old.extractLsb' 32 32) ++ v
  | .high v => v ++ (old.extractLsb' 0 32)

end Sys2Proof.Machine
end

