-- ==== Sys2Proof/Machine/Float.lean ====
section
/-!
DEFINITION. Floating-point values, the encodings of R170, and the arithmetic on them. Every operation is exact on values
and rounds once, to nearest with ties to even, where its rule says so.
-/

namespace Sys2Proof.Machine

/-- A value of a floating-point format: NaN, an infinity, or (-1)^s * m * 2^e. Zero has m = 0 and keeps its sign. -/
inductive Fl where
  | nan
  | inf (s : Bool)
  | fin (s : Bool) (m : Nat) (e : Int)
  deriving DecidableEq, Repr

/-- A floating-point encoding (R170): width, mantissa bits, the exponent of the lowest subnormal bit, the magnitude of
the largest finite value, the magnitude of Inf where the format has one, the first magnitude that is NaN, and the
canonical NaN. -/
structure FpFmt where
  width : Nat
  mb : Nat
  qmin : Int
  top : Nat
  inf : Option Nat
  nanFrom : Nat
  nan : Nat
  deriving DecidableEq, Repr

/-- IEEE 754 binary32 (R170). -/
def fp32 : FpFmt := ⟨32, 23, -149, 0x7F7FFFFF, some 0x7F800000, 0x7F800001, 0x7FC00000⟩
/-- IEEE 754 binary16 (R170). -/
def fp16 : FpFmt := ⟨16, 10, -24, 0x7BFF, some 0x7C00, 0x7C01, 0x7E00⟩
/-- The upper 16 bits of binary32 (R170). -/
def bf16 : FpFmt := ⟨16, 7, -133, 0x7F7F, some 0x7F80, 0x7F81, 0x7FC0⟩
/-- FP8 E4M3: no Inf, one NaN magnitude (R170). -/
def e4m3 : FpFmt := ⟨8, 3, -9, 0x7E, none, 0x7F, 0x7F⟩
/-- FP8 E5M2 (R170). -/
def e5m2 : FpFmt := ⟨8, 2, -16, 0x7B, some 0x7C, 0x7D, 0x7E⟩
/-- E2M1: neither Inf nor NaN (R170); a NaN input is coded as zero (R177). -/
def e2m1 : FpFmt := ⟨4, 1, -1, 0x7, none, 8, 0⟩

/-- The value that an encoding has. -/
def FpFmt.decode (f : FpFmt) (x : Nat) : Fl :=
  let s := x.testBit (f.width - 1)
  let mag := x % 2 ^ (f.width - 1)
  if f.inf = some mag then .inf s
  else if f.nanFrom ≤ mag then .nan
  else if mag / 2 ^ f.mb = 0 then .fin s mag f.qmin
  else .fin s (mag % 2 ^ f.mb + 2 ^ f.mb) (f.qmin + (mag / 2 ^ f.mb : Nat) - 1)

/-- n / d to the nearest integer, ties to even. -/
def rneDiv (n d : Nat) : Nat :=
  let q := n / d
  let r := 2 * (n % d)
  if r < d then q else if d < r then q + 1 else if q % 2 = 0 then q else q + 1

/-- n * 2^e / d to the nearest integer, ties to even. -/
def rneScaled (n d : Nat) (e : Int) : Nat := if 0 ≤ e then rneDiv (n * 2 ^ e.toNat) d else rneDiv n (d * 2 ^ (-e).toNat)

/-- The floor of log2 (n / d), for n and d above zero. -/
def floorLog2 (n d : Nat) : Int :=
  let k : Int := (Nat.log2 n : Int) - Nat.log2 d
  if 0 ≤ k then (if d * 2 ^ k.toNat ≤ n then k else k - 1)
  else if d ≤ n * 2 ^ (-k).toNat then k else k - 1

/-- The magnitude bits of n / d * 2^e rounded to nearest even on the format's grid, continued above its largest finite
value as if the exponent had no limit (R177). -/
def FpFmt.roundMag (f : FpFmt) (n d : Nat) (e : Int) : Nat :=
  if n = 0 then 0
  else
    let q := max f.qmin (floorLog2 n d + e - f.mb)
    (q - f.qmin).toNat * 2 ^ f.mb + rneScaled n d (e - q)

/-- A sign and a magnitude as an encoding. -/
def FpFmt.join (f : FpFmt) (s : Bool) (mag : Nat) : Nat := (if s then 2 ^ (f.width - 1) else 0) + mag

/-- The encoding of a value rounded to nearest even; overflow gives Inf as IEEE 754 defines (for formats that have it). -/
def FpFmt.encode (f : FpFmt) : Fl → Nat
  | .nan => f.nan
  | .inf s => f.join s (f.inf.getD f.top)
  | .fin s m e =>
    let g := f.roundMag m 1 e
    f.join s (if f.top < g then f.inf.getD f.top else g)

/-- The encoding of a value rounded to nearest even, where a finite value beyond the largest finite value becomes that
value (R181, R174), and whether it did. -/
def FpFmt.encodeSat (f : FpFmt) : Fl → Nat × Bool
  | .fin s m e =>
    let g := f.roundMag m 1 e
    if f.top < g then (f.join s f.top, true) else (f.join s g, false)
  | x => (f.encode x, false)

/-- Whether a finite value lies beyond a format's largest finite value (R181). -/
def FpFmt.beyond (f : FpFmt) (x : Fl) : Bool :=
  match x, f.decode f.top with
  | .fin _ m e, .fin _ n k => n * 2 ^ (k - min e k).toNat < m * 2 ^ (e - min e k).toNat
  | _, _ => false

/-- A value as a signed multiple of 2^e, for an e at or below its exponent. -/
def Fl.scaled (s : Bool) (m : Nat) (ex e : Int) : Int :=
  let v : Int := (m * 2 ^ (ex - e).toNat : Nat)
  if s then -v else v

/-- The exact sum. Opposite infinities give NaN; a zero sum is +0 unless both terms are negative zeros or zero results. -/
def Fl.add : Fl → Fl → Fl
  | .nan, _ => .nan
  | _, .nan => .nan
  | .inf a, .inf b => if a = b then .inf a else .nan
  | .inf a, .fin .. => .inf a
  | .fin .., .inf b => .inf b
  | .fin s m e, .fin t n f =>
    let g := min e f
    let v := Fl.scaled s m e g + Fl.scaled t n f g
    if v = 0 then .fin (s && t) 0 0 else .fin (decide (v < 0)) v.natAbs g

/-- The value with the other sign. -/
def Fl.neg : Fl → Fl
  | .nan => .nan
  | .inf s => .inf (!s)
  | .fin s m e => .fin (!s) m e

/-- The exact product. Inf times zero gives NaN. -/
def Fl.mul : Fl → Fl → Fl
  | .nan, _ => .nan
  | _, .nan => .nan
  | .inf a, .inf b => .inf (a != b)
  | .inf a, .fin t n _ => if n = 0 then .nan else .inf (a != t)
  | .fin s m _, .inf b => if m = 0 then .nan else .inf (s != b)
  | .fin s m e, .fin t n f => .fin (s != t) (m * n) (e + f)

/-- The magnitude order: whether a value is below another, with +0 greater than -0 (R132, R97, R156). Neither is NaN. -/
def Fl.below : Fl → Fl → Bool
  | .inf a, .inf b => a && !b
  | .inf a, .fin .. => a
  | .fin .., .inf b => !b
  | .fin s m e, .fin t n f =>
    let g := min e f
    let v := Fl.scaled s m e g - Fl.scaled t n f g
    if v = 0 then s && !t else decide (v < 0)
  | _, _ => false

/-- The greater of two values; a NaN gives NaN. -/
def Fl.max (a b : Fl) : Fl := if a = .nan ∨ b = .nan then .nan else if a.below b then b else a

/-- The lesser of two values; a NaN gives NaN. -/
def Fl.min (a b : Fl) : Fl := if a = .nan ∨ b = .nan then .nan else if a.below b then a else b

/-- The IEEE order a < b: false on NaN, and the two zeros are equal. -/
def Fl.lt (a b : Fl) : Bool :=
  match a, b with
  | .fin _ 0 _, .fin _ 0 _ => false
  | .nan, _ => false
  | _, .nan => false
  | a, b => a.below b

/-- IEEE equality: false on NaN, and the two zeros are equal. -/
def Fl.eq (a b : Fl) : Bool :=
  match a, b with
  | .nan, _ => false
  | _, .nan => false
  | a, b => !(a.lt b) && !(b.lt a)

/-- Whether a value is NaN. -/
def Fl.isNan : Fl → Bool
  | .nan => true
  | _ => false

/-- The magnitude of a finite value. -/
def Fl.abs : Fl → Fl
  | .nan => .nan
  | .inf _ => .inf false
  | .fin _ m e => .fin false m e

/-! ## binary32 on bit patterns -/

/-- The value of a binary32 pattern. -/
def dec32 (x : BitVec 32) : Fl := fp32.decode x.toNat
/-- The binary32 pattern of a value, rounded to nearest even. -/
def rne32 (v : Fl) : BitVec 32 := BitVec.ofNat 32 (fp32.encode v)
/-- The value of a BF16 pattern. -/
def decBf (x : BitVec 16) : Fl := bf16.decode x.toNat
/-- The BF16 pattern of a value, rounded to nearest even. -/
def rneBf (v : Fl) : BitVec 16 := BitVec.ofNat 16 (bf16.encode v)
/-- A binary32 sum, rounded to nearest even. -/
def add32 (a b : BitVec 32) : BitVec 32 := rne32 ((dec32 a).add (dec32 b))
/-- A binary32 product, rounded to nearest even. -/
def mul32 (a b : BitVec 32) : BitVec 32 := rne32 ((dec32 a).mul (dec32 b))
/-- The greater of two binary32 patterns (R97, R156). -/
def max32 (a b : BitVec 32) : BitVec 32 := rne32 ((dec32 a).max (dec32 b))

/-- One level of a pairwise tree: neighbours combined, absent terms passed through. -/
def pairUp {α : Type} (f : α → α → α) : List (Option α) → List (Option α)
  | some a :: some b :: t => some (f a b) :: pairUp f t
  | some a :: none :: t => some a :: pairUp f t
  | none :: b :: t => b :: pairUp f t
  | l => l

/-- A fixed pairwise tree from the first term: (0 + 1), (2 + 3), then the pairs of those (R175, R132). `n` levels. -/
def tree {α : Type} (f : α → α → α) : Nat → List (Option α) → Option α
  | 0, l => (l.head?).join
  | n + 1, l => tree f n (pairUp f l)

end Sys2Proof.Machine
end

