-- ==== Sys2Proof/Machine/Tables.lean ====
section
/-!
DEFINITION. The activation tables of R155: t_i is the binary32 value nearest to f(x_i), for x_i = -8 + i / 4 and i from 0
to 64. Each entry was rounded once from f(x_i) worked out to eighty decimal digits.
-/

namespace Sys2Proof.Machine

/-- GELU(x) = 0.5 x (1 + erf(x / sqrt 2)) at the 65 points (R155). -/
def geluTable : List (BitVec 32) :=
  [0xA7B34E96, 0xA9205DA6, 0xAA86B932, 0xABD4A034, 0xAD1D9A58, 0xAE5B73DC, 0xAF8F821F, 0xB0B049C0, 0xB1CB64B3, 0xB2DC656C, 0xB3E049EC, 0xB4D659EF, 0xB5C05E5D] ++
  [0xB6A21B39, 0xB7804203, 0xB83E880C, 0xB904D6BD, 0xB9ADD5E0, 0xBA557028, 0xBAF5CDAE, 0xBB84B34C, 0xBC064197, 0xBC7E590F, 0xBCE1524D, 0xBD3A5E7C, 0xBD8F9270] ++
  [0xBDCD3B52, 0xBE073B51, 0xBE227686, 0xBE2E0CC0, 0xBE1DF8A2, 0xBDCD765D, 0x00000000, 0x3E1944D1, 0x3EB103AF, 0x3F147CD0, 0x3F57625F, 0x3F8F1896, 0x3FB32C4B] ++
  [0x3FD706D9, 0x3FFA2D0C, 0x400E3D5B, 0x401F01A7, 0x402F79BE, 0x403FBDA6, 0x404FE146, 0x405FF2A9, 0x406FFA91, 0x407FFDED, 0x4087FFA1, 0x408FFFE0, 0x4097FFF6] ++
  [0x409FFFFD, 0x40A7FFFF, 0x40B00000, 0x40B80000, 0x40C00000, 0x40C80000, 0x40D00000, 0x40D80000, 0x40E00000, 0x40E80000, 0x40F00000, 0x40F80000, 0x41000000]

/-- SiLU(x) = x / (1 + exp(-x)) at the 65 points (R155). -/
def siluTable : List (BitVec 32) :=
  [0xBB2FD1EF, 0xBB5AAE82, 0xBB87D9D3, 0xBBA89850, 0xBBD0F929, 0xBC0156A7, 0xBC1FDEB2, 0xBC454C31, 0xBC731199, 0xBC957231, 0xBCB76256, 0xBCE081D6, 0xBD0911D0] ++
  [0xBD26E231, 0xBD4A82E6, 0xBD74D1D3, 0xBD9357D1, 0xBDB07759, 0xBDD21C2E, 0xBDF872A1, 0xBE11B139, 0xBE29343A, 0xBE42326B, 0xBE5BAF67, 0xBE7420A9, 0xBE84A679] ++
  [0xBE8C1A51, 0xBE8E8731, 0xBE89B2B1, 0xBE766409, 0xBE414D03, 0xBDE02A67, 0x00000000, 0x3E0FEACD, 0x3E9F597F, 0x3F0266FE, 0x3F3B26A8, 0x3F78BC68, 0x3F9CF96C] ++
  [0x3FBED662, 0x3FE17BEB, 0x4002450A, 0x4013DCD9, 0x40256CBC, 0x4036E4EC, 0x40483C6B, 0x40596F1F, 0x406A7C45, 0x407B6541, 0x4086165C, 0x408E6AFA, 0x4096B23C] ++
  [0x409EEDDC, 0x40A71F7E, 0x40AF489E, 0x40B76A8E, 0x40BF8677, 0x40C79D5A, 0x40CFB011, 0x40D7BF55, 0x40DFCBC2, 0x40E7D5DA, 0x40EFDE0A, 0x40F7E4AA, 0x40FFEA06]

end Sys2Proof.Machine
end

