-- ==== Sys2Proof/Machine/Formats.lean ====
section
/-!
DEFINITION. The pure arithmetic of the digital path and the arrays: codes and scales (R172 to R180), the order in which
the DMU sums (R175), the conversion's accumulator and its post-processing (R150 to R156), and accumulate-on-write (R97).
-/

namespace Sys2Proof.Machine

/-! ## Codes and scales -/

/-- The code formats of BFMT and FMT (R136, R140). -/
inductive CodeFmt where
  | bf16 | int4 | int8 | e4m3 | e5m2 | e2m1
  deriving DecidableEq, Repr

/-- The code format a field value names; 6 and 7 are reserved. -/
def codeFmt : Nat → Option CodeFmt
  | 0 => some .bf16
  | 1 => some .int4
  | 2 => some .int8
  | 3 => some .e4m3
  | 4 => some .e5m2
  | 5 => some .e2m1
  | _ => none

/-- The width of a code in bits (R137). -/
def CodeFmt.width : CodeFmt → Nat
  | .bf16 => 16
  | .int4 => 4
  | .e2m1 => 4
  | _ => 8

/-- Bits of a code by BFMT or FMT; 0 for a reserved value (R137, R140). -/
def codeWidth (f : Nat) : Nat := ((codeFmt f).map CodeFmt.width).getD 0

/-- The floating-point format of a code, where it is one. -/
def CodeFmt.fp : CodeFmt → Option FpFmt
  | .bf16 => some Sys2Proof.Machine.bf16
  | .e4m3 => some Sys2Proof.Machine.e4m3
  | .e5m2 => some Sys2Proof.Machine.e5m2
  | .e2m1 => some Sys2Proof.Machine.e2m1
  | _ => none

/-- A number as a two's-complement integer of w bits. -/
def signedOf (w x : Nat) : Int := if 2 ^ (w - 1) ≤ x then (x : Int) - 2 ^ w else x

/-- The exact value of a code without any implicit factor (R170). -/
def CodeFmt.value (f : CodeFmt) (c : Nat) : Fl :=
  match f.fp with
  | some g => g.decode c
  | none => let v := signedOf f.width c; .fin (decide (v < 0)) v.natAbs 0

/-- The exponent of the implicit factor that an integer code carries with an E8M0 scale (R174). -/
def CodeFmt.implicit (f : CodeFmt) (e8m0 : Bool) : Int :=
  match f, e8m0 with
  | .int4, true => -2
  | .int8, true => -6
  | _, _ => 0

/-- The exact value of a scale (R174). -/
def scaleValue (e8m0 : Bool) (s : Nat) : Fl :=
  if e8m0 then (if s = 255 then .nan else .fin false 1 ((s : Int) - 127)) else fp16.decode s

/-- The bytes of one scale entry (R173). -/
def scaleBytes (e8m0 : Bool) : Nat := if e8m0 then 1 else 2

/-- The group size a GSZ field names; 3 is reserved (R136). -/
def groupSize (gsz : Nat) : Nat := 32 * 2 ^ gsz

/-- Element i of a stream of codes of w bits (R172). -/
def codeAt (w : Nat) (bytes : List Byte) (i : Nat) : Nat :=
  if w = 4 then ((bytes.getD (i / 2) 0).toNat / (if i % 2 = 0 then 1 else 16)) % 16
  else leAt bytes (i * w / 8) (w / 8)

/-- Codes of w bits packed without gaps (R172). -/
def packCodes (w : Nat) : List Nat → List Byte
  | [] => []
  | c :: t =>
    if w = 4 then
      match t with
      | [] => [BitVec.ofNat 8 c]
      | d :: t' => BitVec.ofNat 8 (c + 16 * d) :: packCodes w t'
    else toBytes (BitVec.ofNat w c) (w / 8) ++ packCodes w t

/-- A code with its scale as BF16, and the flags DQ_NAN (bit 3) and DQ_SAT (bit 4) (R174). -/
def decodeCode (f : CodeFmt) (e8m0 : Bool) (c s : Nat) : BitVec 16 × BitVec 7 :=
  let v := (f.value c).mul (.fin false 1 (f.implicit e8m0))
  match v.mul (scaleValue e8m0 s) with
  | .nan => (0x7FC0, 0x08)
  | p =>
    let r := Sys2Proof.Machine.bf16.encodeSat p
    (BitVec.ofNat 16 r.1, if r.2 then 0x10 else 0)

/-- The greatest magnitude of a list of finite values, +0 when it has none (R176). -/
def maxAbs (xs : List Fl) : Fl :=
  xs.foldl (fun m x => match x with | .fin _ n e => m.max (.fin false n e) | _ => m) (.fin false 0 0)

/-- The largest code magnitude with an FP16 scale (R176). -/
def CodeFmt.q16 : CodeFmt → Nat
  | .int4 => 7
  | .int8 => 127
  | .e4m3 => 448
  | .e5m2 => 57344
  | .e2m1 => 6
  | .bf16 => 1

/-- F of the E8M0 rule (R176). -/
def CodeFmt.f8 : CodeFmt → Int
  | .e4m3 => 8
  | .e5m2 => 15
  | .e2m1 => 2
  | _ => 0

/-- The FP16 scale of a group whose largest magnitude is m, for the largest code magnitude q (R176). -/
def scale16 (m : Fl) (q : Nat) : Nat :=
  match m with
  | .fin _ n e => if n = 0 then 0 else min fp16.top (max 1 (fp16.roundMag n q e))
  | _ => 0

/-- The E8M0 scale of QNT (R176). -/
def scale8 (m : Fl) (f : Int) : Nat :=
  match m with
  | .fin _ n e => if n = 0 then 0 else (max 0 (min 254 (floorLog2 n 1 + e - f + 127))).toNat
  | _ => 0

/-- The E8M0 scale of QACT: the smallest E with m at most q * 2^(E - 127) (R180). -/
def scale8Act (m : Fl) (q : Nat) : Nat :=
  match m with
  | .fin _ n e =>
    if n = 0 then 0
    else ((List.range 255).find? fun (k : Nat) => !(Fl.fin false q ((k : Int) - 127)).below (.fin false n e)).getD 254
  | _ => 0

/-- An integer code of magnitude at most q for a value and an exact scale, with the flags Q_NAN 0, Q_INF 1, Q_SAT 2
(R177, R180). -/
def codeInt (q : Nat) (x s : Fl) : Int × BitVec 7 :=
  match x with
  | .nan => (0, 0x01)
  | .inf b => (if b then -(q : Int) else q, 0x02)
  | .fin b m e =>
    match s with
    | .fin _ sm se =>
      if sm = 0 then (0, 0)
      else
        let c := rneScaled m sm (e - se)
        let d := min c q
        (if b then -(d : Int) else d, if q < c then 0x04 else 0)
    | _ => (0, 0)

/-- A floating-point code for a value and an exact scale (R177). -/
def codeFp (g : FpFmt) (x s : Fl) : Nat × BitVec 7 :=
  match x with
  | .nan => (g.nan, 0x01)
  | .inf b => (g.join b g.top, 0x02)
  | .fin b m e =>
    match s with
    | .fin _ sm se =>
      if sm = 0 then (0, 0)
      else
        let c := g.roundMag m sm (e - se)
        (g.join b (min c g.top), if g.top < c then 0x04 else 0)
    | _ => (0, 0)

/-- One element coded in a format (R177): the code's bits and the flags. -/
def CodeFmt.code (f : CodeFmt) (x s : Fl) : Nat × BitVec 7 :=
  match f.fp with
  | some g => codeFp g x s
  | none =>
    let r := codeInt f.q16 x s
    ((r.1 % (2 ^ f.width : Nat)).toNat, r.2)

/-- MSE of a group (R178): `qs` are the exact values of the codes times S, `g` the group size. -/
def groupMse (xs qs : List Fl) (g : Nat) : BitVec 32 :=
  let acc := (xs.zip qs).foldl (fun acc p =>
    match p.1 with
    | .fin .. => let e := rne32 (p.1.add p.2.neg); add32 acc (mul32 e e)
    | _ => acc) 0
  rne32 ((dec32 acc).mul (.fin false 1 (-(Nat.log2 g : Int))))

/-- A statistics record (R178). -/
def statRecord (xs qs : List Fl) (g : Nat) : List Byte := toBytes (rne32 (maxAbs xs)) 4 ++ toBytes (groupMse xs qs g) 4

/-- What QNT makes of one group (R176 to R178): codes, scale, statistics and flags. -/
def quantGroup (f : CodeFmt) (e8m0 : Bool) (g : Nat) (xs : List Fl) : List Nat × Nat × List Byte × BitVec 7 :=
  let m := maxAbs xs
  let s := if e8m0 then scale8 m f.f8 else scale16 m f.q16
  let sv := (scaleValue e8m0 s).mul (.fin false 1 (f.implicit e8m0))
  let cs := xs.map fun x => f.code x sv
  (cs.map Prod.fst, s, statRecord xs (cs.map fun c => (f.value c.1).mul sv) g, cs.foldl (fun a c => a ||| c.2) 0)

/-- A list cut into pieces of g (at most `n` of them). -/
def chunks {α : Type} (g : Nat) : Nat → List α → List (List α)
  | 0, _ => []
  | n + 1, l => l.take g :: chunks g n (l.drop g)

/-- Source elements of a Q instruction, widened exactly (R181): SRCT 0 BF16, 1 FP32. -/
def sourceElems (srct : Nat) (n : Nat) (bytes : List Byte) : List Fl :=
  (List.range n).map fun i =>
    if srct = 0 then Sys2Proof.Machine.bf16.decode (leAt bytes (2 * i) 2) else fp32.decode (leAt bytes (4 * i) 4)

/-- The output of QNT from its destination onward, and the flags (R177 to R179). -/
def quantise (f : CodeFmt) (e8m0 stat : Bool) (g n : Nat) (xs : List Fl) : List Byte × BitVec 7 :=
  let gs := (chunks g (n / g) xs).map (quantGroup f e8m0 g)
  let codes := packCodes f.width (gs.flatMap fun r => r.1)
  let scales := gs.flatMap fun r => toBytes (BitVec.ofNat 16 r.2.1) (scaleBytes e8m0)
  let out := codes ++ scales
  (if stat then out ++ zeros ((8 - out.length % 8) % 8) ++ gs.flatMap (fun r => r.2.2.1) else out,
   gs.foldl (fun a r => a ||| r.2.2.2) 0)

/-- The BF16 values of DQN and their flags (R179, R174), from the bytes at its source. -/
def dequantise (f : CodeFmt) (e8m0 : Bool) (g n : Nat) (src : List Byte) : List Byte × BitVec 7 :=
  let sOff := n * f.width / 8
  let rs := (List.range n).map fun i =>
    decodeCode f e8m0 (codeAt f.width src i) (leAt src (sOff + i / g * scaleBytes e8m0) (scaleBytes e8m0))
  (rs.flatMap fun r => toBytes r.1 2, rs.foldl (fun a r => a ||| r.2) 0)

/-- What QACT makes of N elements (R180): the input bytes, the scale entries with the statistics that follow them from
`base` (the byte after the source elements), and the flags. -/
def quantAct (bits : Nat) (e8m0 stat : Bool) (g n base : Nat) (xs : List Fl) : List Byte × List Byte × BitVec 7 :=
  let m := maxAbs xs
  let q := 2 ^ (bits - 1) - 1
  let s := if e8m0 then scale8Act m q else scale16 m q
  let sv := scaleValue e8m0 s
  let cs := xs.map fun x => codeInt q x sv
  let codes := cs.map fun c => BitVec.ofInt 8 c.1
  let scales := (List.replicate (n / g) (toBytes (BitVec.ofNat 16 s) (scaleBytes e8m0))).flatten
  let stats := ((chunks g (n / g) xs).zip (chunks g (n / g) cs)).flatMap fun p =>
    statRecord p.1 (p.2.map fun c => (Fl.fin (decide (c.1 < 0)) c.1.natAbs 0).mul sv) g
  (codes, if stat then scales ++ zeros ((8 - (base + scales.length) % 8) % 8) ++ stats else scales,
   cs.foldl (fun a c => a ||| c.2) 0)

/-! ## The DMU -/

/-- The sum of K products onto an accumulator element (R175): blocks of 32 in a pairwise tree, then the block sums in
ascending order. -/
def dmuSum (acc : BitVec 32) (as bs : List (BitVec 16)) : BitVec 32 :=
  let ps := (as.zip bs).map fun p => some (rne32 ((decBf p.1).mul (decBf p.2)))
  (chunks 32 (ps.length / 32) ps).foldl (fun a blk => add32 a ((tree add32 5 blk).getD 0)) acc

/-- Whether a binary32 pattern is NaN. -/
def isNan32 (x : BitVec 32) : Bool := (dec32 x).isNan

/-! ## The arrays -/

/-- The weight of the planes: 2^k, the top one negative when SIGNED (R150). -/
def planeWeight (planes k : Nat) (signed : Bool) : Int := if signed && k + 1 == planes then -(2 ^ k : Nat) else (2 ^ k : Nat)

/-- The ideal sum of one column pair and plane in level units (R151): bits of the input times L+ - L- of the image. -/
def idealSum (input image : Nat → Byte) (k j : Nat) : Int :=
  (List.range 512).foldl (fun a r =>
    if (input r).getLsbD k then
      let b := image (r * 256 + j)
      a + ((b.toNat % 16 : Nat) : Int) - ((b.toNat / 16 : Nat) : Int)
    else a) 0

/-- The accumulator of one column pair in units of 1/64 LSB (R152), from the codes the converter delivered (R151). -/
def convSum (planes : Nat) (signed : Bool) (zp : Int) (code : Nat → Int) : Int :=
  (List.range planes).foldl (fun a k => a + planeWeight planes k signed * (64 * code k - zp)) 0

/-- GELU and SiLU through the table (R155). -/
def activate (table : List (BitVec 32)) (y : BitVec 32) : BitVec 32 :=
  let v := dec32 y
  if v.isNan then 0x7FC00000
  else if v.lt (.fin true 8 0) then 0
  else if !v.lt (.fin false 8 0) then y
  else
    let i := match v.add (.fin false 8 0) with
      | .fin _ m e => if 0 ≤ e + 2 then m * 2 ^ (e + 2).toNat else m / 2 ^ (-(e + 2)).toNat
      | _ => 0
    let x := Fl.add (.fin true 8 0) (.fin false i (-2))
    let t := table.getD i 0
    let d := rne32 (((dec32 (table.getD (i + 1) 0)).add (dec32 t).neg).mul (.fin false 4 0))
    add32 t (mul32 (rne32 (v.add x.neg)) d)

/-- The activation of a post-processing set (R153, R155). -/
def activation (act : Nat) (y : BitVec 32) : BitVec 32 :=
  match act with
  | 0 => y
  | 1 => if isNan32 y then 0x7FC00000 else if (Fl.fin false 0 0).lt (dec32 y) then y else 0
  | 2 => activate geluTable y
  | _ => activate siluTable y

/-- Steps 1 to 4 of R154 for one column pair. `entry` is its STN_PPTAB entry. -/
def postColumn (act : Nat) (entry : BitVec 32) (a : Int) : BitVec 32 :=
  let af := Fl.fin (decide (a < 0)) a.natAbs (-6)
  let m := rne32 (af.mul (fp16.decode (field entry 15 0)))
  activation act (rne32 ((dec32 m).add (fp16.decode (field entry 31 16))))

/-- One lane of the output latch (R156). `col` gives the column pairs' results. -/
def poolLane (pool w : Nat) (col : Nat → BitVec 32) (i : Nat) : BitVec 32 :=
  if pool = 0 then col i
  else if 256 / w ≤ i then 0
  else
    let c := fun k => col (w * i + k)
    if pool = 1 then
      if w = 2 then max32 (c 0) (c 1) else max32 (max32 (c 0) (c 1)) (max32 (c 2) (c 3))
    else if w = 2 then mul32 (add32 (c 0) (c 1)) 0x3F000000
    else mul32 (add32 (add32 (c 0) (c 1)) (add32 (c 2) (c 3))) 0x3E800000

/-! ## Accumulate-on-write -/

/-- One accumulated element (R97): the result, and the flags INT_SAT 0 and FP_NAN 1. ACCOP 1 ADD_FP32, 2 ADD_INT32,
3 MAX_FP32. -/
def accumulate (op : Nat) (old new : BitVec 32) : BitVec 32 × BitVec 2 :=
  if op = 2 then
    let v := old.toInt + new.toInt
    if v < -2147483648 then (0x80000000, 1) else if 2147483647 < v then (0x7FFFFFFF, 1) else (BitVec.ofInt 32 v, 0)
  else
    let r := if op = 1 then add32 old new else max32 old new
    (r, if isNan32 r then 2 else 0)

/-- One binary32 element converted on store (R181): CVT 1 BF16, 2 FP16; and whether it lay beyond the largest finite value. -/
def convertStore (cvt : Nat) (x : BitVec 32) : BitVec 16 × Bool :=
  let f := if cvt = 1 then Sys2Proof.Machine.bf16 else fp16
  (BitVec.ofNat 16 (f.encodeSat (dec32 x)).1, f.beyond (dec32 x))

end Sys2Proof.Machine
end

