-- ==== Sys2Proof/Machine/Flags.lean ====
section
/-!
DEFINITION. The sticky flags of a station (R97, R182) by bit, and the conditions that set them.
-/

namespace Sys2Proof.Machine

/-- STN_QNT_STAT.Q_NAN, set by a NaN input of QNT or QACT (R177). -/
def flagQNan : BitVec 7 := 0x01
/-- STN_QNT_STAT.Q_INF, set by an infinite input (R177). -/
def flagQInf : BitVec 7 := 0x02
/-- STN_QNT_STAT.Q_SAT, set by a finite input whose rounded code saturates (R177). -/
def flagQSat : BitVec 7 := 0x04
/-- STN_QNT_STAT.DQ_NAN, set by a decode that gives NaN (R174). -/
def flagDqNan : BitVec 7 := 0x08
/-- STN_QNT_STAT.DQ_SAT, set by a decode that saturates (R174). -/
def flagDqSat : BitVec 7 := 0x10
/-- STN_QNT_STAT.DMU_NAN, set by a DMU sum that gives NaN (R175). -/
def flagDmuNan : BitVec 7 := 0x20
/-- STN_QNT_STAT.CVT_SAT, set by a store conversion that saturates (R181). -/
def flagCvtSat : BitVec 7 := 0x40
/-- STN_ACC_STAT.INT_SAT (R97). -/
def flagIntSat : BitVec 2 := 1
/-- STN_ACC_STAT.FP_NAN (R97). -/
def flagFpNan : BitVec 2 := 2

/-- DMU_NAN where one of some sums is NaN. -/
def dmuFlags (xs : List (BitVec 32)) : BitVec 7 := if xs.any isNan32 then flagDmuNan else 0

/-- CVT_SAT where one of some conversions saturated. -/
def cvtFlags (rs : List (BitVec 16 × Bool)) : BitVec 7 := if rs.any Prod.snd then flagCvtSat else 0

/-- INT_SAT and FP_NAN over some accumulated elements. -/
def accFlagsOf (rs : List (BitVec 32 × BitVec 2)) : BitVec 2 := rs.foldl (fun a r => a ||| r.2) 0

end Sys2Proof.Machine
end

