-- ==== Sys2Proof/Machine/Crypto.lean ====
section
/-!
DEFINITION. SHA-256, CRC-32C and CRC-32, and ECDSA over P-256 with the per-signature value of RFC 6979 (R343, R344, R348
to R352, R356, R239). These are the published algorithms that the rules name.
-/

namespace Sys2Proof.Machine

/-! ## SHA-256 -/

/-- The first 32 bits of the fractional parts of the cube roots of the first 64 primes. -/
def shaK : List (BitVec 32) :=
  [0x428A2F98, 0x71374491, 0xB5C0FBCF, 0xE9B5DBA5, 0x3956C25B, 0x59F111F1, 0x923F82A4, 0xAB1C5ED5] ++
  [0xD807AA98, 0x12835B01, 0x243185BE, 0x550C7DC3, 0x72BE5D74, 0x80DEB1FE, 0x9BDC06A7, 0xC19BF174] ++
  [0xE49B69C1, 0xEFBE4786, 0x0FC19DC6, 0x240CA1CC, 0x2DE92C6F, 0x4A7484AA, 0x5CB0A9DC, 0x76F988DA] ++
  [0x983E5152, 0xA831C66D, 0xB00327C8, 0xBF597FC7, 0xC6E00BF3, 0xD5A79147, 0x06CA6351, 0x14292967] ++
  [0x27B70A85, 0x2E1B2138, 0x4D2C6DFC, 0x53380D13, 0x650A7354, 0x766A0ABB, 0x81C2C92E, 0x92722C85] ++
  [0xA2BFE8A1, 0xA81A664B, 0xC24B8B70, 0xC76C51A3, 0xD192E819, 0xD6990624, 0xF40E3585, 0x106AA070] ++
  [0x19A4C116, 0x1E376C08, 0x2748774C, 0x34B0BCB5, 0x391C0CB3, 0x4ED8AA4A, 0x5B9CCA4F, 0x682E6FF3] ++
  [0x748F82EE, 0x78A5636F, 0x84C87814, 0x8CC70208, 0x90BEFFFA, 0xA4506CEB, 0xBEF9A3F7, 0xC67178F2]

/-- The first 32 bits of the fractional parts of the square roots of the first 8 primes. -/
def shaH : List (BitVec 32) :=
  [0x6A09E667, 0xBB67AE85, 0x3C6EF372, 0xA54FF53A, 0x510E527F, 0x9B05688C, 0x1F83D9AB, 0x5BE0CD19]

/-- The message schedule, newest word first, grown by n words. -/
def shaSchedule : Nat → List (BitVec 32) → List (BitVec 32)
  | 0, w => w
  | n + 1, w =>
    let a := w.getD 1 0
    let b := w.getD 14 0
    let s1 := a.rotateRight 17 ^^^ a.rotateRight 19 ^^^ (a >>> 10)
    let s0 := b.rotateRight 7 ^^^ b.rotateRight 18 ^^^ (b >>> 3)
    shaSchedule n ((s1 + w.getD 6 0 + s0 + w.getD 15 0) :: w)

/-- One round, on the eight working words. -/
def shaRound (v : List (BitVec 32)) (kw : BitVec 32 × BitVec 32) : List (BitVec 32) :=
  match v with
  | [a, b, c, d, e, f, g, h] =>
    let s1 := e.rotateRight 6 ^^^ e.rotateRight 11 ^^^ e.rotateRight 25
    let t1 := h + s1 + ((e &&& f) ^^^ (~~~e &&& g)) + kw.1 + kw.2
    let s0 := a.rotateRight 2 ^^^ a.rotateRight 13 ^^^ a.rotateRight 22
    [t1 + s0 + ((a &&& b) ^^^ (a &&& c) ^^^ (b &&& c)), a, b, c, d + t1, e, f, g]
  | v => v

/-- A big-endian word of four bytes. -/
def beWord (bs : List Byte) : BitVec 32 := word 32 (bs.take 4).reverse

/-- One block of 64 bytes taken into the hash. -/
def shaBlock (h : List (BitVec 32)) (block : List Byte) : List (BitVec 32) :=
  let w := (List.range 16).map fun i => beWord (block.drop (4 * i))
  let ws := (shaSchedule 48 w.reverse).reverse
  List.zipWith (· + ·) h ((shaK.zip ws).foldl shaRound h)

/-- The blocks of a padded message, at most n of them. -/
def shaBlocks : Nat → List (BitVec 32) → List Byte → List (BitVec 32)
  | 0, h, _ => h
  | n + 1, h, bs => shaBlocks n (shaBlock h (bs.take 64)) (bs.drop 64)

/-- SHA-256 of a byte string, in the order in which the function outputs it. -/
def sha256 (bs : List Byte) : List Byte :=
  let z := (119 - bs.length % 64) % 64
  let msg := bs ++ [0x80] ++ zeros z ++ (toBytes (BitVec.ofNat 64 (8 * bs.length)) 8).reverse
  (shaBlocks (msg.length / 64) shaH msg).flatMap fun w => (toBytes w 4).reverse

/-! ## CRC -/

/-- One byte taken into a reflected CRC with the given reflected polynomial. -/
def crcByte (poly crc : BitVec 32) (b : Byte) : BitVec 32 :=
  (List.range 8).foldl (fun c _ => if c.getLsbD 0 then (c >>> 1) ^^^ poly else c >>> 1) (crc ^^^ b.setWidth 32)

/-- The reflected polynomials of CRC-32C (1) and CRC-32 (2) (R239). -/
def crcPoly (sel : Nat) : BitVec 32 := if sel = 1 then 0x82F63B78 else 0xEDB88320

/-- Bytes taken into a running CRC, before the final XOR. -/
def crcRun (sel : Nat) (crc : BitVec 32) (bs : List Byte) : BitVec 32 := bs.foldl (crcByte (crcPoly sel)) crc

/-- CRC-32C of bytes. -/
def crc32c (bs : List Byte) : BitVec 32 := crcRun 1 0xFFFFFFFF bs ^^^ 0xFFFFFFFF

/-! ## P-256 -/

/-- The field prime. -/
def p256p : Nat := 0xFFFFFFFF00000001000000000000000000000000FFFFFFFFFFFFFFFFFFFFFFFF
/-- The order of the group. -/
def p256n : Nat := 0xFFFFFFFF00000000FFFFFFFFFFFFFFFFBCE6FAADA7179E84F3B9CAC2FC632551
/-- The coefficient b. -/
def p256b : Nat := 0x5AC635D8AA3A93E7B3EBBD55769886BC651D06B0CC53B0F63BCE3C3E27D2604B
/-- The base point. -/
def p256g : Nat × Nat :=
  (0x6B17D1F2E12C4247F8BCE6E563A440F277037D812DEB33A0F4A13945D898C296,
   0x4FE342E2FE1A7F9B8EE7EB4A7C0F9E162BCE33576B315ECECBB6406837BF51F5)

/-- a^(the low bits of e) modulo n, with the square carried, over k bits. -/
def powGo (n : Nat) : Nat → Nat → Nat → Nat → Nat
  | 0, _, _, r => r
  | k + 1, a, e, r => powGo n k (a * a % n) (e / 2) (if e % 2 = 1 then r * a % n else r)

/-- The inverse modulo a prime. -/
def invMod (a n : Nat) : Nat := powGo n 257 (a % n) (n - 2) 1

/-- A difference modulo n. -/
def subMod (a b n : Nat) : Nat := (a + n - b % n) % n

/-- The sum of two points; none is the point at infinity. -/
def ecAdd (P Q : Option (Nat × Nat)) : Option (Nat × Nat) :=
  match P, Q with
  | none, Q => Q
  | P, none => P
  | some (x1, y1), some (x2, y2) =>
    if x1 = x2 ∧ (y1 + y2) % p256p = 0 then none
    else
      let l :=
        if x1 = x2 then (3 * x1 * x1 + p256p - 3) * invMod (2 * y1) p256p % p256p
        else subMod y2 y1 p256p * invMod (subMod x2 x1 p256p) p256p % p256p
      let x3 := subMod (l * l) (x1 + x2) p256p
      some (x3, subMod (l * subMod x1 x3 p256p) y1 p256p)

/-- A multiple of a point, over k bits of the factor. -/
def ecMulGo : Nat → Nat → Option (Nat × Nat) → Option (Nat × Nat) → Option (Nat × Nat)
  | 0, _, _, r => r
  | k + 1, e, P, r => ecMulGo k (e / 2) (ecAdd P P) (if e % 2 = 1 then ecAdd r P else r)

/-- A multiple of a point. -/
def ecMul (e : Nat) (P : Nat × Nat) : Option (Nat × Nat) := ecMulGo 256 e (some P) none

/-- Whether a pair of coordinates is a point of the curve. -/
def onCurve (x y : Nat) : Bool :=
  x < p256p && y < p256p && (y * y) % p256p == (x * x * x + (p256p - 3) * x + p256b) % p256p

/-- The number that a digest spells, first byte most significant. -/
def beNat (bs : List Byte) : Nat := fromBytes bs.reverse

/-- Whether a signature verifies over a digest (FIPS 186-4): `key` is X and `Y`, each below 2^256. -/
def ecdsaVerify (x y r s : Nat) (digest : List Byte) : Bool :=
  if r = 0 ∨ p256n ≤ r ∨ s = 0 ∨ p256n ≤ s ∨ !onCurve x y then false
  else
    let w := invMod s p256n
    match ecAdd (ecMul (beNat digest * w % p256n) p256g) (ecMul (r * w % p256n) (x, y)) with
    | none => false
    | some P => P.1 % p256n == r

/-- 32 bytes of a number, most significant first. -/
def be32 (x : Nat) : List Byte := (toBytes (BitVec.ofNat 256 x) 32).reverse

/-- HMAC with SHA-256, for keys of at most 64 bytes. -/
def hmac (key msg : List Byte) : List Byte :=
  let k := padTo 64 key
  sha256 (k.map (· ^^^ 0x5C) ++ sha256 (k.map (· ^^^ 0x36) ++ msg))

/-- The signature for one candidate k, where it gives one. -/
def ecdsaTry (d z k : Nat) : Option (Nat × Nat) :=
  if k = 0 ∨ p256n ≤ k then none
  else
    match ecMul k p256g with
    | none => none
    | some P =>
      let r := P.1 % p256n
      let s := invMod k p256n * (z + r * d) % p256n
      if r = 0 ∨ s = 0 then none else some (r, s)

/-- The candidates of RFC 6979 section 3.2 step h, in turn, until one gives a signature. -/
def ecdsaLoop (d z : Nat) : Nat → List Byte → List Byte → Nat × Nat
  | 0, _, _ => (0, 0)
  | n + 1, k, v =>
    let v := hmac k v
    match ecdsaTry d z (beNat v) with
    | some rs => rs
    | none =>
      let k' := hmac k (v ++ [0])
      ecdsaLoop d z n k' (hmac k' v)

/-- The signature r, s of a digest with private key d, with k as RFC 6979 derives it (R343). A candidate is refused with a
chance near 2^-32, so sixteen of them never run out. -/
def ecdsaSign (d : Nat) (digest : List Byte) : Nat × Nat :=
  let z := beNat digest
  let seed := be32 d ++ be32 (z % p256n)
  let v := List.replicate 32 (0x01 : Byte)
  let k := hmac (zeros 32) (v ++ [0x00] ++ seed)
  let v := hmac k v
  let k := hmac k (v ++ [0x01] ++ seed)
  ecdsaLoop d z 16 k (hmac k v)

end Sys2Proof.Machine
end

