-- ==== Sys2Proof/Machine/Mem.lean ====
section
/-!
DEFINITION. The named operations over a Memory: reading and writing bytes, filling with zero, and losing the contents
(R18, R19, R77, R91). The canonical form is Memory.wf; Sys2Proof/Laws/Memory.lean proves that every operation keeps it.
-/

namespace Sys2Proof.Machine

/-- Whether an address lies in a list of ranges. -/
def covers (ks : List (Nat × Nat)) (a : Nat) : Bool := ks.any fun r => r.1 ≤ a && a < r.2

/-- A range [lo, hi) added to a rising list of separated ranges. -/
def addRange (lo hi : Nat) : List (Nat × Nat) → List (Nat × Nat)
  | [] => [(lo, hi)]
  | (a, b) :: t =>
    if hi < a then (lo, hi) :: (a, b) :: t
    else if b < lo then (a, b) :: addRange lo hi t
    else addRange (min lo a) (max hi b) t

/-- The cells below an address. -/
def cellsBelow (cs : List Host.Cell) (lo : Nat) : List Host.Cell := cs.filter fun c => c.1 < lo

/-- The cells at or above an address. -/
def cellsFrom (cs : List Host.Cell) (hi : Nat) : List Host.Cell := cs.filter fun c => hi ≤ c.1

/-- The non-zero bytes of a list as cells from an address upward. -/
def cellsOf (lo : Nat) : List Byte → List Host.Cell
  | [] => []
  | b :: bs => if b = 0 then cellsOf (lo + 1) bs else (lo, b) :: cellsOf (lo + 1) bs

/-- The byte that an address reads as: what was written, zero where only zeros were, and a free value where the contents
are undefined (R19). This is the one definition of what an unlisted address reads as. -/
def Memory.read (m : Memory) (a : Nat) : Byte :=
  match m.cells.find? (fun c => c.1 == a) with
  | some c => c.2
  | none => if covers m.known a then 0 else Config.freeByte m.stamp a

/-- n bytes from an address upward. -/
def Memory.readBytes (m : Memory) (a n : Nat) : List Byte := (List.range n).map fun i => m.read (a + i)

/-- Bytes written from an address upward. -/
def Memory.writeBytes (m : Memory) (a : Nat) (bs : List Byte) : Memory :=
  if bs = [] then m
  else { m with known := addRange a (a + bs.length) m.known,
                cells := cellsBelow m.cells a ++ cellsOf a bs ++ cellsFrom m.cells (a + bs.length) }

/-- One byte written. -/
def Memory.write (m : Memory) (a : Nat) (b : Byte) : Memory := m.writeBytes a [b]

/-- n bytes of zero from an address upward, without listing them (R91). -/
def Memory.zeroFill (m : Memory) (a n : Nat) : Memory :=
  if n = 0 then m
  else { m with known := addRange a (a + n) m.known, cells := cellsBelow m.cells a ++ cellsFrom m.cells (a + n) }

/-- The whole contents undefined again, under a new stamp (R19, R83, R90). -/
def Memory.undefined (stamp : Nat) : Memory := { stamp := stamp }

/-- The number that n bytes from an address spell (R3). -/
def Memory.readLE (m : Memory) (a n : Nat) : Nat := fromBytes (m.readBytes a n)

/-- Ranges rising, non-empty, and separated by at least one address. -/
def rangesWf : List (Nat × Nat) → Bool
  | [] => true
  | [(a, b)] => a < b
  | (a, b) :: (c, d) :: t => a < b && b < c && rangesWf ((c, d) :: t)

/-- Cells rising by address. -/
def cellsRise : List Host.Cell → Bool
  | [] => true
  | [_] => true
  | c :: d :: t => c.1 < d.1 && cellsRise (d :: t)

/-- The canonical form: ranges rising and separated, cells rising, and no cell that reads as an unlisted address there
would: none zero, none at an address whose contents are undefined. -/
def Memory.wf (m : Memory) : Bool :=
  rangesWf m.known && cellsRise m.cells && m.cells.all (fun c => c.2 != 0 && covers m.known c.1)

end Sys2Proof.Machine
end

