-- ==== Sys2Proof/Machine/Ops.lean ====
section
/-!
DEFINITION. The operations that the meanings share: changing one part of the state, raising vectors, the field book,
marks, the device address space, parcels and their checks. A block takes no exception; what goes wrong on it is a status,
a flag or a record, and the operations that form those stand here and in the files of their chapters.
-/

namespace Sys2Proof.Machine

/-! ## The datum record -/

/-- The bytes of the datum record (R161): the INL of fused stations reads as zero. -/
def Otp.datumBytes (o : Otp) : List Byte :=
  ([0x01, 0x00, 0x00, 0x00] : List Byte) ++ o.datum.sigma.toList.flatMap (fun x => toBytes x 2) ++ toBytes o.datum.nu 2 ++
    toBytes o.datum.sigmaNu 2 ++ zeros 24 ++
    (List.finRange 768).map (fun i => if o.stationMap.getLsbD (i.val / 32) then o.datum.inl[i] else 0) ++ zeros 192

/-! ## Changing one part of the state -/

/-- The main domain changed. -/
def State.modMain (s : State) (f : Main → Main) : State := { s with main := f s.main }
/-- The AON domain changed. -/
def State.modAon (s : State) (f : Aon → Aon) : State := { s with aon := f s.aon }
/-- The GLB_ block changed. -/
def State.modGlb (s : State) (f : Glb → Glb) : State := s.modMain fun m => { m with glb := f m.glb }
/-- The PWR_ block changed. -/
def State.modPwr (s : State) (f : Power → Power) : State := s.modMain fun m => { m with pwr := f m.pwr }
/-- MSI-X changed. -/
def State.modMsix (s : State) (f : Msix → Msix) : State := s.modMain fun m => { m with msix := f m.msix }
/-- The PCI Express function changed. -/
def State.modPcie (s : State) (f : Pcie → Pcie) : State := s.modMain fun m => { m with pcie := f m.pcie }
/-- The state of the PCI Express link changed (R35, R46). -/
def State.setLink (s : State) (l : LinkState) : State := s.modPcie fun x => { x with link := l }
/-- One queue changed. -/
def State.modQueue (s : State) (q : Fin 16) (f : Queue → Queue) : State :=
  s.modMain fun m => { m with queues := upd m.queues q f }
/-- One context changed. -/
def State.modCtx (s : State) (c : Fin 8) (f : Ctx → Ctx) : State := s.modMain fun m => { m with ctxs := upd m.ctxs c f }
/-- One station changed. -/
def State.modStation (s : State) (n : Fin 24) (f : Station → Station) : State :=
  s.modMain fun m => { m with stations := upd m.stations n f }
/-- One traverse channel changed. -/
def State.modChan (s : State) (ch : Fin 16) (f : Chan → Chan) : State :=
  s.modMain fun m => { m with chans := upd m.chans ch f }
/-- The NAND controller changed. -/
def State.modNfc (s : State) (f : Nfc → Nfc) : State := s.modMain fun m => { m with nfc := f m.nfc }
/-- One LUN changed. -/
def State.modLun (s : State) (u : Fin 32) (f : Lun → Lun) : State := s.modNfc fun n => { n with luns := upd n.luns u f }
/-- The link block changed. -/
def State.modLink (s : State) (f : Link → Link) : State := s.modMain fun m => { m with link := f m.link }
/-- One link port changed. -/
def State.modPort (s : State) (p : Fin 2) (f : Port → Port) : State :=
  s.modLink fun l => { l with ports := upd l.ports p f }
/-- One context's binding registers changed. -/
def State.modBind (s : State) (c : Fin 8) (f : BindRegs → BindRegs) : State :=
  s.modLink fun l => { l with binds := upd l.binds c f }
/-- One UART changed. -/
def State.modUart (s : State) (u : Fin 2) (f : Uart → Uart) : State :=
  s.modMain fun m => { m with uarts := upd m.uarts u f }
/-- LIN frame mode changed. -/
def State.modLin (s : State) (f : Lin → Lin) : State := s.modMain fun m => { m with lin := f m.lin }
/-- The identity block changed. -/
def State.modIdk (s : State) (f : Idk → Idk) : State := s.modMain fun m => { m with idk := f m.idk }
/-- The supply telemetry changed. -/
def State.modSup (s : State) (f : Supply → Supply) : State := s.modMain fun m => { m with sup := f m.sup }
/-- Shared memory and its registers changed. -/
def State.modShm (s : State) (f : Shm → Shm) : State := s.modMain fun m => { m with shm := f m.shm }
/-- The escalation registers changed. -/
def State.modEsc (s : State) (f : Esc → Esc) : State := s.modMain fun m => { m with esc := f m.esc }
/-- The management port changed. -/
def State.modMgmt (s : State) (f : Mgmt → Mgmt) : State := s.modAon fun a => { a with mgmt := f a.mgmt }
/-- The non-volatile part of one array changed. -/
def State.modNv (s : State) (n : Fin 24) (a : Fin 32) (f : ArrayNv → ArrayNv) : State :=
  { s with nv := upd s.nv n fun v => upd v a f }

/-- TCK_TIME (R27). -/
abbrev State.time (s : State) : BitVec 64 := s.main.time
/-- One queue. -/
abbrev State.queue (s : State) (q : Fin 16) : Queue := s.main.queues[q]
/-- One context. -/
abbrev State.ctx (s : State) (c : Fin 8) : Ctx := s.main.ctxs[c]
/-- One station. -/
abbrev State.station (s : State) (n : Fin 24) : Station := s.main.stations[n]
/-- One traverse channel. -/
abbrev State.chan (s : State) (ch : Fin 16) : Chan := s.main.chans[ch]
/-- One LUN. -/
abbrev State.lun (s : State) (u : Fin 32) : Lun := s.main.nfc.luns[u]
/-- One link port. -/
abbrev State.port (s : State) (p : Fin 2) : Port := s.main.link.ports[p]
/-- The active binding of a context. -/
abbrev State.bound (s : State) (c : Fin 8) : Binding := s.main.link.binds[c].set.active
/-- The non-volatile part of one array. -/
abbrev State.arrayNv (s : State) (n : Fin 24) (a : Fin 32) : ArrayNv := s.nv[n][a]

/-- A command that changes the state only under its condition, and otherwise leaves it as it was. -/
def State.when (s : State) (c : Bool) (f : State → State) : State := if c then f s else s

/-- Whether READY is 1, so that every register and every queue is served (R42). -/
def State.serving (s : State) : Bool := s.phase == .serving

/-- Whether the main domain runs, so that GLB_, PWR_ and TCK_ registers answer and TCK_TIME counts (R27, R42). -/
def State.running (s : State) : Bool :=
  match s.phase with
  | .bootPcie | .bootFw | .bootFailed | .serving => true
  | _ => false

/-- Whether the stations are powered and clocked or gated, but not off (R292, R299). -/
def State.stationsOn (s : State) : Bool := s.serving && s.main.pwr.state != .hold

/-- Whether a forced Hold is asked for or lasts: no job, chain, NAND operation or array programming begins (R297). -/
def Power.forcing (p : Power) : Bool := p.force || p.d3hot

/-- A stamp for contents that become undefined now (R19). -/
def State.nextStamp (s : State) : State := { s with stamp := s.stamp + 1 }

/-! ## Staged registers -/

/-- A COMMIT: the staging copies become the pending set (R10, R11). -/
def Staged.commit {α : Type} (r : Staged α) : Staged α := { r with pending := some r.staging }
/-- The pending set becomes active as a unit (R10). -/
def Staged.activate {α : Type} (r : Staged α) : Staged α :=
  match r.pending with
  | some p => { r with active := p, pending := none }
  | none => r
/-- A write of the staging copy (R9). -/
def Staged.stage {α : Type} (r : Staged α) (f : α → α) : Staged α := { r with staging := f r.staging }

/-! ## Status codes (R364) -/

/-- OK. -/
def stOk : BitVec 16 := 0x0000
/-- CTX_RESET. -/
def stCtxReset : BitVec 16 := 0x0001
/-- ABORT_FABRIC. -/
def stAbortFabric : BitVec 16 := 0x0002
/-- BAD_DESCRIPTOR. -/
def stBadDescriptor : BitVec 16 := 0x0003
/-- BOUND_FAULT. -/
def stBoundFault : BitVec 16 := 0x0004
/-- ILLEGAL_INSTR. -/
def stIllegalInstr : BitVec 16 := 0x0005
/-- BUS_ERROR. -/
def stBusError : BitVec 16 := 0x0006
/-- CHAIN_LIMIT. -/
def stChainLimit : BitVec 16 := 0x0007
/-- ECC_UNCORRECTABLE. -/
def stEcc : BitVec 16 := 0x0008
/-- ARRAY_VERIFY_FAIL. -/
def stVerifyFail : BitVec 16 := 0x0009
/-- POWER_ABORT. -/
def stPowerAbort : BitVec 16 := 0x000A
/-- SPEC_VIOLATION. -/
def stSpecViolation : BitVec 16 := 0x000B
/-- SIGNATURE_FAIL. -/
def stSignatureFail : BitVec 16 := 0x000C
/-- OUT_OF_SERVICE. -/
def stOutOfService : BitVec 16 := 0x000D
/-- TIMEOUT_NAND. -/
def stTimeoutNand : BitVec 16 := 0x000E
/-- ARRAY_UNWRITTEN. -/
def stArrayUnwritten : BitVec 16 := 0x000F

/-! ## Host memory and MSI-X -/

/-- Bytes that the device writes to host memory. -/
def State.hostWrite (s : State) (a : Nat) (bs : List Byte) : State := { s with hostMem := s.hostMem.writeBytes a bs }

/-- A message for a vector: sent, or kept in the Pending Bit Array while it is masked or MSI-X is disabled (R75). -/
def State.raise (s : State) (v : Fin 64) : State :=
  let x := s.main.msix
  if x.enable && !x.functionMask && !x.mask.getLsbD v.val then s.hostWrite x.addr[v].toNat (toBytes x.data[v] 4)
  else s.modMsix fun x => { x with pba := setBit x.pba v.val true }

/-- A message for a vector under a condition. -/
def State.raiseIf (s : State) (c : Bool) (v : Fin 64) : State := if c then s.raise v else s

/-- The vector of a context (R74). -/
def ctxVector (c : Fin 8) : Fin 64 := ⟨16 + c.val, by omega⟩
/-- The vector of a queue (R74). -/
def queueVector (q : Fin 16) : Fin 64 := ⟨q.val, by omega⟩
/-- The vector of a traverse channel (R74). -/
def chanVector (ch : Fin 16) : Fin 64 := ⟨24 + ch.val, by omega⟩

/-- Bits of PWR_EVT set; an enabled bit that becomes set raises vector 40 (R296, chapter 14). -/
def State.powerEvent (s : State) (bits : BitVec 5) : State :=
  let new := (s.main.pwr.evt ||| bits) &&& ~~~s.main.pwr.evt
  (s.modPwr fun p => { p with evt := p.evt ||| bits }).raiseIf (new &&& s.main.pwr.evtEn != 0) 40

/-- Bits of NFC_IRQ_STAT set; an enabled bit that becomes set raises vector 45 (chapter 10). -/
def State.nandEvent (s : State) (bits : BitVec 3) : State :=
  let new := (s.main.nfc.irqStat ||| bits) &&& ~~~s.main.nfc.irqStat
  (s.modNfc fun n => { n with irqStat := n.irqStat ||| bits }).raiseIf (new &&& s.main.nfc.irqEn != 0) 45

/-- Bits of OKL_IRQ_STAT set; an enabled bit that becomes set raises vector 43 (chapter 12). -/
def State.linkEvent (s : State) (bits : BitVec 5) : State :=
  let new := (s.main.link.irqStat ||| bits) &&& ~~~s.main.link.irqStat
  (s.modLink fun l => { l with irqStat := l.irqStat ||| bits }).raiseIf (new &&& s.main.link.irqEn != 0) 43

/-! ## The field book -/

/-- An entry of the ring (R353). -/
def fbWord (time : BitVec 48) (source code : Nat) (data : BitVec 64) : BitVec 128 :=
  data ++ BitVec.ofNat 4 source ++ BitVec.ofNat 12 code ++ time

/-- An event record written at FBK_HEAD (R353, R354). TIME is all ones while TCK_TIME is not counting. -/
def State.fbEntry (s : State) (source code : Nat) (data : BitVec 64) : State :=
  let t : BitVec 48 := if s.running then s.time.setWidth 48 else 0xFFFFFFFFFFFF
  s.modAon fun a =>
    { a with ring := a.ring.set a.fbHead (fbWord t source code data), fbHead := a.fbHead + 1,
             fbCount := min 512 (a.fbCount + 1) }

/-- The newest entries of the ring, at most 128, oldest first (R356). -/
def Aon.newest (a : Aon) : List (BitVec 128) :=
  let n := min 128 a.fbCount
  (List.range n).map fun i => a.ring[(a.fbHead.val + 512 - n + i) % 512]!

/-- The bytes of a slot (R356), without the zeros after its entries. -/
def slotBytes (seq : BitVec 32) (rst trigger : BitVec 16) (es : List (BitVec 128)) : List Byte :=
  let head : List Byte := [0x47, 0x46, 0x42, 0x4B] ++ toBytes seq 4 ++ toBytes rst 2 ++ toBytes trigger 2 ++
    [BitVec.ofNat 8 es.length] ++ zeros 3
  let body := es.flatMap fun e => toBytes e 16
  head ++ toBytes (crc32c (head ++ body)) 4 ++ zeros 43 ++ [0xA5] ++ body

/-- Whether a slot is valid: MAGIC, DONE and the CRC match (R357). -/
def slotValid (bs : List Byte) : Bool :=
  bs.take 4 == [0x47, 0x46, 0x42, 0x4B] && bs.getD 63 0 == 0xA5 &&
    toBytes (crc32c (bs.take 16 ++ padTo (16 * (bs.getD 12 0).toNat) (bs.drop 64))) 4 == (bs.drop 16).take 4

/-- The highest valid SEQ among the slots and the slot that holds it (R356, R357). -/
def bestSlot (slots : Vector (List Byte) 16) : Option (Fin 16 × Nat) :=
  (List.finRange 16).foldl (fun b i =>
    if slotValid slots[i] then
      match b with
      | some (j, q) => if q < leAt slots[i] 4 4 then some (i, leAt slots[i] 4 4) else some (j, q)
      | none => some (i, leAt slots[i] 4 4)
    else b) none

/-- A flush starts (R356): DONE of the next slot is cleared and the slot's contents are fixed. -/
def State.flushStart (s : State) (trigger : BitVec 16) : State :=
  let valid := s.aon.seq != 0
  let slot : Fin 16 := if valid then s.aon.lastSlot + 1 else 0
  let seq := s.aon.seq + 1
  let f : Flush := { slot := slot, seq := seq, bytes := slotBytes seq s.aon.rstCount trigger s.aon.newest }
  { s with slots := upd s.slots slot fun bs => bs.set 63 0, aon := { s.aon with flushing := some f } }

/-- A flush is asked for: it starts, or merges into the one that waits (R356). -/
def State.flush (s : State) (trigger : BitVec 16) : State :=
  if s.aon.flushing.isSome then s.modAon fun a => { a with flushPend := some (a.flushPend.getD trigger) }
  else s.flushStart trigger

/-- FAULT_N asserted. -/
def State.assertFault (s : State) : State := s.modAon fun a => { a with faultN := true }

/-! ## Marks -/

/-- A mark written (R72). -/
def State.setMark (s : State) (m : Fin 64) (v : BitVec 64) : State :=
  s.modMain fun x => { x with marks := x.marks.set m v }

/-- A mark with a value added, modulo 2^64 (R64, R115). -/
def State.addMark (s : State) (m : Fin 64) (v : BitVec 64) : State := s.setMark m (s.main.marks[m] + v)

/-! ## The device address space -/

/-- Where a device address lies (R365): shared memory, the memory of a station, or host memory by physical address. -/
inductive Place where
  | shm (a : Nat)
  | st (n : Fin 24) (off : Nat)
  | host (a : Nat)
  deriving DecidableEq, Repr

/-- First byte and end of the bank groups in split mode: weights, activations, partial sums (R81). -/
def shmGroups : List (Nat × Nat × Nat) :=
  [(0, 0, 0xA000000), (1, 0xA000000, 0xE000000), (2, 0xE000000, 0x10000000)]

/-- Whether n bytes of shared memory from a lie in groups that the part has (R44, R386). -/
def State.shmPresent (s : State) (a n : Nat) : Bool :=
  shmGroups.all fun g => s.otp.shmGroups.getLsbD g.1 || n == 0 || g.2.2 ≤ a || a + n ≤ g.2.1

/-- Whether n bytes of shared memory from a lie within one group (R81). -/
def oneGroup (a n : Nat) : Bool := shmGroups.any fun g => g.2.1 ≤ a && a + n ≤ g.2.2

/-- Whether a station is in GLB_STATION_MAP (R43). -/
def State.present (s : State) (n : Fin 24) : Bool := s.otp.stationMap.getLsbD n.val

/-- Where n bytes from a device address lie; none where they do not respond (R48, R86, R365, R386). -/
def State.place (s : State) (a n : Nat) : Option Place :=
  if 0x8000000000 ≤ a then
    if a + n ≤ 0x10000000000 then some (.host (s.main.glb.hostwin.toNat + (a - 0x8000000000))) else none
  else if a < 0x10000000 then
    if a + n ≤ 0x10000000 && s.shmPresent a n then some (.shm a) else none
  else if 0x100000000 ≤ a then
    let k := (a - 0x100000000) / 0x100000
    let off := (a - 0x100000000) % 0x100000
    if h : k < 24 then
      if off + n ≤ 0x60000 && s.present ⟨k, h⟩ then some (.st ⟨k, h⟩ off) else none
    else none
  else none

/-- Bytes read at a place of shared or station memory. A read of host memory is answered by the host, not here. -/
def State.readPlace (s : State) (p : Place) (n : Nat) : List Byte :=
  match p with
  | .shm a => s.main.shm.mem.readBytes a n
  | .st k off => (s.station k).mem.readBytes off n
  | .host _ => []

/-- Bytes written at a place. -/
def State.writePlace (s : State) (p : Place) (bs : List Byte) : State :=
  match p with
  | .shm a => s.modShm fun m => { m with mem := m.mem.writeBytes a bs }
  | .st k off => s.modStation k fun t => { t with mem := t.mem.writeBytes off bs }
  | .host a => s.hostWrite a bs

/-- Bytes written from a device address, where it responds. -/
def State.devWrite (s : State) (a : Nat) (bs : List Byte) : State :=
  match s.place a bs.length with
  | some p => s.writePlace p bs
  | none => s

/-- Whether a device address lies in the host window (R48). -/
def inHostWindow (a : Nat) : Bool := 0x8000000000 ≤ a

/-! ## Memory of an engine's space -/

/-- Bytes read in a space (R86). -/
def State.spaceRead (s : State) (sp : Space) (a n : Nat) : List Byte :=
  match sp with
  | .shm => s.main.shm.mem.readBytes a n
  | .station k => (s.station k).mem.readBytes a n

/-- Bytes written in a space (R86). -/
def State.spaceWrite (s : State) (sp : Space) (a : Nat) (bs : List Byte) : State :=
  match sp with
  | .shm => s.modShm fun m => { m with mem := m.mem.writeBytes a bs }
  | .station k => s.modStation k fun t => { t with mem := t.mem.writeBytes a bs }

/-- The device address of an offset of a space (R86). -/
def spaceAddr (sp : Space) (off : Nat) : Nat :=
  match sp with
  | .shm => off
  | .station k => 0x100000000 + k.val * 0x100000 + off

/-! ## Parcels -/

/-- VALID of an entry (R84). -/
def Parcel.valid (p : Parcel) : Bool := p.rights.getLsbD 7

/-- The rights of an entry by bit: R 0, W 1, X 2, ACC 3, RESIDENT 4, SPEC 5 (R84). -/
def Parcel.has (p : Parcel) (i : Nat) : Bool := p.rights.getLsbD i

/-- Whether a SPACE code is defined (R84). -/
def spaceOk (sp : BitVec 8) : Bool := sp < 0x18 || sp == 0x1E || sp == 0x1F

/-- The size of a parcel's space (R85). -/
def spaceSize (sp : BitVec 8) : Nat := if sp = 0x1F then 0x10000000 else 0x60000

/-- The entry that 32 bytes spell (R84). -/
def parcelOf (bs : List Byte) : Parcel :=
  { base := BitVec.ofNat 28 (leAt bs 0 4), bound := BitVec.ofNat 29 (leAt bs 4 4), space := bs.getD 8 0,
    rights := bs.getD 9 0 }

/-- The lowest offending byte of an entry's 32 bytes, or none (R85, R61). An entry with VALID = 0 is not checked. -/
def State.entryBad (s : State) (bs : List Byte) : Option Nat :=
  let p := parcelOf bs
  if !p.valid then none
  else
    let base := p.base.toNat
    let bound := p.bound.toNat
    let reach := spaceOk p.space && (spaceSize p.space < base + bound || (p.space == 0x1F && !s.shmPresent base bound))
    minOpt ((if base % 64 ≠ 0 || reach then [0] else []) ++ (if 16 ≤ (bs.getD 3 0).toNat then [3] else []) ++
      (if bound % 64 ≠ 0 || bound = 0 then [4] else []) ++ (if 32 ≤ (bs.getD 7 0).toNat then [7] else []) ++
      (if spaceOk p.space then [] else [8]) ++ (if p.has 6 then [9] else []) ++
      (List.range 22).filterMap fun i => if bs.getD (10 + i) 0 = 0 then none else some (10 + i))

/-- The bytes of an entry, for the check of a register commit (R84, R85). -/
def Parcel.bytes (p : Parcel) : List Byte := toBytes p.base 4 ++ toBytes p.bound 4 ++ [p.space, p.rights] ++ zeros 22

/-- A committed table with each entry that breaks R85 left invalid, and whether any was (R85). -/
def State.checkTable (s : State) (t : PTable) : PTable × Bool :=
  (Vector.ofFn fun i => if (s.entryBad (t[i].bytes)).isSome then { t[i] with rights := setBit t[i].rights 7 false } else t[i],
   (List.finRange 32).any fun i => (s.entryBad (t[i].bytes)).isSome)

/-- Kinds of access and the right each needs (R87). -/
inductive Access where
  | read | write | exec | acc
  deriving DecidableEq, Repr

/-- The bit of the right that an access needs (R84, R87). -/
def Access.right : Access → Nat
  | .read => 0
  | .write => 1
  | .exec => 2
  | .acc => 3

/-- The space of a parcel for an access that names or implies station n (R86). -/
def Parcel.spaceFor (p : Parcel) (n : Fin 24) : Space :=
  if p.space = 0x1F then .shm
  else if p.space = 0x1E then .station n
  else if h : p.space.toNat < 24 then .station ⟨p.space.toNat, h⟩ else .station n

/-- The check of R88 for bytes first to last (offsets within the parcel, unbounded). `own` is the station whose engine
port makes the access, where one does. The answer is the REASON of the first rule broken. -/
def State.parcelCheck (s : State) (p : Parcel) (n : Fin 24) (own : Bool) (k : Access) (first last : Nat) : Option Nat :=
  let sp := p.spaceFor n
  let base := p.base.toNat
  if !p.valid then some 2
  else if (match sp with | .station m => !s.present m | .shm => false) then some 4
  else if own && (match sp with | .station m => m != n | .shm => false) then some 5
  else if p.bound.toNat ≤ last then some 0
  else if sp == .shm && s.main.shm.split &&
      (!oneGroup (base + first) (last + 1 - first) || (k == .acc && base + first < 0xE000000)) then some 3
  else if !p.has k.right then some 1
  else none

/-- DETAIL of a BOUND_FAULT or a SPEC_VIOLATION (R88, R389). -/
def boundDetail (parcel reason station desc : Nat) : BitVec 32 :=
  BitVec.ofNat 32 (parcel + reason * 32 + station * 256 + desc * 65536)

/-- The device addresses at which a parcel's window starts, less BASE: one for shared memory or a named station, one for
every station of the map for SPACE 0x1E (R86). -/
def State.parcelHomes (s : State) (p : Parcel) : List Nat :=
  if p.space = 0x1F then [0]
  else if p.space = 0x1E then ((List.finRange 24).filter s.present).map fun k => 0x100000000 + k.val * 0x100000
  else [0x100000000 + p.space.toNat * 0x100000]

/-- Whether a parcel's window contains n bytes from a device address; a SPACE 0x1E parcel covers its window in every
station of the map (R86, R387). -/
def State.parcelHolds (s : State) (p : Parcel) (a n : Nat) : Bool :=
  (s.parcelHomes p).any fun b => decide (b + p.base.toNat ≤ a) && decide (a + n ≤ b + p.base.toNat + p.bound.toNat)

/-- Whether a parcel's window overlaps any of n bytes from a device address (R387). -/
def State.parcelMeets (s : State) (p : Parcel) (a n : Nat) : Bool :=
  (s.parcelHomes p).any fun b => decide (a < b + p.base.toNat + p.bound.toNat) && decide (b + p.base.toNat < a + n)

/-- Whether a parcel names the memory of a station that is not in the map (R88). -/
def State.parcelFused (s : State) (p : Parcel) : Bool :=
  match p.spaceFor 0 with
  | .station k => p.space != 0x1E && !s.present k
  | .shm => false

/-- The check of a job's device-address range against a table (R387): none where it passes, else DETAIL. No parcel holds
an address of the host window. A range inside a parcel of a fused station faults with reason 4 (chapter 4, Collisions; log
entry 77). -/
def State.parcelRange (s : State) (t : PTable) (right a n : Nat) : Option (BitVec 32) :=
  let all := (List.finRange 32).filter fun i => t[i].valid && s.parcelHolds t[i] a n
  let good := all.filter fun i => t[i].has right
  let cross := decide (a < 0x10000000) && s.main.shm.split && !oneGroup a n
  match all.find? fun i => s.parcelFused t[i] with
  | some i => some (boundDetail i.val 4 31 0)
  | none =>
  match good, all with
  | i :: _, _ => if cross then some (boundDetail i.val 3 31 0) else none
  | [], i :: _ => some (boundDetail i.val 1 31 0)
  | [], [] =>
    match (List.finRange 32).filter fun i => t[i].valid && !inHostWindow a && s.parcelMeets t[i] a n with
    | i :: _ => some (boundDetail i.val 0 31 0)
    | [] => some (boundDetail 0 0 31 0)

/-- The same check for a job whose range may lie in the host window, where it needs no parcel (R62, R65, R164, R351). -/
def State.rangeCheck (s : State) (t : PTable) (right a n : Nat) : Option (BitVec 32) :=
  if inHostWindow a then none else s.parcelRange t right a n

/-! ## Retired instructions and progress -/

/-- CTX_PROGRESS gains 1 and CTX_LAST_ACT takes TCK_TIME (R272). -/
def State.progress (s : State) (c : Fin 8) : State :=
  s.modCtx c fun x => { x with progress := x.progress + 1, lastAct := s.time }

/-- One instruction retired on a station (R108, R272). -/
def State.retire (s : State) (n : Fin 24) : State :=
  let c := (s.station n).ctx
  let s := s.modStation n fun t => { t with retired := t.retired + 1 }
  let carry := (s.ctx c).residue == 0xFFFF
  let s := s.modCtx c fun x => { x with residue := x.residue + 1 }
  if carry then s.progress c else s

end Sys2Proof.Machine
end

