-- ==== Sys2Proof/Machine/JobOps.lean ====
section
/-!
DEFINITION. What jobs, records, faults and stations share: fields of a descriptor (R60), completion records (R66 to R69),
the end of a job, faults reported or latched (R119, R120, R193, R195), and the freeing and reserving of stations (R59,
R112).
-/

namespace Sys2Proof.Machine

/-! ## Descriptor fields -/

/-- n bytes of a descriptor from a byte offset, as a number (R3). -/
def Job.le (j : Job) (off n : Nat) : Nat := (j.desc.extractLsb' (8 * off) (8 * n)).toNat
/-- CMD (R60). -/
def Job.cmd (j : Job) : Nat := j.le 0 1
/-- IRQ (R60). -/
def Job.irq (j : Job) : Bool := bit j.desc 8
/-- TAG (R60). -/
def Job.tag (j : Job) : BitVec 16 := BitVec.ofNat 16 (j.le 2 2)
/-- WAIT_EN (R60). -/
def Job.waitEn (j : Job) : Bool := bit j.desc 39
/-- WAIT_MARK (R60). -/
def Job.waitMark (j : Job) : Fin 64 := Fin.ofNat 64 (j.le 4 1)
/-- WAIT_VALUE (R60). -/
def Job.waitValue (j : Job) : BitVec 64 := BitVec.ofNat 64 (j.le 8 8)
/-- SIGNAL_MARK, where SIGNAL_EN is 1 (R60). -/
def Job.signal (j : Job) : Option (Fin 64) := if bit j.desc 47 then some (Fin.ofNat 64 (j.le 5 1)) else none
/-- STATIONS of a RUN_PROGRAM (R60). -/
def Job.stationMask (j : Job) : BitVec 24 := BitVec.ofNat 24 (j.le 16 4)

/-- The first taken job of a queue: the one that runs or will run next (R55). -/
def State.job (s : State) (q : Fin 16) : Option Job := (s.queue q).jobs.head?

/-- The first taken job of a queue changed. -/
def State.modJob (s : State) (q : Fin 16) (f : Job → Job) : State :=
  s.modQueue q fun x =>
    match x.jobs with
    | j :: t => { x with jobs := f j :: t }
    | [] => x

/-- The taken job with a number changed. -/
def State.modJobOrder (s : State) (q : Fin 16) (order : Nat) (f : Job → Job) : State :=
  s.modQueue q fun x => { x with jobs := x.jobs.map fun j => if j.order = order then f j else j }

/-- The taken job with a number, where it has not completed. -/
def State.jobOrder (s : State) (q : Fin 16) (order : Nat) : Option Job := (s.queue q).jobs.find? fun j => j.order == order

/-- A job comes to its end with a status: it fails, or its command is done. JOB_END then forms its record. -/
def State.setEnd (s : State) (q : Fin 16) (status : BitVec 16) (detail : BitVec 32) : State :=
  s.modJob q fun j => { j with status := status, detail := detail, phase := .ended }

/-- A job fails with BAD_DESCRIPTOR at the lowest offending byte (R61). -/
def State.badDescriptor (s : State) (q : Fin 16) (off : Nat) : State :=
  s.setEnd q stBadDescriptor (BitVec.ofNat 32 off)

/-! ## Rings and records -/

/-- A ring's size from its LOG2 field; values outside 4 to 12 are read as 4 (R52). -/
def ringSize (log : BitVec 4) : Nat := if 4 ≤ log.toNat && log.toNat ≤ 12 then 2 ^ log.toNat else 16

/-- Records in the completion ring that the driver has not consumed (R68). -/
def Queue.used (x : Queue) : Nat :=
  (x.cqWrite.toNat + ringSize x.cfg.active.cqLog2 - x.cqHead.toNat) % ringSize x.cfg.active.cqLog2

/-- Whether the completion ring has a free entry (R68). -/
def Queue.room (x : Queue) : Bool := x.used + 1 < ringSize x.cfg.active.cqLog2

/-- The 32 bytes of a record with its phase bit (R66). -/
def Rec.bytes (r : Rec) (phase : Bool) : List Byte :=
  toBytes r.status 2 ++ toBytes r.tag 2 ++ [r.gen, BitVec.ofNat 8 (r.ctx.val + 16 * r.queue.val), if phase then 1 else 0, 0] ++
    toBytes r.cycles 4 ++ toBytes r.detail 4 ++ toBytes r.crc 4 ++ toBytes r.time 8 ++ zeros 4

/-- The TIMESTAMP field of a job's record (R66, R392): now; for a TIMESTAMP job, the time of the queue's last record, or that
at which the job was taken. -/
def State.recTime (s : State) (q : Fin 16) (j : Job) : BitVec 64 :=
  if j.cmd = 7 then (s.queue q).lastTime.getD j.takenAt else s.time

/-- The record of a job formed now (R66). -/
def State.formRec (s : State) (q : Fin 16) (j : Job) : Rec :=
  { status := j.status, tag := j.tag, gen := j.gen, ctx := j.ctx, queue := q, cycles := sat32 j.cycles, detail := j.detail,
    crc := j.crc, time := s.recTime q j, irq := j.irq }

/-- A record written into the next entry of the completion ring, and its MSI-X message (R67, R69, R74). -/
def State.writeRec (s : State) (q : Fin 16) (r : Rec) : State :=
  let x := s.queue q
  let base := x.cfg.active.cqBase.toNat / 4096 * 4096
  let wraps := x.cqWrite.toNat + 1 = ringSize x.cfg.active.cqLog2
  let s := s.hostWrite (base + 32 * x.cqWrite.toNat) (r.bytes x.phase)
  let s := s.modQueue q fun x =>
    { x with cqWrite := if wraps then 0 else x.cqWrite + 1, phase := if wraps then !x.phase else x.phase }
  s.raiseIf r.irq (queueVector q)

/-- A record delivered: written, or kept in the hold slot for lack of room or while the function is in D3hot (R68, R316). -/
def State.deliver (s : State) (q : Fin 16) (r : Rec) : State :=
  let x := s.queue q
  if x.hold.isEmpty && x.room && !s.main.pwr.d3hot then s.writeRec q r
  else s.modQueue q fun x => { x with hold := x.hold ++ [r] }

/-- Records of the hold slot written while the ring has room, at most n of them (R68, HELD_RECORD_WRITE). -/
def State.drainHold : Nat → State → Fin 16 → State
  | 0, s, _ => s
  | n + 1, s, q =>
    match (s.queue q).hold with
    | r :: t =>
      if (s.queue q).room && !s.main.pwr.d3hot then
        State.drainHold n ((s.modQueue q fun x => { x with hold := t }).writeRec q r) q
      else s
    | [] => s

/-- Every record of the hold slot that fits written. -/
def State.drainHeld (s : State) (q : Fin 16) : State := State.drainHold (s.queue q).hold.length s q

/-- The newest open epoch of a context (R185). -/
def Ctx.newest (x : Ctx) : Option (BitVec 16) := x.epochs.getLast?

/-- The counts and times that a job's end makes at once, and its removal from the queue (R272, R392). -/
def State.countEnd (s : State) (q : Fin 16) (j : Job) (r : Rec) : State :=
  (s.modQueue q fun x =>
    { x with jobsDone := x.jobsDone + 1, lastTime := some r.time, jobs := x.jobs.filter fun k => k.order != j.order }).progress
    j.ctx

/-- A job completes (R66, R69, R187): its signal and record go out, or are held under an epoch that is open. -/
def State.completeUnder (s : State) (q : Fin 16) (j : Job) (tag : Option (BitVec 16)) : State :=
  let r := s.formRec q j
  let sig := if j.status = stOk then j.signal else none
  match tag with
  | some e =>
    (s.countEnd q j r).modCtx j.ctx fun x => { x with held := x.held ++ [⟨e, .completion r sig j.order none⟩] }
  | none =>
    let s := s.countEnd q j r
    let s := match sig with
      | some m => s.addMark m 1
      | none => s
    s.deliver q r

/-- A job completes under the newest open epoch of its context, if one is open (R185, R187). -/
def State.complete (s : State) (q : Fin 16) (j : Job) : State := s.completeUnder q j (s.ctx j.ctx).newest

/-! ## Faults -/

/-- Whether a station belongs to a job. -/
def Station.inJob (t : Station) (q : Fin 16) (order : Nat) : Bool := t.running && t.queue == q && t.order == order

/-- A station stopped at an instruction boundary: it issues nothing further and abandons its waits (R116). -/
def Station.stop (t : Station) : Station :=
  { t with stopping := true, markWait := none, barWait := none, fetchWait := false, stalls := [] }

/-- Every station of a job that still runs it stopped (R119). -/
def State.stopJob (s : State) (q : Fin 16) (order : Nat) : State :=
  s.modMain fun m => { m with stations := Vector.ofFn fun n => if m.stations[n].inJob q order then m.stations[n].stop else m.stations[n] }

/-- The fault registers of a station written (chapter 5, Registers). -/
def Station.recordFault (t : Station) (status : BitVec 16) (detail : BitVec 32) (pc : BitVec 37) (instr : BitVec 64)
    (secondary spec : Bool) : Station :=
  { t with faultStatus := status, faultDetail := detail, faultPc := pc, faultInstr := instr, faultValid := true,
           faultSecondary := secondary, faultSpec := spec }

/-- A fault of a job takes effect (R119): the first one is the reported one, and every station of the job stops. -/
def State.jobFault (s : State) (q : Fin 16) (order : Nat) (status : BitVec 16) (detail : BitVec 32) : State :=
  (s.modJobOrder q order fun j =>
    if j.faulted then j else { j with status := status, detail := detail, faulted := true }).stopJob q order

/-- Whether a held effect is the completion of a job with a fault attached (R193). -/
def Held.faultOf (q : Fin 16) (order : Nat) (h : Held) : Bool :=
  match h.eff with
  | .completion r _ o f => o == order && r.queue == q && f.isSome
  | _ => false

/-- Whether the job has a reported fault already, itself or at its held completion, so that a further one is secondary. -/
def State.jobFaulted (s : State) (q : Fin 16) (order : Nat) : Bool :=
  ((s.jobOrder q order).map Job.faulted).getD false || s.main.ctxs.any fun x => x.held.any (Held.faultOf q order)

/-- A fault of a station's own job, or of a chain it kicked, without an epoch (R119). The station records it where it still
belongs to the job. -/
def State.reportFault (s : State) (n : Fin 24) (q : Fin 16) (order : Nat) (status : BitVec 16) (detail : BitVec 32)
    (pc : BitVec 37) (instr : BitVec 64) (spec : Bool) : State :=
  let sec := s.jobFaulted q order
  let s := if (s.station n).inJob q order || spec then
      s.modStation n fun t => t.recordFault status detail pc instr sec spec
    else s
  s.jobFault q order status detail

/-- A fault attached to a held completion of a job: its first one replaces STATUS and DETAIL at release (R193). -/
def attachFault (order : Nat) (q : Fin 16) (status : BitVec 16) (detail : BitVec 32) (h : Held) : Held :=
  match h.eff with
  | .completion r sig o none =>
    if o = order && r.queue == q then { h with eff := .completion r sig o (some (status, detail)) } else h
  | _ => h

/-- One latched fault of a committed epoch becomes a fault of its job (R193). -/
def State.reportLatched (s : State) (c : Fin 8) (l : Latched) : State :=
  let s := s.reportFault l.station l.queue l.order l.status l.detail l.pc l.instr true
  s.modCtx c fun x => { x with held := x.held.map (attachFault l.order l.queue l.status l.detail) }

/-- One latched fault of a discarded epoch: counted, and recorded on the station with SPEC = 1 (R187, R192). -/
def State.suppressLatched (s : State) (c : Fin 8) (l : Latched) : State :=
  (s.modStation l.station fun t => t.recordFault l.status l.detail l.pc l.instr false true).modCtx c fun x =>
    { x with suppressed := x.suppressed + 1 }

/-- Whether an epoch of a context is open, was committed, or was discarded (R195). -/
inductive Verdict where
  | isOpen | committed | discarded
  deriving DecidableEq, Repr

/-- The verdict on an epoch. -/
def Ctx.verdict (x : Ctx) (e : BitVec 16) : Verdict :=
  if x.epochs.contains e then .isOpen
  else match x.closed.find? (fun p => p.1 == e) with
    | some (_, true) => .committed
    | _ => .discarded

/-- A fault raised under an epoch: latched while it is open, else reported or suppressed as it closed (R120, R195). -/
def State.latchFault (s : State) (c : Fin 8) (l : Latched) : State :=
  match (s.ctx c).verdict l.epoch with
  | .isOpen => s.modCtx c fun x => { x with latched := x.latched ++ [l] }
  | .committed => (s.reportLatched c l).raise (ctxVector c)
  | .discarded => s.suppressLatched c l

/-- A fault of a station's program or chain, under an epoch or not (R119, R120). -/
def State.stationFault (s : State) (n : Fin 24) (q : Fin 16) (order : Nat) (c : Fin 8) (tag : Option (BitVec 16))
    (status : BitVec 16) (detail : BitVec 32) (pc : BitVec 37) (instr : BitVec 64) : State :=
  match tag with
  | some e => s.latchFault c ⟨e, n, q, order, status, detail, pc, instr⟩
  | none => s.reportFault n q order status detail pc instr false

/-! ## Deferred effects under an epoch -/

/-- Sticky flags of a station set now (R182, R97); a capture or a lost target of the NAND controller noted (R222, R354). -/
def State.applyDeferred (s : State) : DeferredEffect → State
  | .qntFlags n f => s.modStation n fun t => { t with qntStat := t.qntStat ||| f }
  | .accFlags n f => s.modStation n fun t => { t with accStat := t.accStat ||| f }
  | .uce loc info => (s.modNfc fun x => { x with uceLoc := loc, uceInfo := info }).nandEvent 1
  | .lunLost m => (s.nandEvent 4).fbEntry 3 0x042 (m.setWidth 64)

/-- An effect that needs no entry: made at once, kept until its epoch closes, or as the epoch closed (R187, R195). -/
def State.defer (s : State) (c : Fin 8) (tag : Option (BitVec 16)) (e : DeferredEffect) : State :=
  match tag with
  | none => s.applyDeferred e
  | some t =>
    match (s.ctx c).verdict t with
    | .isOpen => s.modCtx c fun x => { x with deferred := x.deferred ++ [⟨t, e⟩] }
    | .committed => s.applyDeferred e
    | .discarded => s

/-! ## Stations: free, reserved -/

/-- Whether everything a station issued has retired and taken effect (R112). -/
def Station.drained (t : Station) : Bool :=
  t.dmuQ.isEmpty && t.vecQ.isEmpty && t.qntQ.isEmpty && t.arrQ.isEmpty && t.kicks.isEmpty && t.signals.isEmpty

/-- How far after the last winner a queue comes in the rotation (R58). -/
def turn (last q : Fin 16) : Nat := (q.val + 15 - last.val) % 16

/-- Whether a taken job's mark wait, where it has one, is satisfied (R71). -/
def State.markOk (s : State) (j : Job) : Bool := !j.waitEn || j.waitValue ≤ s.main.marks[j.waitMark]

/-- Whether queue a comes before queue b for the same resource: by PRIO, then in rotation (R58). -/
def State.before (s : State) (a b : Fin 16 × Job) : Bool :=
  b.2.prio < a.2.prio || (a.2.prio == b.2.prio && turn s.main.lastWin a.1 < turn s.main.lastWin b.1)

/-- The first of some jobs in the order of R58. -/
def State.pick (s : State) (l : List (Fin 16 × Job)) : Option (Fin 16 × Job) :=
  l.foldl (fun b x => match b with
    | none => some x
    | some y => some (if s.before x y then x else y)) none

/-- Whether nothing of a job's own queue or context keeps it from starting: the hold slot is empty (R68), its context is not
resetting, no parcel table or binding is pending that was not committed while it waited on its mark (R89, R263), and no SET_PARCELS of the context runs or goes first, nor, for a SET_PARCELS,
any other job of the context (R65). Of two jobs that are next on their queues, the one that was taken first goes first. -/
def State.admissible (s : State) (q : Fin 16) (j : Job) : Bool :=
  (s.queue q).hold.isEmpty && !j.doomed && (s.ctx j.ctx).reset.isNone &&
    (j.waiting || ((s.ctx j.ctx).table.pending.isNone && (s.main.link.binds[j.ctx]).set.pending.isNone)) &&
    (List.finRange 16).all fun k =>
      match s.job k with
      | some o =>
        k == q || o.ctx != j.ctx || !(o.cmd == 9 || j.cmd == 9) ||
          (o.phase == .taken && !(o.order < j.order && s.markOk o))
      | none => true

/-- The next jobs that wait for a station: taken RUN_PROGRAM jobs whose mark wait is over (R59, R71). -/
def State.waitingFor (s : State) (n : Fin 24) : List (Fin 16 × Job) :=
  (List.finRange 16).filterMap fun q =>
    match s.job q with
    | some j =>
      if j.phase == .taken && j.cmd == 1 && j.stationMask.getLsbD n.val && s.markOk j && s.admissible q j then some (q, j)
      else none
    | none => none

/-- A station reserved for the first job that waits for it (R59). -/
def State.reserve (s : State) (n : Fin 24) : State :=
  s.modStation n fun t => { t with reserved := (s.pick (s.waitingFor n)).map Prod.fst }

/-- A station that has ended or was stopped, and whose work is done, falls free (R112, R116). -/
def State.settle (s : State) (n : Fin 24) : State :=
  let t := s.station n
  if t.running && (t.ended || t.stopping) && t.drained then
    let s := s.modJobOrder t.queue t.order fun j => { j with stations := setBit j.stations n.val false }
    let s := s.modStation n fun t => { t with running := false, ended := false, stopping := false, claim := none, board := [] }
    s.reserve n
  else s

/-- Every station that can fall free does. -/
def State.settleAll (s : State) : State := (List.finRange 24).foldl State.settle s

end Sys2Proof.Machine
end

