-- ==== Sys2Proof/Machine/Operands.lean ====
section
/-!
DEFINITION. The fields of the instruction word (R124 to R145), the range descriptor (R101), the buffers of a station
(R134), and the register operands of every format.
-/

namespace Sys2Proof.Machine

/-- The instruction word of a major and minor opcode with its low 52 bits (R124). -/
def wordOf (major minor : Nat) (w : BitVec 52) : BitVec 64 := BitVec.ofNat 6 major ++ BitVec.ofNat 6 minor ++ w

/-- The major opcode (R124). -/
def majorOf (w : BitVec 64) : Nat := field w 63 58
/-- The minor opcode (R124). -/
def minorOf (w : BitVec 64) : Nat := field w 57 52

/-! ## R format (R129) -/

/-- RD. -/
def rdOf (w : BitVec 64) : Nat := field w 51 47
/-- RA. -/
def raOf (w : BitVec 64) : Nat := field w 46 42
/-- RB. -/
def rbOf (w : BitVec 64) : Nat := field w 41 37
/-- I. -/
def iOf (w : BitVec 64) : Bool := bit w 36
/-- ETYPE of the vector class. -/
def etypeOf (w : BitVec 64) : Nat := field w 36 35
/-- PR of the vector class. -/
def prOf (w : BitVec 64) : Nat := field w 34 32
/-- IMM as it stands. -/
def immOf (w : BitVec 64) : BitVec 32 := w.extractLsb' 0 32
/-- IMM sign-extended to 64 bits. -/
def immSext (w : BitVec 64) : BitVec 64 := (immOf w).signExtend 64

/-! ## Registers (R100) -/

/-- A g register read; g0 reads as zero. -/
def Station.rg (t : Station) (r : Nat) : BitVec 64 := if r = 0 then 0 else t.g.getD r 0
/-- A g register written; a write of g0 is discarded. -/
def Station.wg (t : Station) (r : Nat) (v : BitVec 64) : Station := if r = 0 then t else { t with g := t.g.setIfInBounds r v }
/-- A d register read. -/
def Station.rd (t : Station) (r : Nat) : BitVec 128 := t.d.getD r 0
/-- A d register written. -/
def Station.wd (t : Station) (r : Nat) (v : BitVec 128) : Station := { t with d := t.d.setIfInBounds r v }
/-- A v register read. -/
def Station.rv (t : Station) (r : Nat) : BitVec 2048 := t.v.getD r 0
/-- A v register written. -/
def Station.wv (t : Station) (r : Nat) (v : BitVec 2048) : Station := { t with v := t.v.setIfInBounds r v }
/-- A p register read; p0 reads as all ones. -/
def Station.rp (t : Station) (r : Nat) : BitVec 256 := if r = 0 then BitVec.allOnes 256 else t.p.getD r 0
/-- A p register written; a write of p0 is discarded. -/
def Station.wp (t : Station) (r : Nat) (v : BitVec 256) : Station := if r = 0 then t else { t with p := t.p.setIfInBounds r v }

/-- op2 of the scalar class (R130). -/
def Station.op2 (t : Station) (w : BitVec 64) : BitVec 64 := if iOf w then immSext w else t.rg (rbOf w)

/-! ## Range descriptors (R101) -/

/-- PARCEL. -/
def dParcel (d : BitVec 128) : Nat := field d 4 0
/-- OFFSET. -/
def dOffset (d : BitVec 128) : Nat := field d 36 8
/-- LENGTH. -/
def dLength (d : BitVec 128) : Nat := field d 59 40
/-- ESIZE. -/
def dEsize (d : BitVec 128) : Nat := field d 63 60
/-- STRIDE. -/
def dStride (d : BitVec 128) : Nat := field d 87 64

/-- Whether a descriptor faults when an instruction uses it, `writes` saying whether for a write or an accumulate (R101). -/
def dBad (d : BitVec 128) (writes : Bool) : Bool :=
  dLength d == 0 || 12 < dEsize d || (writes && 1 < dLength d && dStride d < 2 ^ dEsize d) ||
    field d 7 5 != 0 || field d 39 37 != 0 || field d 127 88 != 0

/-! ## M format (R133) -/

/-- D. -/
def mD (w : BitVec 64) : Nat := field w 51 49
/-- BUF. -/
def mBuf (w : BitVec 64) : Nat := field w 48 45
/-- ACCOP. -/
def mAccop (w : BitVec 64) : Nat := field w 44 43
/-- CVT. -/
def mCvt (w : BitVec 64) : Nat := field w 42 41
/-- BOFF. -/
def mBoff (w : BitVec 64) : Nat := field w 40 33
/-- GOFF. -/
def mGoff (w : BitVec 64) : Nat := field w 32 28

/-- The size of an operand buffer; 0 for a reserved BUF (R134). -/
def bufSize (b : Nat) : Nat := [16384, 16384, 16384, 8192, 4096, 4096, 1024].getD b 0
/-- The engine whose queue a transfer of a buffer enters (R134). -/
def bufEngine (b : Nat) : Engine :=
  if b ≤ 2 then .dmu else if b = 3 then .vector else if b = 4 then .quantiser else .arrays
/-- Whether a buffer is an accumulator, which only stores read (R134). -/
def bufStoreOnly (b : Nat) : Bool := b == 2 || b == 6

/-- A buffer's contents (R134). -/
def Station.buf (t : Station) (b : Nat) : Memory :=
  match b with
  | 0 => t.bufA
  | 1 => t.bufB
  | 2 => t.acc
  | 3 => t.vec
  | 4 => t.qnt
  | 5 => t.arr
  | _ => t.maa

/-- Bytes written into a buffer (R134). -/
def Station.wbuf (t : Station) (b a : Nat) (bs : List Byte) : Station :=
  match b with
  | 0 => { t with bufA := t.bufA.writeBytes a bs }
  | 1 => { t with bufB := t.bufB.writeBytes a bs }
  | 2 => { t with acc := t.acc.writeBytes a bs }
  | 3 => { t with vec := t.vec.writeBytes a bs }
  | 4 => { t with qnt := t.qnt.writeBytes a bs }
  | 5 => { t with arr := t.arr.writeBytes a bs }
  | _ => { t with maa := t.maa.writeBytes a bs }

/-! ## X format (R136) -/

/-- M, for MQ up to 4. -/
def xM (w : BitVec 64) : Nat := 2 ^ field w 51 49
/-- K. -/
def xK (w : BitVec 64) : Nat := 32 * (field w 48 43 + 1)
/-- N. -/
def xN (w : BitVec 64) : Nat := 16 * (field w 42 39 + 1)
/-- BFMT. -/
def xBfmt (w : BitVec 64) : Nat := field w 38 36
/-- SFMT: 1 is E8M0. -/
def xSfmt (w : BitVec 64) : Bool := bit w 35
/-- GSZ. -/
def xGsz (w : BitVec 64) : Nat := field w 34 33
/-- AOFF. -/
def xAoff (w : BitVec 64) : Nat := field w 32 25
/-- BOFF. -/
def xBoff (w : BitVec 64) : Nat := field w 24 17
/-- COFF. -/
def xCoff (w : BitVec 64) : Nat := field w 16 13
/-- SSEL: 1 is DMU A. -/
def xSsel (w : BitVec 64) : Bool := bit w 12
/-- SOFF. -/
def xSoff (w : BitVec 64) : Nat := field w 11 4

/-! ## A format (R138) -/

/-- MASK. -/
def aMask (w : BitVec 64) : BitVec 32 := w.extractLsb' 20 32
/-- P. -/
def aPlanes (w : BitVec 64) : Nat := field w 19 17 + 1
/-- SIGNED. -/
def aSigned (w : BitVec 64) : Bool := bit w 16
/-- PPSEL. -/
def aPpsel (w : BitVec 64) : Nat := field w 15 12
/-- INSLOT. -/
def aInslot (w : BitVec 64) : Nat := field w 11 9

/-! ## Q format (R140) -/

/-- FMT. -/
def qFmt (w : BitVec 64) : Nat := field w 51 49
/-- SFMT: 1 is E8M0. -/
def qSfmt (w : BitVec 64) : Bool := bit w 48
/-- GSZ. -/
def qGsz (w : BitVec 64) : Nat := field w 47 46
/-- STAT. -/
def qStat (w : BitVec 64) : Bool := bit w 45
/-- SRCT. -/
def qSrct (w : BitVec 64) : Nat := field w 44 44
/-- SOFF. -/
def qSoff (w : BitVec 64) : Nat := field w 43 38
/-- DOFF. -/
def qDoff (w : BitVec 64) : Nat := field w 37 32
/-- N. -/
def qN (w : BitVec 64) : Nat := 32 * (field w 31 26 + 1)
/-- ABITS. -/
def qAbits (w : BitVec 64) : Nat := field w 25 24
/-- B of QACT. -/
def qBits (w : BitVec 64) : Nat := 8 - 2 * qAbits w

/-! ## S, C and P formats (R142, R143, R145) -/

/-- MARK. -/
def sMark (w : BitVec 64) : Fin 64 := Fin.ofNat 64 (field w 51 46)
/-- RB of the S format. -/
def sRb (w : BitVec 64) : Nat := field w 45 41
/-- BAR. -/
def sBar (w : BitVec 64) : Fin 4 := Fin.ofNat 4 (field w 40 39)
/-- COND. -/
def cCond (w : BitVec 64) : Nat := field w 41 39
/-- IMM of the C format: a signed number of words. -/
def cImm (w : BitVec 64) : Int := (immOf w).toInt
/-- CD. -/
def pCd (w : BitVec 64) : Bool := bit w 41

end Sys2Proof.Machine
end

