-- ==== Sys2Proof/Machine/Issue.lean ====
section
/-!
DEFINITION. Issue (R103 to R109): when a station may issue, the checks of R104 in their order, the waits, the range
scoreboard (R92 to R94), the program counter with its hardware loops (R143, R144), and the queues of the engines. A wait
leaves the station as it was but for the note of what it waits for; the sender offers the instruction again.
-/

namespace Sys2Proof.Machine

/-- What one instruction asks of issue, worked out from its word and the station's registers. -/
structure Need where
  /-- g registers that it reads or writes -/
  gs : List Nat := []
  /-- p registers that it reads or writes -/
  ps : List Nat := []
  /-- reasons for ILLEGAL_INSTR that apply -/
  reasons : List Nat := []
  /-- DETAIL of a BOUND_FAULT -/
  bound : Option (BitVec 32) := none
  /-- the lowest array named that is UNWRITTEN or PROGRAMMING -/
  unwritten : Option Nat := none
  /-- DETAIL of a SPEC_VIOLATION -/
  spec : Option (BitVec 32) := none
  /-- the range it presents -/
  range : Option Range := none
  /-- whether it takes a closure-buffer entry -/
  held : Bool := false
  /-- whether its engine's queue has no free entry, or its kick must wait (R250) -/
  full : Bool := false
  deriving DecidableEq, Repr

/-- STN_PC. -/
def Station.pcWord (t : Station) : BitVec 37 := BitVec.ofNat 5 t.pcParcel.val ++ t.pc

/-- The g registers with a write pending: results of vector reductions that have not retired (R104, R123). -/
def Station.pendingG (t : Station) : List Nat :=
  t.vecQ.filterMap fun i =>
    if majorOf i.word = 6 && (minorOf i.word = 0x0A || minorOf i.word = 0x0B) && rdOf i.word ≠ 0 then some (rdOf i.word)
    else none

/-- The p registers with a write pending: results of vector compares that have not retired (R104). -/
def Station.pendingP (t : Station) : List Nat :=
  t.vecQ.filterMap fun i =>
    if majorOf i.word = 6 && (minorOf i.word = 0x08 || minorOf i.word = 0x09) && rdOf i.word ≠ 0 then some (rdOf i.word)
    else none

/-- Whether a station may issue at all (R103, R112 to R116, R275 step 1). -/
def State.canIssue (s : State) (n : Fin 24) : Bool :=
  let t := s.station n
  s.stationsOn && t.running && !t.ended && !t.stopping && t.markWait.isNone && t.barWait.isNone && !t.fetchWait &&
    (s.ctx t.ctx).reset.isNone

/-- The epoch an instruction of a station belongs to (R185). -/
def State.tagOf (s : State) (n : Fin 24) : Option (BitVec 16) := (s.ctx (s.station n).ctx).newest

/-- The check of an instruction fetch of 8 bytes at an offset: DETAIL where it fails (R87, R88). -/
def State.fetchCheck (s : State) (n : Fin 24) (off : Nat) : Option (BitVec 32) :=
  let t := s.station n
  (s.parcelCheck (s.ctx t.ctx).table.active[t.pcParcel] n true .exec off (off + 7)).map fun r =>
    boundDetail t.pcParcel.val r n.val 0

/-! ## The program counter -/

/-- The program counter after the instruction at offset `at'` issued: the loops that end there go back or fall through
(R144). -/
def afterBody (at' : Nat) : List Loop → Nat × List Loop
  | [] => (at' + 8, [])
  | l :: ls =>
    if l.last = at' then
      if 1 < l.left then (l.first, { l with left := l.left - 1 } :: ls) else afterBody at' ls
    else (at' + 8, l :: ls)

/-- The station after the instruction at offset `at'` issued without a branch. -/
def Station.advanceFrom (t : Station) (at' : Nat) : Station :=
  let r := afterBody at' t.loops
  { t with pc := BitVec.ofNat 32 (min r.1 0xFFFFFFF8), loops := r.2 }

/-- The station after the instruction at its program counter issued without a branch. -/
def Station.advance (t : Station) : Station := t.advanceFrom t.pc.toNat

/-- The station after a taken branch: loops whose body does not hold the target end (R144). -/
def Station.branch (t : Station) (target : Nat) : Station :=
  { t with pc := BitVec.ofNat 32 target, loops := t.loops.filter fun l => l.first ≤ target && target ≤ l.last }

/-! ## Faults at issue -/

/-- The instruction at the program counter faults (R118 to R120): without an epoch the job stops; under one the fault is
latched and issue goes on behind the instruction. -/
def State.issueFault (s : State) (n : Fin 24) (word : BitVec 64) (status : BitVec 16) (detail : BitVec 32) : State :=
  let t := s.station n
  match s.tagOf n with
  | some e =>
    (s.modStation n fun t => { t.advance with stalls := [] }).latchFault t.ctx
      ⟨e, n, t.queue, t.order, status, detail, t.pcWord, word⟩
  | none => (s.reportFault n t.queue t.order status detail t.pcWord word false).settleAll

/-- The fetch at the program counter faults (R388): under an epoch the station waits there. -/
def State.fetchFault (s : State) (n : Fin 24) (detail : BitVec 32) : State :=
  let t := s.station n
  match s.tagOf n with
  | some e =>
    (s.modStation n fun t => { t with fetchWait := true, stalls := [] }).latchFault t.ctx
      ⟨e, n, t.queue, t.order, stBoundFault, detail, t.pcWord, 0⟩
  | none => (s.reportFault n t.queue t.order stBoundFault detail t.pcWord 0 false).settleAll

/-- DETAIL of ILLEGAL_INSTR: the reason and the station (R121). -/
def reasonDetail (reason : Nat) (n : Fin 24) : BitVec 32 := BitVec.ofNat 32 (reason + 256 * n.val)

/-! ## The scoreboard -/

/-- Whether a new range waits for an outstanding one (R93). -/
def Range.waits (new old : Range) : Bool :=
  new.space == old.space && new.first ≤ old.last && old.first ≤ new.last &&
    (match new.kind, old.kind with
     | .read, .read => false
     | .acc a, .acc b => a != b
     | _, _ => true)

/-- The granules of bytes first to last of a space (R92). -/
def granules (sp : Space) (first last : Nat) (k : RangeKind) : Range := ⟨sp, first / 64, last / 64, k⟩

/-! ## Issue -/

/-- The note of what a station waits for at issue. -/
def State.stallFor (s : State) (n : Fin 24) (why : List Stall) : State := s.modStation n fun t => { t with stalls := why }

/-- A wait where a condition holds. -/
def stallIf (c : Bool) (w : Stall) : List Stall := if c then [w] else []

/-- What an instruction that passed its checks still waits for (R93, R94, R104): an overlap, scoreboard entries, room in the
closure buffer, its engine's queue. -/
def State.waitsFor (s : State) (n : Fin 24) (need : Need) : List Stall :=
  let t := s.station n
  stallIf (match need.range with | some r => t.board.any r.waits | none => false) .overlap ++
    stallIf (need.range.isSome && 32 ≤ t.board.length) .entries ++
    stallIf (need.held && 64 ≤ (s.ctx t.ctx).held.length) .closure ++ stallIf need.full .queue

/-- One instruction at the head of issue (R104): it waits, faults, or issues with the effect `go`. -/
def State.issue (s : State) (n : Fin 24) (word : BitVec 64) (need : Need) (go : State → State) : State :=
  let t := s.station n
  if !s.canIssue n then s
  else match s.fetchCheck n t.pc.toNat with
  | some d => s.fetchFault n d
  | none =>
    if need.gs.any (fun r => t.pendingG.contains r) || need.ps.any (fun r => t.pendingP.contains r) then s.stallFor n [.reg]
    else match minOpt need.reasons with
    | some r => s.issueFault n word stIllegalInstr (reasonDetail r n)
    | none =>
      match need.bound, need.unwritten, need.spec with
      | some d, _, _ => s.issueFault n word stBoundFault d
      | none, some a, _ => s.issueFault n word stArrayUnwritten (reasonDetail a n)
      | none, none, some d => s.issueFault n word stSpecViolation d
      | none, none, none =>
        if (s.waitsFor n need).isEmpty then go (s.modStation n fun t => { t with stalls := [] })
        else s.stallFor n (s.waitsFor n need)

/-- An instruction of the sequencer: it takes its effect on the station, retires and the program counter moves on (R108). -/
def State.issueScalar (s : State) (n : Fin 24) (word : BitVec 64) (need : Need) (f : Station → Station) : State :=
  s.issue n word need fun s => (s.modStation n fun t => (f t).advance).retire n

/-! ## Queues of the engines -/

/-- The queue of an engine. -/
def Station.queueOf (t : Station) : Engine → List Issued
  | .dmu => t.dmuQ
  | .vector => t.vecQ
  | .quantiser => t.qntQ
  | .arrays => t.arrQ

/-- The queue of an engine replaced. -/
def Station.setQueue (t : Station) (e : Engine) (l : List Issued) : Station :=
  match e with
  | .dmu => { t with dmuQ := l }
  | .vector => { t with vecQ := l }
  | .quantiser => { t with qntQ := l }
  | .arrays => { t with arrQ := l }

/-- An instruction enters its engine's queue; its range becomes outstanding (R104). -/
def Station.enqueue (t : Station) (e : Engine) (i : Issued) : Station :=
  let t := t.setQueue e (t.queueOf e ++ [{ i with seq := t.issueSeq }])
  let t := { t with issueSeq := t.issueSeq + 1 }
  match i.range with
  | none => t
  | some r => { t with board := t.board ++ [r], boardMax := max t.boardMax (t.board.length + 1) }

/-- An instruction of an engine: it enters the engine's queue and the program counter moves on (R104). -/
def State.issueEngine (s : State) (n : Fin 24) (e : Engine) (need : Need) (i : Issued) : State :=
  let full := 4 ≤ ((s.station n).queueOf e).length
  s.issue n i.word { need with full := full } fun s =>
    s.modStation n fun t => (t.enqueue e { i with epoch := s.tagOf n, range := need.range }).advance

/-! ## Checks of fields -/

/-- A reason where a condition holds. -/
def reasonIf (c : Bool) (r : Nat) : List Nat := if c then [r] else []

/-- Reason 0x02 where a field that must be zero is not (R126). -/
def reserved (x : Nat) : List Nat := reasonIf (x != 0) 0x02

/-- Reason 0x19 where a register field names a register at or above a bound (R128). -/
def regBelow (x bound : Nat) : List Nat := reasonIf (bound ≤ x) 0x19

end Sys2Proof.Machine
end

