-- ==== Sys2Proof/Machine/Matrix.lean ====
section
/-!
DEFINITION. The matrix class (R136, R137): the checks at issue, and the tile product that the DMU forms when it completes
the instruction (R173 to R175).
-/

namespace Sys2Proof.Machine

/-- Bytes of a tile's A operand (R137). -/
def xABytes (w : BitVec 64) : Nat := xM w * xK w * 2
/-- Bytes of a tile's codes (R137). -/
def xCodeBytes (w : BitVec 64) : Nat := xK w * xN w * codeWidth (xBfmt w) / 8
/-- Bytes of a tile's scales (R137); none for BF16. -/
def xScaleBytes (w : BitVec 64) : Nat :=
  if xBfmt w = 0 then 0 else xK w / groupSize (xGsz w) * xN w * scaleBytes (xSfmt w)

/-- The checks that MMA, MMAZ and ACLR share (R136, R137). -/
def xShape (w : BitVec 64) : List Nat :=
  reserved (field w 3 0) ++ reasonIf (5 ≤ field w 51 49 || 256 < 16 * xCoff w + xN w) 0x11

/-- What MMA and MMAZ ask of issue (R136, R137). -/
def matNeed (w : BitVec 64) : Need :=
  let narrow := xBfmt w != 0
  { reasons := xShape w ++
      (if narrow then [] else reserved (field w 35 33) ++ reserved (field w 12 4)) ++
      reasonIf (field w 51 49 < 5 && 16384 < 64 * xAoff w + xABytes w) 0x10 ++
      reasonIf (xBfmt w < 6 && 16384 < 64 * xBoff w + xCodeBytes w) 0x10 ++
      reasonIf (narrow && xGsz w < 3 && 16384 < 64 * xSoff w + xScaleBytes w) 0x10 ++
      reasonIf (narrow && xGsz w < 3 && xK w % groupSize (xGsz w) != 0) 0x12 ++
      reasonIf (6 ≤ xBfmt w || (narrow && xGsz w == 3)) 0x1A ++
      reasonIf (xBfmt w == 5 && !xSfmt w) 0x1B }

/-- What ACLR asks of issue: KQ, BFMT, SFMT, GSZ, AOFF, BOFF, SSEL and SOFF are reserved (R137). -/
def aclrNeed (w : BitVec 64) : Need :=
  { reasons := xShape w ++ reserved (field w 48 43) ++ reserved (field w 38 17) ++ reserved (field w 12 4) }

/-- MMA (R137). -/
def execMma (n : Fin 24) (w : BitVec 52) (s : State) : Host.Outcome State Fault Refusal :=
  .next (s.issueEngine n .dmu (matNeed (wordOf 3 0x01 w)) { word := wordOf 3 0x01 w })

/-- MMAZ (R137). -/
def execMmaz (n : Fin 24) (w : BitVec 52) (s : State) : Host.Outcome State Fault Refusal :=
  .next (s.issueEngine n .dmu (matNeed (wordOf 3 0x02 w)) { word := wordOf 3 0x02 w })

/-- ACLR (R137). -/
def execAclr (n : Fin 24) (w : BitVec 52) (s : State) : Host.Outcome State Fault Refusal :=
  .next (s.issueEngine n .dmu (aclrNeed (wordOf 3 0x03 w)) { word := wordOf 3 0x03 w })

/-! ## The effect -/

/-- The byte of an accumulator element (R134). -/
def accAddr (w : BitVec 64) (r c : Nat) : Nat := (256 * r + 16 * xCoff w + c) * 4

/-- Column c of the B operand as BF16, and the flags of its decode (R173, R174). -/
def bColumn (w : BitVec 64) (codes scales : List Byte) (c : Nat) : List (BitVec 16 × BitVec 7) :=
  (List.range (xK w)).map fun k =>
    match codeFmt (xBfmt w) with
    | some .bf16 => (BitVec.ofNat 16 (codeAt 16 codes (c * xK w + k)), 0)
    | some f =>
      let g := groupSize (xGsz w)
      let i := c * (xK w / g) + k / g
      decodeCode f (xSfmt w) (codeAt f.width codes (c * xK w + k)) (leAt scales (i * scaleBytes (xSfmt w)) (scaleBytes (xSfmt w)))
    | none => (0, 0)

/-- Row r of the A operand (R136). -/
def aRow (w : BitVec 64) (as : List Byte) (r : Nat) : List (BitVec 16) :=
  (List.range (xK w)).map fun k => BitVec.ofNat 16 (leAt as (2 * (r * xK w + k)) 2)

/-- The rows 0 to M - 1, columns 0 to N - 1 of a tile, each as its new accumulator value, with the flags of the decode
and of the sums (R137, R175). `fresh`: the elements start at +0. -/
def Station.tile (t : Station) (w : BitVec 64) (fresh : Bool) : List (List (BitVec 32)) × BitVec 7 :=
  let as := t.bufA.readBytes (64 * xAoff w) (xABytes w)
  let codes := t.bufB.readBytes (64 * xBoff w) (xCodeBytes w)
  let scales := (if xSsel w then t.bufA else t.bufB).readBytes (64 * xSoff w) (xScaleBytes w)
  let cols := (List.range (xN w)).map fun c => bColumn w codes scales c
  let bs := cols.map fun c => c.map Prod.fst
  let rows := (List.range (xM w)).map fun r =>
    let a := aRow w as r
    bs.mapIdx fun c b =>
      dmuSum (if fresh then 0 else BitVec.ofNat 32 (t.acc.readLE (accAddr w r c) 4)) a b
  (rows, (cols.flatten.foldl (fun f x => f ||| x.2) 0) ||| dmuFlags rows.flatten)

/-- Rows of a tile written into the accumulator (R137). -/
def Station.putTile (t : Station) (w : BitVec 64) (rows : List (List (BitVec 32))) : Station :=
  (rows.mapIdx fun r xs => (r, xs)).foldl (fun t p => t.wbuf 2 (accAddr w p.1 0) (p.2.flatMap fun x => toBytes x 4)) t

/-- The effect of an X instruction as the DMU completes it (R137). -/
def State.matrixEffect (s : State) (n : Fin 24) (i : Issued) : State :=
  let w := i.word
  let t := s.station n
  if minorOf w = 3 then
    s.modStation n fun t => t.putTile w (List.replicate (xM w) (List.replicate (xN w) 0))
  else
    let r := t.tile w (minorOf w == 2)
    let s := s.modStation n fun t => t.putTile w r.1
    if r.2 = 0 then s else s.defer t.ctx i.epoch (.qntFlags n r.2)

end Sys2Proof.Machine
end

