-- ==== Sys2Proof/Machine/Scalar.lean ====
section
/-!
DEFINITION. The scalar class (R130, R131): arithmetic, descriptors, scalar loads and stores. Each instruction takes its
effect at issue and retires there (R108); a store to a kick word leaves the kick for KICK (R248 to R251).
-/

namespace Sys2Proof.Machine

/-! ## Arithmetic -/

/-- What a scalar instruction with RD, RA and op2 asks of issue (R130). -/
def aluNeed (w : BitVec 64) : Need :=
  { gs := [rdOf w, raOf w] ++ (if iOf w then [] else [rbOf w]),
    reasons := reserved (field w 35 32) ++ reserved (if iOf w then rbOf w else (immOf w).toNat) }

/-- A scalar instruction g[RD] := f g[RA] op2 (R130). -/
def State.alu (s : State) (n : Fin 24) (w : BitVec 64) (f : BitVec 64 → BitVec 64 → BitVec 64) : State :=
  s.issueScalar n w (aluNeed w) fun t => t.wg (rdOf w) (f (t.rg (raOf w)) (t.op2 w))

/-- A comparison's result: 1 or 0 (R130). -/
def oneIf (b : Bool) : BitVec 64 := if b then 1 else 0

/-- The signed minimum (R130). -/
def minSigned (a b : BitVec 64) : BitVec 64 := if a.slt b then a else b
/-- The signed maximum (R130). -/
def maxSigned (a b : BitVec 64) : BitVec 64 := if a.slt b then b else a

/-- NOP (R130): every field is reserved. -/
def execNop (n : Fin 24) (w : BitVec 52) (s : State) : Host.Outcome State Fault Refusal :=
  let x := wordOf 1 0x00 w
  .next (s.issueScalar n x { reasons := reserved (field x 51 0) } id)

/-- ADD (R130). -/
def execAdd (n : Fin 24) (w : BitVec 52) (s : State) : Host.Outcome State Fault Refusal :=
  .next (s.alu n (wordOf 1 0x01 w) (· + ·))

/-- SUB (R130). -/
def execSub (n : Fin 24) (w : BitVec 52) (s : State) : Host.Outcome State Fault Refusal :=
  .next (s.alu n (wordOf 1 0x02 w) (· - ·))

/-- AND (R130). -/
def execAnd (n : Fin 24) (w : BitVec 52) (s : State) : Host.Outcome State Fault Refusal :=
  .next (s.alu n (wordOf 1 0x03 w) (· &&& ·))

/-- OR (R130). -/
def execOr (n : Fin 24) (w : BitVec 52) (s : State) : Host.Outcome State Fault Refusal :=
  .next (s.alu n (wordOf 1 0x04 w) (· ||| ·))

/-- XOR (R130). -/
def execXor (n : Fin 24) (w : BitVec 52) (s : State) : Host.Outcome State Fault Refusal :=
  .next (s.alu n (wordOf 1 0x05 w) (· ^^^ ·))

/-- SHL (R130). -/
def execShl (n : Fin 24) (w : BitVec 52) (s : State) : Host.Outcome State Fault Refusal :=
  .next (s.alu n (wordOf 1 0x06 w) fun a b => a <<< field b 5 0)

/-- SHR (R130). -/
def execShr (n : Fin 24) (w : BitVec 52) (s : State) : Host.Outcome State Fault Refusal :=
  .next (s.alu n (wordOf 1 0x07 w) fun a b => a >>> field b 5 0)

/-- SRA (R130). -/
def execSra (n : Fin 24) (w : BitVec 52) (s : State) : Host.Outcome State Fault Refusal :=
  .next (s.alu n (wordOf 1 0x08 w) fun a b => a.sshiftRight (field b 5 0))

/-- MUL (R130). -/
def execMul (n : Fin 24) (w : BitVec 52) (s : State) : Host.Outcome State Fault Refusal :=
  .next (s.alu n (wordOf 1 0x09 w) (· * ·))

/-- MIN (R130). -/
def execMin (n : Fin 24) (w : BitVec 52) (s : State) : Host.Outcome State Fault Refusal :=
  .next (s.alu n (wordOf 1 0x0A w) minSigned)

/-- MAX (R130). -/
def execMax (n : Fin 24) (w : BitVec 52) (s : State) : Host.Outcome State Fault Refusal :=
  .next (s.alu n (wordOf 1 0x0B w) maxSigned)

/-- SLT (R130). -/
def execSlt (n : Fin 24) (w : BitVec 52) (s : State) : Host.Outcome State Fault Refusal :=
  .next (s.alu n (wordOf 1 0x0C w) fun a b => oneIf (a.slt b))

/-- SLTU (R130). -/
def execSltu (n : Fin 24) (w : BitVec 52) (s : State) : Host.Outcome State Fault Refusal :=
  .next (s.alu n (wordOf 1 0x0D w) fun a b => oneIf (a.ult b))

/-- SEQ (R130). -/
def execSeq (n : Fin 24) (w : BitVec 52) (s : State) : Host.Outcome State Fault Refusal :=
  .next (s.alu n (wordOf 1 0x0E w) fun a b => oneIf (a == b))

/-- MOVHI (R130): I must be 0 and RB is not used. -/
def execMovhi (n : Fin 24) (w : BitVec 52) (s : State) : Host.Outcome State Fault Refusal :=
  let x := wordOf 1 0x0F w
  .next (s.issueScalar n x { gs := [rdOf x, raOf x], reasons := reserved (field x 36 32) ++ reserved (rbOf x) } fun t =>
    t.wg (rdOf x) (immOf x ++ (t.rg (raOf x)).extractLsb' 0 32))

/-! ## Descriptors -/

/-- DSET (R130). -/
def execDset (n : Fin 24) (w : BitVec 52) (s : State) : Host.Outcome State Fault Refusal :=
  let x := wordOf 1 0x14 w
  .next (s.issueScalar n x
    { gs := [raOf x, rbOf x], reasons := reserved (field x 36 0) ++ regBelow (rdOf x) 8 } fun t =>
      t.wd (rdOf x) (t.rg (rbOf x) ++ t.rg (raOf x)))

/-- DGET (R130): I selects the half. -/
def execDget (n : Fin 24) (w : BitVec 52) (s : State) : Host.Outcome State Fault Refusal :=
  let x := wordOf 1 0x15 w
  .next (s.issueScalar n x
    { gs := [rdOf x],
      reasons := reserved (field x 35 0) ++ reserved (rbOf x) ++ regBelow (raOf x) 8 } fun t =>
      t.wg (rdOf x) ((t.rd (raOf x)).extractLsb' (if iOf x then 64 else 0) 64))

/-- DOFF (R130): OFFSET moves modulo 2^29. -/
def execDoff (n : Fin 24) (w : BitVec 52) (s : State) : Host.Outcome State Fault Refusal :=
  let x := wordOf 1 0x16 w
  .next (s.issueScalar n x
    { gs := [raOf x],
      reasons := reserved (field x 36 32) ++ reserved (rbOf x) ++ regBelow (rdOf x) 8 } fun t =>
      let d := t.rd (rdOf x)
      let off : BitVec 29 := BitVec.ofNat 29 (dOffset d) + (t.rg (raOf x) + immSext x).setWidth 29
      t.wd (rdOf x) (d.extractLsb' 37 91 ++ off ++ d.extractLsb' 0 8))

/-- RDTIME (R130). -/
def execRdtime (n : Fin 24) (w : BitVec 52) (s : State) : Host.Outcome State Fault Refusal :=
  let x := wordOf 1 0x17 w
  .next (s.issueScalar n x { gs := [rdOf x], reasons := reserved (field x 46 0) } fun t => t.wg (rdOf x) s.time)

/-! ## Scalar loads and stores -/

/-- The offset within the parcel that a scalar access reaches, modulo 2^64 (R131). -/
def Station.scalarOff (t : Station) (w : BitVec 64) : Nat :=
  (BitVec.ofNat 64 (dOffset (t.rd (raOf w))) + t.rg (rbOf w) + immSext w).toNat

/-- The parcel entry that d[RA] names in the table of the station's context (R223, R84). -/
def State.parcelOfD (s : State) (n : Fin 24) (d : BitVec 128) : Parcel :=
  (s.ctx (s.station n).ctx).table.active.getD (dParcel d) {}

/-- The space and the offset in it that a scalar access reaches (R86). -/
def State.scalarPlace (s : State) (n : Fin 24) (w : BitVec 64) : Space × Nat :=
  let t := s.station n
  let p := s.parcelOfD n (t.rd (raOf w))
  (p.spaceFor n, p.base.toNat + t.scalarOff w)

/-- What a scalar access of `size` bytes asks of issue (R131, R88, R92, R187). -/
def State.scalarNeed (s : State) (n : Fin 24) (w : BitVec 64) (size : Nat) (store : Bool) : Need :=
  let t := s.station n
  let d := t.rd (raOf w)
  let p := s.parcelOfD n d
  let off := t.scalarOff w
  let pl := s.scalarPlace n w
  { gs := [rdOf w, rbOf w],
    reasons := reserved (field w 36 32) ++ regBelow (raOf w) 8 ++ reasonIf (raOf w < 8 && dBad d store) 0x04 ++
      reasonIf (raOf w < 8 && off % size != 0) 0x18,
    bound := (s.parcelCheck p n true (if store then .write else .read) off (off + size - 1)).map fun r =>
      boundDetail (dParcel d) r n.val (raOf w),
    spec := if store && (s.tagOf n).isSome && !p.has 5 then some (boundDetail (dParcel d) 1 n.val (raOf w)) else none,
    range := some (granules pl.1 pl.2 (pl.2 + size - 1) (if store then .write else .read)) }

/-- A scoreboard entry taken and released by an access that ends as it issues (R94). -/
def Station.touchBoard (t : Station) : Station := { t with boardMax := max t.boardMax (t.board.length + 1) }

/-- A scalar load (R131). -/
def State.scalarLoad (s : State) (n : Fin 24) (w : BitVec 64) (size : Nat) : State :=
  let pl := s.scalarPlace n w
  s.issueScalar n w (s.scalarNeed n w size false) fun t =>
    t.touchBoard.wg (rdOf w) (word 64 (s.spaceRead pl.1 pl.2 size))

/-- The bytes of a scalar store written, and the instruction retired (R131). -/
def State.scalarWrite (s : State) (n : Fin 24) (w : BitVec 64) (size : Nat) : State :=
  let pl := s.scalarPlace n w
  ((s.spaceWrite pl.1 pl.2 (toBytes ((s.station n).rg (rdOf w)) size)).modStation n fun t => t.touchBoard.advance).retire n

/-- A scalar store (R131). -/
def State.scalarStore (s : State) (n : Fin 24) (w : BitVec 64) (size : Nat) : State :=
  s.issue n w (s.scalarNeed n w size true) fun s => s.scalarWrite n w size

/-- Whether an ST64 at an offset of station m's memory, from a program of context c, is a kick of a channel (R248). -/
def Chan.kicked (x : Chan) (m : Fin 24) (off : Nat) (c : Fin 8) : Bool :=
  x.kickEn && x.kickOffset.toNat * 8 == off && (x.kickStation == 0x1E || x.kickStation.toNat == m.val) &&
    x.ownValid && x.ownCtx == c && x.trig == 0

/-- The channel that an ST64 kicks: the lowest that meets every condition (R249). -/
def State.kickChan (s : State) (n : Fin 24) (w : BitVec 64) : Option (Fin 16) :=
  match s.scalarPlace n w with
  | (.station m, off) => (List.finRange 16).find? fun ch => (s.chan ch).kicked m off (s.station n).ctx
  | _ => none

/-- A kick store issued: it waits for KICK, and under an epoch it takes an entry of the closure buffer (R250, R251). -/
def State.issueKick (s : State) (n : Fin 24) (w : BitVec 64) (ch : Fin 16) : State :=
  let t := s.station n
  let v := t.rg (rdOf w)
  let e := s.tagOf n
  let s := (s.modStation n fun t =>
    { t.touchBoard.advance with kicks := t.kicks ++ [{ ch := ch, head := v, seq := t.issueSeq, epoch := e }] }).retire n
  match e with
  | some e => s.modCtx t.ctx fun x => { x with held := x.held ++ [⟨e, .kick n ch v 0⟩] }
  | none => s

/-- LD64 (R131). -/
def execLd64 (n : Fin 24) (w : BitVec 52) (s : State) : Host.Outcome State Fault Refusal :=
  .next (s.scalarLoad n (wordOf 1 0x10 w) 8)

/-- LD32 (R131). -/
def execLd32 (n : Fin 24) (w : BitVec 52) (s : State) : Host.Outcome State Fault Refusal :=
  .next (s.scalarLoad n (wordOf 1 0x11 w) 4)

/-- ST64 (R131), which may be a kick (R248). A kick store waits while a pending kick is held (R250), and it needs no SPEC
right for the kick word, which it does not write. -/
def execSt64 (n : Fin 24) (w : BitVec 52) (s : State) : Host.Outcome State Fault Refusal :=
  let x := wordOf 1 0x12 w
  .next <| match s.kickChan n x with
    | none => s.scalarStore n x 8
    | some ch =>
      s.issue n x { s.scalarNeed n x 8 true with spec := none, held := (s.tagOf n).isSome, full := (s.chan ch).pendKick.isSome }
        fun s => s.issueKick n x ch

/-- ST32 (R131). -/
def execSt32 (n : Fin 24) (w : BitVec 52) (s : State) : Host.Outcome State Fault Refusal :=
  .next (s.scalarStore n (wordOf 1 0x13 w) 4)

/-! ## An undefined opcode -/

/-- Whether a word's major and minor opcode are defined (R125, R126). -/
def opcodeDefined (w : BitVec 64) : Bool :=
  match majorOf w with
  | 1 => minorOf w ≤ 0x17
  | 2 => 1 ≤ minorOf w && minorOf w ≤ 3
  | 3 => 1 ≤ minorOf w && minorOf w ≤ 3
  | 4 => 1 ≤ minorOf w && minorOf w ≤ 2
  | 5 => 1 ≤ minorOf w && minorOf w ≤ 3
  | 6 => 1 ≤ minorOf w && minorOf w ≤ 0x0E
  | 7 => 1 ≤ minorOf w && minorOf w ≤ 4
  | 8 => 1 ≤ minorOf w && minorOf w ≤ 6
  | 9 => 1 ≤ minorOf w && minorOf w ≤ 3
  | _ => false

/-- UNDEFINED_OPCODE (R125, R126): the word faults with reason 0x01. The command stands for no word whose opcode is
defined. -/
def execUndefinedOpcode (n : Fin 24) (word : BitVec 64) (s : State) : Host.Outcome State Fault Refusal :=
  .next (s.when (!opcodeDefined word) fun s => s.issue n word { reasons := [0x01] } id)

end Sys2Proof.Machine
end

