-- ==== Sys2Proof/Machine/MemXfer.lean ====
section
/-!
DEFINITION. Memory-range transfers (R133 to R135): the checks at issue, the transfer captured there, and the movement of
the bytes when the owning engine completes it, with the conversions on store (R181) and accumulate-on-write (R97, R98).
-/

namespace Sys2Proof.Machine

/-- The offset of a transfer's first element within its parcel, modulo 2^64 (R135). -/
def Station.xferOff (t : Station) (w : BitVec 64) : Nat :=
  (BitVec.ofNat 64 (dOffset (t.rd (mD w))) + t.rg (mGoff w)).toNat

/-- The last byte of LENGTH elements from an offset, computed without wrap (R92). -/
def xferLast (d : BitVec 128) (off : Nat) : Nat := off + (dLength d - 1) * dStride d + 2 ^ dEsize d - 1

/-- The bytes of a transfer's buffer side (R135): twice the memory side for a store with CVT 1 or 2. -/
def bufferBytes (w : BitVec 64) (d : BitVec 128) (store : Bool) : Nat :=
  dLength d * 2 ^ dEsize d * (if store ∧ (mCvt w = 1 ∨ mCvt w = 2) then 2 else 1)

/-- Whether an accumulate breaks R98: elements of 4 bytes at offsets that are multiples of 4. -/
def accBad (d : BitVec 128) (off : Nat) : Bool :=
  dEsize d != 2 || off % 4 != 0 || (1 < dLength d && dStride d % 4 != 0)

/-- What a transfer asks of issue (R133 to R135, R88, R92, R98, R187). -/
def State.xferNeed (s : State) (n : Fin 24) (w : BitVec 64) (store acc : Bool) : Need :=
  let t := s.station n
  let d := t.rd (mD w)
  let p := s.parcelOfD n d
  let off := t.xferOff w
  let last := xferLast d off
  let sp := p.spaceFor n
  let base := p.base.toNat
  let k : RangeKind := if acc then .acc (BitVec.ofNat 2 (mAccop w)) else if store then .write else .read
  { gs := [mGoff w],
    reasons :=
      reserved (field w 27 0) ++ (if acc then reasonIf (mAccop w == 0) 0x1A else reserved (mAccop w)) ++
      reasonIf (acc && accBad d off) 0x03 ++ reasonIf (dBad d store) 0x04 ++
      reasonIf (mBuf w < 7 && bufSize (mBuf w) < 64 * mBoff w + bufferBytes w d store) 0x10 ++
      reasonIf (7 ≤ mBuf w || mCvt w == 3) 0x1A ++
      reasonIf ((!store && bufStoreOnly (mBuf w)) || (mCvt w != 0 && !bufStoreOnly (mBuf w)) ||
        (store && (mCvt w == 1 || mCvt w == 2) && dEsize d == 0)) 0x1B,
    bound := (s.parcelCheck p n true (if acc then .acc else if store then .write else .read) off last).map fun r =>
      boundDetail (dParcel d) r n.val (mD w),
    spec := if store && (s.tagOf n).isSome && !p.has 5 then some (boundDetail (dParcel d) 1 n.val (mD w)) else none,
    range := some (granules sp (base + off) (base + last) k) }

/-- The memory side of a transfer, captured at issue (R104, R135). -/
def State.xferOf (s : State) (n : Fin 24) (w : BitVec 64) : Xfer :=
  let t := s.station n
  let d := t.rd (mD w)
  let p := s.parcelOfD n d
  { space := p.spaceFor n, start := p.base.toNat + t.xferOff w, length := dLength d, esize := 2 ^ dEsize d,
    stride := dStride d }

/-- A transfer issued into the queue of the engine that owns its buffer (R134). -/
def State.issueXfer (s : State) (n : Fin 24) (w : BitVec 64) (store acc : Bool) : State :=
  s.issueEngine n (bufEngine (mBuf w)) (s.xferNeed n w store acc) { word := w, xfer := some (s.xferOf n w) }

/-- M_LD (R135). -/
def execMLd (n : Fin 24) (w : BitVec 52) (s : State) : Host.Outcome State Fault Refusal :=
  .next (s.issueXfer n (wordOf 2 0x01 w) false false)

/-- M_ST (R135). -/
def execMSt (n : Fin 24) (w : BitVec 52) (s : State) : Host.Outcome State Fault Refusal :=
  .next (s.issueXfer n (wordOf 2 0x02 w) true false)

/-- M_STA (R135, R97). -/
def execMSta (n : Fin 24) (w : BitVec 52) (s : State) : Host.Outcome State Fault Refusal :=
  .next (s.issueXfer n (wordOf 2 0x03 w) true true)

/-! ## The effect -/

/-- The bytes of a transfer's memory side, element by element (R135). -/
def State.xferRead (s : State) (x : Xfer) : List Byte :=
  if x.stride = x.esize then s.spaceRead x.space x.start (x.length * x.esize)
  else (List.range x.length).flatMap fun i => s.spaceRead x.space (x.start + i * x.stride) x.esize

/-- Bytes written to a transfer's memory side, element by element in ascending order (R135). -/
def State.xferWrite (s : State) (x : Xfer) (bs : List Byte) : State :=
  if x.stride = x.esize then s.spaceWrite x.space x.start bs
  else (List.range x.length).foldl (fun s i => s.spaceWrite x.space (x.start + i * x.stride)
    ((bs.drop (i * x.esize)).take x.esize)) s

/-- The 16-bit values that n binary32 elements of a buffer convert to on store, and whether each saturated (R181). -/
def converted (cvt n : Nat) (bs : List Byte) : List (BitVec 16 × Bool) :=
  (List.range n).map fun i => convertStore cvt (BitVec.ofNat 32 (leAt bs (4 * i) 4))

/-- The bytes that a store takes from its buffer, converted as CVT says, and the flag (R135, R181). -/
def Station.storeBytes (t : Station) (w : BitVec 64) (x : Xfer) : List Byte × BitVec 7 :=
  let n := x.length * x.esize
  if mCvt w = 0 then ((t.buf (mBuf w)).readBytes (64 * mBoff w) n, 0)
  else
    let rs := converted (mCvt w) (n / 2) ((t.buf (mBuf w)).readBytes (64 * mBoff w) (2 * n))
    (rs.flatMap fun r => toBytes r.1 2, cvtFlags rs)

/-- The bytes after the accumulate of some new elements onto old ones, and the flags (R97). -/
def accumulated (op n : Nat) (old new : List Byte) : List (BitVec 32 × BitVec 2) :=
  (List.range n).map fun i => accumulate op (BitVec.ofNat 32 (leAt old (4 * i) 4)) (BitVec.ofNat 32 (leAt new (4 * i) 4))

/-- The effect of a transfer (R135): minor 1 loads, 2 stores, 3 accumulates. -/
def State.xferEffect (s : State) (n : Fin 24) (i : Issued) (x : Xfer) : State :=
  let w := i.word
  let c := (s.station n).ctx
  match minorOf w with
  | 1 => let bs := s.xferRead x; s.modStation n fun t => t.wbuf (mBuf w) (64 * mBoff w) bs
  | 2 =>
    let r := (s.station n).storeBytes w x
    let s := s.xferWrite x r.1
    if r.2 = 0 then s else s.defer c i.epoch (.qntFlags n r.2)
  | _ =>
    let r := (s.station n).storeBytes w x
    let rs := accumulated (mAccop w) x.length (s.xferRead x) r.1
    let s := s.xferWrite x (rs.flatMap fun r => toBytes r.1 4)
    let s := if r.2 = 0 then s else s.defer c i.epoch (.qntFlags n r.2)
    if accFlagsOf rs = 0 then s else s.defer c i.epoch (.accFlags n (accFlagsOf rs))

end Sys2Proof.Machine
end

