-- ==== Sys2Proof/Machine/Quant.lean ====
section
/-!
DEFINITION. The quantiser class (R140, R141): the checks at issue, and the effect of QNT, DQN and QACT when the quantiser
completes them (R176 to R180).
-/

namespace Sys2Proof.Machine

/-- Bytes of a source element: SRCT 0 BF16, 1 FP32 (R140). -/
def srcBytes (w : BitVec 64) : Nat := if qSrct w = 0 then 2 else 4

/-- Bytes of the scales of N elements (R179). A reserved GSZ gives no group, and no scales. -/
def scalesBytes (w : BitVec 64) : Nat := if qGsz w < 3 then qN w / groupSize (qGsz w) * scaleBytes (qSfmt w) else 0

/-- Bytes of N codes with their scales (R179). -/
def codedBytes (w : BitVec 64) : Nat := qN w * codeWidth (qFmt w) / 8 + scalesBytes w

/-- The first byte after `stop` at which statistics start, and their length added (R179, R180). -/
def withStats (w : BitVec 64) (stop : Nat) : Nat :=
  if qStat w && qGsz w < 3 then (stop + 7) / 8 * 8 + qN w / groupSize (qGsz w) * 8 else stop

/-- The checks that every Q instruction shares (R140, R141). -/
def qShared (w : BitVec 64) : List Nat :=
  reserved (field w 23 0) ++ reasonIf (qGsz w < 3 && qN w % groupSize (qGsz w) != 0) 0x12 ++ reasonIf (qGsz w == 3) 0x1A

/-- Whether FMT names a narrow code; 0, 6 and 7 do not (R140). -/
def qFmtOk (w : BitVec 64) : Bool := 1 ≤ qFmt w && qFmt w ≤ 5

/-- The checks of QNT and DQN on FMT and the scale format (R140, R141). -/
def qCode (w : BitVec 64) : List Nat :=
  reserved (qAbits w) ++ reasonIf (!qFmtOk w) 0x1A ++ reasonIf (qFmt w == 5 && !qSfmt w) 0x1B

/-- What QNT asks of issue. -/
def qntNeed (w : BitVec 64) : Need :=
  { reasons := qShared w ++ qCode w ++ reasonIf (4096 < 64 * qSoff w + qN w * srcBytes w) 0x10 ++
      reasonIf (qFmtOk w && 4096 < withStats w (64 * qDoff w + codedBytes w)) 0x10 }

/-- What DQN asks of issue: STAT and SRCT are reserved. -/
def dqnNeed (w : BitVec 64) : Need :=
  { reasons := qShared w ++ qCode w ++ reserved (field w 45 44) ++
      reasonIf (qFmtOk w && 4096 < 64 * qSoff w + codedBytes w) 0x10 ++
      reasonIf (4096 < 64 * qDoff w + 2 * qN w) 0x10 }

/-- What QACT asks of issue: FMT is reserved; the codes go to the array-input buffer, the scales and statistics after the
source. -/
def qactNeed (w : BitVec 64) : Need :=
  { reasons := qShared w ++ reserved (qFmt w) ++ reasonIf (qAbits w == 3) 0x1A ++
      reasonIf (4096 < 64 * qDoff w + qN w) 0x10 ++
      reasonIf (4096 < withStats w (64 * qSoff w + qN w * srcBytes w + scalesBytes w)) 0x10 }

/-- QNT (R140). -/
def execQnt (n : Fin 24) (w : BitVec 52) (s : State) : Host.Outcome State Fault Refusal :=
  .next (s.issueEngine n .quantiser (qntNeed (wordOf 5 0x01 w)) { word := wordOf 5 0x01 w })

/-- DQN (R140). -/
def execDqn (n : Fin 24) (w : BitVec 52) (s : State) : Host.Outcome State Fault Refusal :=
  .next (s.issueEngine n .quantiser (dqnNeed (wordOf 5 0x02 w)) { word := wordOf 5 0x02 w })

/-- QACT (R140). -/
def execQact (n : Fin 24) (w : BitVec 52) (s : State) : Host.Outcome State Fault Refusal :=
  .next (s.issueEngine n .quantiser (qactNeed (wordOf 5 0x03 w)) { word := wordOf 5 0x03 w })

/-- What a Q instruction writes, as (buffer, offset, bytes), and its flags: the source is read whole first. -/
def Station.quantResult (t : Station) (w : BitVec 64) : List (Nat × Nat × List Byte) × BitVec 7 :=
  let g := groupSize (qGsz w)
  let n := qN w
  match minorOf w with
  | 1 =>
    let xs := sourceElems (qSrct w) n (t.qnt.readBytes (64 * qSoff w) (n * srcBytes w))
    let r := quantise ((codeFmt (qFmt w)).getD .int4) (qSfmt w) (qStat w) g n xs
    ([(4, 64 * qDoff w, r.1)], r.2)
  | 2 =>
    let r := dequantise ((codeFmt (qFmt w)).getD .int4) (qSfmt w) g n (t.qnt.readBytes (64 * qSoff w) (codedBytes w))
    ([(4, 64 * qDoff w, r.1)], r.2)
  | _ =>
    let base := 64 * qSoff w + n * srcBytes w
    let xs := sourceElems (qSrct w) n (t.qnt.readBytes (64 * qSoff w) (n * srcBytes w))
    let r := quantAct (qBits w) (qSfmt w) (qStat w) g n base xs
    ([(5, 64 * qDoff w, r.1), (4, base, r.2.1)], r.2.2)

/-- The effect of a Q instruction as the quantiser completes it. -/
def State.quantEffect (s : State) (n : Fin 24) (i : Issued) : State :=
  let t := s.station n
  let r := t.quantResult i.word
  let s := s.modStation n fun t => r.1.foldl (fun t x => t.wbuf x.1 x.2.1 x.2.2) t
  if r.2 = 0 then s else s.defer t.ctx i.epoch (.qntFlags n r.2)

end Sys2Proof.Machine
end

