-- ==== Sys2Proof/Machine/ArrayIssue.lean ====
section
/-!
DEFINITION. The array class (R138, R139): issue, the start and the end of a conversion (R21, R30, R107, R150 to R157), the
multi-array accumulator (R158), and the interlock between the buffers of two engines (R106).
-/

namespace Sys2Proof.Machine

/-- CLR of MAA (R138). -/
def aClr (w : BitVec 64) : Bool := bit w 19

/-- The arrays that a MASK names, ascending. -/
def maskArrays (m : BitVec 32) : List (Fin 32) := setBits 32 m

/-- What ACONV asks of issue: a MASK that is not zero and names only WRITTEN arrays (R139, R165). -/
def State.aconvNeed (s : State) (n : Fin 24) (w : BitVec 64) : Need :=
  { reasons := reserved (field w 8 0) ++ reasonIf (aMask w == 0) 0x13,
    unwritten := ((maskArrays (aMask w)).find? fun a => (s.arrayNv n a).state != 1).map Fin.val }

/-- What MAA asks of issue (R139): it never faults on the state of an array. -/
def maaNeed (w : BitVec 64) : Need :=
  { reasons := reserved (field w 18 0) ++ reasonIf (aMask w == 0) 0x13 }

/-- ACONV (R139). -/
def execAconv (n : Fin 24) (w : BitVec 52) (s : State) : Host.Outcome State Fault Refusal :=
  let x := wordOf 4 0x01 w
  .next (s.issueEngine n .arrays (s.aconvNeed n x) { word := x, todo := aMask x })

/-- MAA (R158). -/
def execMaa (n : Fin 24) (w : BitVec 52) (s : State) : Host.Outcome State Fault Refusal :=
  .next (s.issueEngine n .arrays (maaNeed (wordOf 4 0x02 w)) { word := wordOf 4 0x02 w })

/-! ## Interlocks between buffers (R106) -/

/-- Whether two byte ranges (start, length) overlap. -/
def meetsRange (a b : Nat × Nat) : Bool := a.1 < b.1 + b.2 && b.1 < a.1 + a.2

/-- The bytes of a buffer that a store transfer reads. -/
def storeRange (i : Issued) (b : Nat) : List (Nat × Nat) :=
  match i.xfer with
  | some x =>
    if majorOf i.word = 2 && minorOf i.word ≠ 1 && mBuf i.word = b then [(64 * mBoff i.word, x.length * x.esize)] else []
  | none => []

/-- The bytes of DMU A that an instruction of the DMU reads. -/
def dmuReads (i : Issued) : List (Nat × Nat) :=
  let w := i.word
  if majorOf w = 3 && minorOf w ≠ 3 then
    (64 * xAoff w, xABytes w) :: (if xSsel w then [(64 * xSoff w, xScaleBytes w)] else [])
  else storeRange i 0

/-- The bytes of the array-input buffer that an instruction of the arrays reads. -/
def arrayReads (i : Issued) : List (Nat × Nat) :=
  if majorOf i.word = 4 && minorOf i.word = 1 then [(512 * aInslot i.word, 512)] else storeRange i 5

/-- The bytes of DMU A that a vector instruction writes. -/
def vecWritesA (i : Issued) : List (Nat × Nat) :=
  if majorOf i.word = 6 && minorOf i.word = 0x0E then [((immOf i.word).toNat, 256)] else []

/-- The bytes of the array-input buffer that a quantiser instruction writes. -/
def qntWritesIn (i : Issued) : List (Nat × Nat) :=
  if majorOf i.word = 5 && minorOf i.word = 3 then [(64 * qDoff i.word, qN i.word)] else []

/-- Whether a queue holds an instruction issued before `i` whose bytes, by `f`, meet some ranges. -/
def clashes (q : List Issued) (i : Issued) (f : Issued → List (Nat × Nat)) (rs : List (Nat × Nat)) : Bool :=
  q.any fun j => j.seq < i.seq && (f j).any fun a => rs.any (meetsRange a)

/-- Whether an instruction must wait for an earlier-issued one of another engine that still writes bytes it reads, or
still reads bytes it writes (R106, and the collision of chapter 8 on it). -/
def Station.heldBack (t : Station) (e : Engine) (i : Issued) : Bool :=
  match e with
  | .dmu => clashes t.vecQ i vecWritesA (dmuReads i)
  | .arrays => clashes t.qntQ i qntWritesIn (arrayReads i)
  | .vector => clashes t.dmuQ i dmuReads (vecWritesA i)
  | .quantiser => clashes t.arrQ i arrayReads (qntWritesIn i)

/-! ## Conversions -/

/-- A table entry placed in the rising list; the reset value is not listed. -/
def setEntry (i : Nat) (v : BitVec 32) (l : List (Nat × BitVec 32)) : List (Nat × BitVec 32) :=
  let lo := l.filter fun p => p.1 < i
  let hi := l.filter fun p => i < p.1
  if v = 0x00003C00 then lo ++ hi else lo ++ [(i, v)] ++ hi

/-- How many conversions of ACONVs run on a station (R21). -/
def Station.converting (t : Station) : Nat := t.arrQ.foldl (fun k i => k + i.convs.length) 0

/-- Whether an array of a station is converting. -/
def Station.arrayBusy (t : Station) (a : Fin 32) : Bool := t.arrQ.any fun i => i.convs.any fun c => c.array == a

/-- The post-processed output of a conversion, 256 binary32 lanes (R150 to R156). The converter's codes are free values
(R151). -/
def State.convOutput (s : State) (n : Fin 24) (w : BitVec 64) (c : Conv) : List Byte :=
  let t := s.station n
  let range := field c.ppset 7 5
  let img := (s.arrayNv n c.array).image
  let input := fun r => t.arr.read (512 * aInslot w + r)
  let level := fun i => img.read i
  let code := fun j k => (Config.converterCode c.stamp k j (idealSum input level k j) range).toInt
  let table := (t.arrays[c.array]).pptab
  let entry := fun j => ((table.find? fun p => p.1 == j).map Prod.snd).getD 0x00003C00
  let col := fun j => postColumn (field c.ppset 1 0) (entry j) (convSum (aPlanes w) (aSigned w) c.zp.toInt (code j))
  (List.range 256).flatMap fun i => toBytes (poolLane (field c.ppset 3 2) (if bit c.ppset 4 then 4 else 2) col i) 4

/-- The oldest conversion that runs on a station ends: its output is in its array's latch (R139). -/
def State.endConv (s : State) (n : Fin 24) : State :=
  match (s.station n).arrQ.find? fun i => !i.convs.isEmpty with
  | some i =>
    match i.convs with
    | c :: rest =>
      let out := s.convOutput n i.word c
      s.modStation n fun t =>
        { t with latches := t.latches.writeBytes (1024 * c.array.val) out,
                 arrQ := t.arrQ.map fun j => if j.seq = i.seq then { j with convs := rest } else j }
    | [] => s
  | none => s

/-- The ACONV whose next array may start: the first in the queue with arrays to start, behind only ACONVs that have
started all of theirs (R105, R139). -/
def nextConv : List Issued → Option Issued
  | [] => none
  | i :: t =>
    if majorOf i.word = 4 && minorOf i.word = 1 then
      if i.todo = 0 then nextConv t else some i
    else none

/-- Whether an ACONV of a station waits for a slot (R162). -/
def Station.convWaits (t : Station) : Bool := (nextConv t.arrQ).isSome

/-- Whether a benchmark repetition holds a conversion slot of a station (R162): a measurement is under way, a slot is free, no
issued ACONV waits for one, and the array itself does not convert. -/
def Station.benchRuns (t : Station) : Bool :=
  t.benchBusy && t.converting < 2 && !t.convWaits && !t.arrayBusy t.benchArray

/-- Whether an array of a station converts, for an ACONV or in a benchmark repetition (STN_ARR_STAT.CONVERTING). -/
def Station.convertsNow (t : Station) (a : Fin 32) : Bool := t.arrayBusy a || (t.benchRuns && t.benchArray == a)

/-- A write to a table entry, or to the zero point, takes effect. -/
def Station.applyWrite (t : Station) (w : HeldWrite) : Station :=
  { t with arrays := upd t.arrays w.array fun r =>
      match w.entry with
      | some i => { r with pptab := setEntry i.val w.value r.pptab }
      | none => { r with zp := w.value.setWidth 10 } }

/-- The writes that were held for an array take effect, in their order: its conversion's output is in the latch (R157). -/
def Station.releaseArray (t : Station) (a : Fin 32) : Station :=
  (t.heldWrites.filter fun w => w.array == a).foldl Station.applyWrite
    { t with heldWrites := t.heldWrites.filter fun w => w.array != a }

/-- One array's conversion starts (R139, R157): what an earlier conversion held back takes effect first, and the set and the
zero point are read now. -/
def State.startConv (s : State) (n : Fin 24) (i : Issued) (a : Fin 32) : State :=
  let t := (s.station n).releaseArray a
  let c : Conv :=
    { array := a, ppset := t.ppset[Fin.ofNat 16 (aPpsel i.word)], zp := (t.arrays[a]).zp, stamp := s.stamp }
  (s.modStation n fun t =>
    { t.releaseArray a with arrQ := t.arrQ.map fun j =>
        if j.seq = i.seq then { j with todo := setBit j.todo a.val false, convs := j.convs ++ [c] } else j }).nextStamp

/-- CONVERSION_START (R107, R21, R30): the next array of the oldest waiting ACONV starts. Where both slots are taken, or
the array itself converts, the oldest conversion ends first. -/
def execConversionStart (n : Fin 24) (s : State) : Host.Outcome State Fault Refusal :=
  .next <| match nextConv (s.station n).arrQ with
    | none => s
    | some i =>
      match maskArrays i.todo with
      | [] => s
      | a :: _ =>
        s.when (s.stationsOn && !s.main.pwr.switching && !(s.station n).heldBack .arrays i) fun s =>
          let s := if 2 ≤ (s.station n).converting then s.endConv n else s
          let s := if (s.station n).arrayBusy a then s.endConv n else s
          s.startConv n i a

/-! ## The multi-array accumulator -/

/-- The accumulator after MAA (R158). -/
def Station.maaEffect (t : Station) (w : BitVec 64) : Station :=
  let old := (List.range 256).map fun l => if aClr w then (0 : BitVec 32) else BitVec.ofNat 32 (t.maa.readLE (4 * l) 4)
  let acc := (maskArrays (aMask w)).foldl (fun acc a =>
    acc.mapIdx fun l x => add32 x (BitVec.ofNat 32 (t.latches.readLE (1024 * a.val + 4 * l) 4))) old
  t.wbuf 6 0 (acc.flatMap fun x => toBytes x 4)

end Sys2Proof.Machine
end

