-- ==== Sys2Proof/Machine/LinkOps.lean ====
section
/-!
DEFINITION. The link's messages, flits, credits and routes (R254 to R262): the bytes of a message, its cutting into flits,
what a port sends, and what it keeps of what it received. The meanings of the messages stand in Machine/Link.lean.
-/

namespace Sys2Proof.Machine

/-! ## Messages as bytes (R256) -/

/-- The OP code of a message (R256). -/
def opCode : MsgOp → Nat
  | .write => 1
  | .read => 2
  | .markAdd => 3
  | .flush => 4
  | .readResp => 5
  | .flushAck => 6
  | .errResp => 7
  | .abort => 8
  | .hello => 9

/-- The operation of an OP code; none where it is reserved (R256). -/
def opOfCode (c : Nat) : Option MsgOp :=
  [none, some MsgOp.write, some .read, some .markAdd, some .flush, some .readResp, some .flushAck, some .errResp,
   some .abort, some .hello].getD c none

/-- The virtual channel of an operation: 0 control, 1 request, 2 response (R255, R256). -/
def opVc : MsgOp → Nat
  | .write | .read | .markAdd | .flush => 1
  | .readResp | .flushAck | .errResp => 2
  | .abort | .hello => 0

/-- The data bytes that a message of an operation carries (R256). -/
def dataLen (op : MsgOp) (len : BitVec 8) : Nat :=
  match op with
  | .write | .readResp => len.toNat + 1
  | _ => 0

/-- The 16 header bytes and the data of a message; a field that its operation does not have is zero (R256). -/
def msgBytes (m : Msg) : List Byte :=
  let b9 : Nat :=
    match m.op with
    | .write => m.ch.val
    | .read | .flush | .readResp | .flushAck | .errResp => m.tag.val
    | _ => 0
  let b10 : Byte :=
    match m.op with
    | .write | .read | .readResp => m.len
    | _ => 0
  let b12 : List Byte :=
    if m.op = .abort then [BitVec.ofNat 8 m.origin.val, m.aseq, 0, 0] else toBytes (m.off.setWidth 32) 4
  [BitVec.ofNat 8 (opCode m.op), BitVec.ofNat 8 (m.src.val + 8 * m.dst.val)] ++ toBytes (m.job.setWidth 16) 2 ++
    [m.gen, BitVec.ofNat 8 b9, b10, if m.op = .markAdd then BitVec.ofNat 8 m.mark.val else 0] ++ b12 ++
    [if m.op = .flushAck && m.refused then 1 else 0, 0, 0, 0] ++ padTo (dataLen m.op m.len) m.data

/-- Whether a reserved bit of the 16 header bytes is set, for the message's own operation (R256). DEDUCED (log entry 83): a field
that the table gives to named operations is reserved in the others. -/
def headerBad (bs : List Byte) : Bool :=
  let b := fun i => (bs.getD i 0).toNat
  let op := opOfCode (b 0 % 16)
  let tag := op.any fun o => [MsgOp.read, .flush, .readResp, .flushAck, .errResp].contains o
  let len := op.any fun o => [MsgOp.write, .read, .readResp].contains o
  16 ≤ b 0 || 64 ≤ b 1 || 16 ≤ b 3 || (if op = some .write then 16 else if tag then 64 else 1) ≤ b 5 || (!len && b 6 != 0) ||
    (if op = some .markAdd then 64 else 1) ≤ b 7 ||
    (if op = some .abort then 8 ≤ b 8 || b 10 != 0 || b 11 != 0 else 16 ≤ b 11) ||
    (if op = some .flushAck then 2 else 1) ≤ b 12 || b 13 != 0 || b 14 != 0 || b 15 != 0

/-- The message that header bytes and data spell; none where it is dropped (R256). -/
def msgOf (bs : List Byte) : Option Msg :=
  if headerBad bs then none
  else (opOfCode (bs.getD 0 0).toNat).map fun op =>
    { op := op, src := Fin.ofNat 8 (leAt bs 1 1), dst := Fin.ofNat 8 (leAt bs 1 1 / 8), job := BitVec.ofNat 12 (leAt bs 2 2),
      gen := bs.getD 4 0, tag := Fin.ofNat 64 (leAt bs 5 1), ch := Fin.ofNat 16 (leAt bs 5 1), len := bs.getD 6 0,
      mark := Fin.ofNat 64 (leAt bs 7 1), off := BitVec.ofNat 28 (leAt bs 8 4), origin := Fin.ofNat 8 (leAt bs 8 1),
      aseq := bs.getD 9 0, refused := bs.getD 12 0 != 0, data := (bs.drop 16).take (dataLen op (bs.getD 6 0)) }

/-- The length of the message whose header bytes have arrived: header and data. A reserved OP carries none (R256). -/
def msgLength (bs : List Byte) : Nat :=
  16 + ((opOfCode (leAt bs 0 1 % 16)).map fun op => dataLen op (bs.getD 6 0)).getD 0

/-- Cut bytes into bodies of 56 bytes, at most n of them (R256). -/
def bodies : Nat → List Byte → List (List Byte)
  | 0, _ => []
  | n + 1, bs => if bs = [] then [] else padTo 56 (bs.take 56) :: bodies n (bs.drop 56)

/-- The flits of a message before they are sent: the first has SOM (R255). -/
def msgFlits (m : Msg) : List OutFlit :=
  ((bodies 6 (msgBytes m)).mapIdx fun i b => { som := i == 0, body := word 448 b })

/-! ## Flits (R255) -/

/-- CRC-32 of bytes (R239, R255). -/
def crc32 (bs : List Byte) : BitVec 32 := crcRun 2 0xFFFFFFFF bs ^^^ 0xFFFFFFFF

/-- The 64 bytes of a flit (R255). -/
def flitBytes (sq ack : BitVec 8) (vc : Nat) (nak som : Bool) (crvc crn : Nat) (body : BitVec 448) : BitVec 512 :=
  let b2 := vc + (if nak then 4 else 0) + (if som then 8 else 0)
  let head : List Byte := [sq, ack, BitVec.ofNat 8 b2, BitVec.ofNat 8 (crvc + 4 * crn)] ++ toBytes body 56
  word 512 (head ++ toBytes (crc32 head) 4)

/-- The credits that the next flit returns: virtual channel and count, at most 63 (R255, R259). -/
def Port.creditReturn (p : Port) : Nat × Nat :=
  if p.retCtl ≠ 0 then (0, min 63 p.retCtl)
  else if p.retReq ≠ 0 then (1, min 63 p.retReq)
  else (2, min 63 p.retRsp)

/-- The port after it returned those credits. -/
def Port.returned (p : Port) : Port :=
  let r := p.creditReturn
  if r.1 = 0 then { p with retCtl := p.retCtl - r.2 }
  else if r.1 = 1 then { p with retReq := p.retReq - r.2 }
  else { p with retRsp := p.retRsp - r.2 }

/-- One flit sent on a virtual channel: kept until an ACK covers it; it acknowledges and returns credits (R255, R257). -/
def Port.sendFlit (p : Port) (vc : Nat) (f : OutFlit) : Port :=
  let r := p.creditReturn
  let ack := p.rxSeq - 1
  let sent : SentFlit := ⟨p.txSeq, flitBytes p.txSeq ack vc false f.som r.1 r.2 f.body⟩
  { p.returned with txSeq := p.txSeq + 1, flitsTx := p.flitsTx + 1, replay := p.replay ++ [sent], ackDue := 0, ackSent := ack,
                    wire := p.wire ++ [sent.bytes] }

/-- An idle flit sent: it carries the next SEQ, acknowledges, returns credits, and may ask for a replay (R255, R257). -/
def Port.idleFlit (p : Port) (nak : Bool) : Port :=
  let r := p.creditReturn
  let ack := p.rxSeq - 1
  { p.returned with ackDue := 0, ackSent := ack, wire := p.wire ++ [flitBytes p.txSeq ack 3 nak false r.1 r.2 0] }

/-- Credits that no other flit has taken returned by idle flits, at most n of them (R259). -/
def Port.creditFlits : Nat → Port → Port
  | 0, p => p
  | n + 1, p => if p.retCtl = 0 && p.retReq = 0 && p.retRsp = 0 then p else Port.creditFlits n (p.idleFlit false)

/-- Whether a virtual channel has a flit to send: the next one of its oldest message. -/
def flitReady (q : List OutMsg) : Bool := q.head?.any fun m => !m.flits.isEmpty

/-- The virtual channel whose flit goes next: control first, then response, then request, each only with a credit (R259). -/
def Port.nextVc (p : Port) : Option Nat :=
  if flitReady p.outCtl ∧ p.credCtl ≠ 0 then some 0
  else if flitReady p.outRsp ∧ p.credRsp ≠ 0 then some 2
  else if flitReady p.outReq ∧ p.credReq ≠ 0 then some 1
  else none

/-- The next flit of the oldest message of a virtual channel, what stays, and the port whose slot it leaves. The message goes when
it has no more flits: the flits of two messages do not mix (R259). -/
def takeFlitOf (q : List OutMsg) : Option (OutFlit × List OutMsg × Option (Fin 2)) :=
  match q with
  | [] => none
  | m :: t =>
    match m.flits with
    | [] => none
    | f :: fs => some (f, if fs.isEmpty && m.left = 0 then t else { m with flits := fs } :: t, m.origin)

/-- The next flit of a virtual channel sent against a credit (R259), and the port whose slot it leaves. -/
def Port.sendVc (p : Port) (vc : Nat) : Port × Option (Fin 2) :=
  match vc with
  | 0 => match takeFlitOf p.outCtl with
    | some (f, q, o) => ({ p with outCtl := q, credCtl := p.credCtl - 1 }.sendFlit 0 f, o)
    | none => (p, none)
  | 1 => match takeFlitOf p.outReq with
    | some (f, q, o) => ({ p with outReq := q, credReq := p.credReq - 1 }.sendFlit 1 f, o)
    | none => (p, none)
  | _ => match takeFlitOf p.outRsp with
    | some (f, q, o) => ({ p with outRsp := q, credRsp := p.credRsp - 1 }.sendFlit 2 f, o)
    | none => (p, none)

/-- Slots of a virtual channel freed, so that their credits can be returned (R259). -/
def Port.freeSlots (p : Port) (vc n : Nat) : Port :=
  match vc with
  | 0 => { p with retCtl := p.retCtl + n }
  | 1 => { p with retReq := p.retReq + n }
  | _ => { p with retRsp := p.retRsp + n }

/-- What a port sends now, at most n flits; none while 64 are not covered (R257). A forwarded flit frees its slot where it came
in (R259). -/
def State.pumpPort : Nat → State → Fin 2 → State
  | 0, s, _ => s
  | n + 1, s, p =>
    let x := s.port p
    if 64 ≤ x.replay.length then s
    else match x.nextVc with
      | none => s
      | some vc =>
        let r := x.sendVc vc
        let s := s.modPort p fun _ => r.1
        State.pumpPort n (match r.2 with
          | some q => s.modPort q fun y => y.freeSlots vc 1
          | none => s) p

/-- The flits that wait at a port. -/
def Port.waiting (p : Port) : Nat := ((p.outCtl ++ p.outRsp ++ p.outReq).map fun m => m.flits.length).foldl (· + ·) 0

/-- Credits to return go out in idle flits, on a port that is up. -/
def Port.returnIdle (p : Port) : Port := if p.state = 2 then Port.creditFlits 256 p else p

/-- Everything that a port can send now is sent; then the credits that are still to be returned (R257, R259). -/
def State.pumpAll (s : State) (p : Fin 2) : State :=
  ((State.pumpPort (s.port p).waiting s p).modPort 0 Port.returnIdle).modPort 1 Port.returnIdle

/-- A message of flits put behind the others of its virtual channel. -/
def Port.enqueue (p : Port) (vc : Nat) (m : OutMsg) : Port :=
  match vc with
  | 0 => { p with outCtl := p.outCtl ++ [m] }
  | 1 => { p with outReq := p.outReq ++ [m] }
  | _ => { p with outRsp := p.outRsp ++ [m] }

/-- The chip's own ID (R254). -/
abbrev State.chipId (s : State) : Fin 8 := s.aon.linkId

/-- A message queued on its virtual channel and sent as far as credits go (R259). -/
def State.queueMsg (s : State) (p : Fin 2) (m : Msg) : State :=
  (s.modPort p fun x => x.enqueue (opVc m.op) { flits := msgFlits m, job := if m.src = s.chipId then some m.job else none }).pumpAll p

/-- A message sent through a port; a port that is not up discards it (R258). -/
def State.sendOn (s : State) (p : Fin 2) (m : Msg) : State :=
  if (s.port p).state = 2 then s.queueMsg p m else s

/-- The port through which a chip is reached; none where it is unreachable (R260). -/
def State.routeOf (s : State) (chip : Fin 8) : Option (Fin 2) :=
  match field s.main.link.route.active (2 * chip.val + 1) (2 * chip.val) with
  | 1 => some 0
  | 2 => some 1
  | _ => none

/-- A message sent toward its destination (R260). -/
def State.sendMsg (s : State) (m : Msg) : State :=
  match s.routeOf m.dst with
  | some p => s.sendOn p m
  | none => s

/-- The other port. -/
def otherPort (p : Fin 2) : Fin 2 := 1 - p

/-! ## Acknowledgement and replay (R257) -/

/-- ACK applied: the flits that it covers leave the replay buffer, and the count of NAKs starts again where it advanced. -/
def Port.ack (p : Port) (a : BitVec 8) : Port :=
  match p.replay.findIdx? fun f => f.seq == a with
  | some i => { p with replay := p.replay.drop (i + 1), naks := 0 }
  | none => p

/-- A NAK received: the covered flits leave, it is counted, and every flit that stays is sent again in order (R257). A flit sent
again is as it was sent first, with the credits that it returned. -/
def Port.nakSeen (p : Port) (a : BitVec 8) : Port :=
  let p := p.ack a
  { p with naks := p.naks + 1, cntReplay := p.cntReplay + 1, wire := p.wire ++ p.replay.map SentFlit.bytes,
           flitsTx := p.flitsTx + BitVec.ofNat 64 p.replay.length }

/-- A flit discarded by a receiver: one NAK is sent, in an idle flit, which also acknowledges (R257). -/
def Port.discard (p : Port) : Port := { p with nakSent := true }.idleFlit true

/-! ## Receiving (R255 to R257, R259) -/

/-- Credits that a flit returned added to their virtual channel (R255, R259). -/
def Port.takeCredits (p : Port) (crvc crn : Nat) : Port :=
  match crvc with
  | 0 => { p with credCtl := p.credCtl + crn }
  | 1 => { p with credReq := p.credReq + crn }
  | 2 => { p with credRsp := p.credRsp + crn }
  | _ => p

/-- The message received in part on a virtual channel. -/
def Port.rx (p : Port) (vc : Nat) : Option RxMsg :=
  match vc with
  | 0 => p.rxCtl
  | 1 => p.rxReq
  | _ => p.rxRsp

/-- That message replaced. -/
def Port.setRx (p : Port) (vc : Nat) (r : Option RxMsg) : Port :=
  match vc with
  | 0 => { p with rxCtl := r }
  | 1 => { p with rxReq := r }
  | _ => { p with rxRsp := r }

/-- A flit received in order: counted, and acknowledged by an idle flit where it is the sixteenth without an ACK (R257). -/
def Port.inOrder (p : Port) : Port :=
  let p := { p with rxSeq := p.rxSeq + 1, flitsRx := p.flitsRx + 1, ackDue := p.ackDue + 1 }
  if 16 ≤ p.ackDue then p.idleFlit false else p

/-- The flits of a message whose header bytes have arrived (R256). -/
def msgFlitCount (bs : List Byte) : Nat := (msgLength bs + 55) / 56

/-- The way of a message whose first flit arrives on a virtual channel (R256, R260): its route is the one of that moment (R262). -/
def State.rxStart (s : State) (vc : Nat) (bs : List Byte) : RxMsg :=
  match msgOf bs with
  | none => { way := .drop, left := msgFlitCount bs - 1, held := 1 }
  | some m =>
    let left := msgFlitCount bs - 1
    if opVc m.op ≠ vc then { way := .drop, left := left, held := 1 }
    else if m.op = .abort || m.op = .hello || m.dst = s.chipId then { bytes := bs, left := left, held := 1 }
    else match s.routeOf m.dst with
      | some r => { way := .forward r, left := left, held := 1 }
      | none => { way := .drop, left := left, held := 1 }

/-- Messages of a port that were forwarded in part and will not be completed, and the ports they came from forgotten: what a port
that goes down leaves in the other one's queues (R258). -/
def cutForward (p : Fin 2) (q : List OutMsg) : List OutMsg :=
  (q.filter fun m => !(m.origin == some p && m.left != 0)).map fun m => if m.origin = some p then { m with origin := none } else m

/-- A flit of a message that a port forwards joins the message in the outgoing queue (R259, R260). -/
def addForward (p : Fin 2) (f : OutFlit) (left : Nat) (q : List OutMsg) : List OutMsg :=
  if f.som then q ++ [{ flits := [f], left := left, origin := some p }]
  else q.map fun m => if m.origin = some p && m.left != 0 then { m with flits := m.flits ++ [f], left := left } else m

/-- That flit put into its virtual channel's queue. -/
def Port.forwarded (x : Port) (vc : Nat) (p : Fin 2) (f : OutFlit) (left : Nat) : Port :=
  match vc with
  | 0 => { x with outCtl := addForward p f left x.outCtl }
  | 1 => { x with outReq := addForward p f left x.outReq }
  | _ => { x with outRsp := addForward p f left x.outRsp }

/-- A port at the start of operation: sequence numbers and credits at their first values (R257, R259). -/
def Port.restart (p : Port) : Port :=
  { p with txSeq := 0, rxSeq := 0, naks := 0, nakSent := false, ackDue := 0, ackSent := 255, replay := [], outCtl := [],
           outRsp := [], outReq := [], credCtl := 8, credReq := 64, credRsp := 64, rxCtl := none, rxReq := none,
           rxRsp := none, retCtl := 0, retReq := 0, retRsp := 0, wire := [] }

/-! ## Response tags (R266, R267) -/

/-- The lowest free response tag. -/
def State.freeTag (s : State) : Option (Fin 64) := (List.finRange 64).find? fun t => (s.main.link.tags[t]).isNone

/-- A tag taken or freed. -/
def State.setTag (s : State) (t : Fin 64) (u : Option TagUse) : State :=
  s.modLink fun l => { l with tags := l.tags.set t u }

/-- ABORT of a job, with this chip's ID and the next ASEQ, on every port that is up (R268). -/
def State.sendAbort (s : State) (job : BitVec 12) (ports : List (Fin 2)) : State :=
  let up := ports.filter fun p => (s.port p).state = 2
  up.foldl (fun s p =>
    let m : Msg := { op := .abort, src := s.chipId, dst := s.chipId, job := job, origin := s.chipId, aseq := s.main.link.aseq }
    s.sendOn p m) (if up = [] then s else s.modLink fun l => { l with aseq := l.aseq + 1 })

end Sys2Proof.Machine
end

