-- ==== Sys2Proof/Machine/NandOps.lean ====
section
/-!
DEFINITION. The NAND controller's operations (chapter 10): pages and profiles, the randomiser, the checks of a request
(R200), streams and LUN queues (R201, R210), the choice of the next operation (R211), outcomes (R213 to R217) and the
bytes that a page holds.
-/

namespace Sys2Proof.Machine

/-! ## Geometry and profiles -/

/-- The main area of a page in bytes (NFC_GEOM.MAIN). -/
def Nfc.mainBytes (n : Nfc) : Nat := [8192, 16384, 18432].getD n.main.toNat 18432
/-- Main and spare area of a page in bytes. -/
def Nfc.pageBytes (n : Nfc) : Nat := n.mainBytes + n.spare.toNat
/-- The row address of a page (R199). -/
def Nfc.row (n : Nfc) (block page : Nat) : Nat := block * 2 ^ n.pageBits.toNat + page
/-- The channel of a LUN (R199). -/
def lunChannel (u : Fin 32) : Nat := u.val % 4
/-- The other LUN of a LUN's target (R199). -/
def lunMate (u : Fin 32) : Fin 32 := Fin.ofNat 32 (u.val ^^^ 4)

/-- The active register of a profile. -/
def Nfc.prof (n : Nfc) (p : Nat) : BitVec 64 := n.cfg.active.prof.getD p 0
/-- CPP of a profile (R204). -/
def profCpp (r : BitVec 64) : Nat := field r 10 8
/-- Bytes of a codeword's columns: 4,104 and the parity (R204). -/
def profWords (r : BitVec 64) : Nat := 4104 + 128 + 8 * field r 5 0
/-- RAND of a profile. -/
def profRand (r : BitVec 64) : Bool := bit r 12
/-- SEED of a profile. -/
def profSeed (r : BitVec 64) : BitVec 32 := r.extractLsb' 32 32

/-- A profile as a commit leaves it: invalid, with CPP 0, where it does not fit the page or PARITY_N is above 47 (R204). -/
def Nfc.fixProf (n : Nfc) (r : BitVec 64) : BitVec 64 :=
  if n.pageBytes < profCpp r * profWords r || 47 < field r 5 0 then r &&& ~~~0x700 else r

/-! ## The randomiser (R206) -/

/-- The state of the keystream after one bit. -/
def lfsrStep (s : BitVec 32) : BitVec 32 :=
  (s <<< 1) ||| flag 32 0 (bit s 31 ^^ bit s 21 ^^ bit s 1 ^^ bit s 0)

/-- Eight bits of the keystream, bit 0 first, and the state after them. -/
def lfsrByte (s : BitVec 32) : Byte × BitVec 32 :=
  (List.range 8).foldl (fun p i => (p.1 ||| flag 8 i (bit p.2 31), lfsrStep p.2)) (0, s)

/-- n bytes of the keystream. -/
def lfsrBytes : Nat → BitVec 32 → List Byte
  | 0, _ => []
  | n + 1, s => (lfsrByte s).1 :: lfsrBytes n (lfsrByte s).2

/-- The keystream of a page of a profile, n bytes from column 0 (R206). -/
def keystream (r : BitVec 64) (u row n : Nat) : List Byte :=
  let s : BitVec 32 := BitVec.ofNat 32 (row + u * 2 ^ 24) ^^^ profSeed r
  if profRand r then lfsrBytes n (if s = 0 then 1 else s) else zeros n

/-- Bytes XORed with bytes. -/
def xorBytes (a b : List Byte) : List Byte := List.zipWith (· ^^^ ·) a b

/-! ## Bytes of a page -/

/-- Where column 0 of a page stands in State.nand. -/
def nandKey (u row : Nat) : Nat := (u * 2 ^ 24 + row) * 2 ^ 15

/-- n flash bytes of a page from a column. State.nand holds them inverted. -/
def State.flash (s : State) (u row col n : Nat) : List Byte := (s.nand.readBytes (nandKey u row + col) n).map (~~~ ·)

/-- The metadata that the controller writes and expects (R205). -/
def metaBytes (row u k profile : Nat) : List Byte :=
  toBytes (BitVec.ofNat 24 row) 3 ++ [BitVec.ofNat 8 u, BitVec.ofNat 8 k, BitVec.ofNat 8 profile, 0, 0]

/-- The columns of codeword k as they stand before randomising: data, metadata, parity (R204, R205). -/
def codewordBytes (r : BitVec 64) (u row k profile : Nat) (data : List Byte) : List Byte :=
  let d := padTo 4096 data ++ metaBytes row u k profile
  d ++ (List.range (profWords r - 4104)).map fun i => Config.parityByte (k * profWords r + 4104 + i) d

/-- The flash bytes of a programmed page (R204 to R206). -/
def pageImage (n : Nfc) (u row profile : Nat) (data : List Byte) : List Byte :=
  let r := n.prof profile
  let cols := (List.range (profCpp r)).flatMap fun k =>
    codewordBytes r u row k profile ((data.drop (4096 * k)).take 4096)
  xorBytes cols (keystream r u row cols.length) ++ List.replicate (n.pageBytes - cols.length) 0xFF

/-- The columns of codeword k de-randomised (R206). -/
def State.codeword (s : State) (u row k profile n : Nat) : List Byte :=
  let r := s.main.nfc.prof profile
  let col := k * profWords r
  xorBytes (s.flash u row col n) ((keystream r u row (col + n)).drop col)

/-- Whether codeword k counts as erased: its raw bits hold at most ERASED_MAX zeros (R207). -/
def State.cwErased (s : State) (u row k profile : Nat) : Bool :=
  let r := s.main.nfc.prof profile
  let zs := (s.nand.readBytes (nandKey u row + k * profWords r) (profWords r)).foldl (fun a b => a + popCount b) 0
  zs ≤ field s.main.nfc.cfg.active.ladder 23 16

/-- Whether the metadata of codeword k is what the controller expects (R205). -/
def State.metaOk (s : State) (u row k profile : Nat) : Bool :=
  (s.codeword u row k profile 4104).drop 4096 == metaBytes row u k profile

/-- A page or a block whose contents became undefined: free values from a stamp. -/
def State.scrambleNand (s : State) (key n : Nat) : State :=
  { s with nand := s.nand.writeBytes key ((List.range n).map fun i => Config.freeByte s.stamp (key + i)) }.nextStamp

/-- The page of a program, or the block of an erase, made undefined (R214, R215; chapter 2, Collisions). -/
def State.spoil (s : State) (u : Nat) (o : NandOp) : State :=
  let n := s.main.nfc
  if o.kind = .program then s.scrambleNand (nandKey u (n.row o.block o.page)) (2 ^ 15)
  else if o.kind = .erase then s.scrambleNand (nandKey u (n.row o.block 0)) (2 ^ 15 * 2 ^ n.pageBits.toNat)
  else s

/-! ## The checks of a request (R200) -/

/-- The fields of a stream request, unmasked, and where each stands. -/
structure NandReq where
  flags : Nat
  profile : Nat
  u0 : Nat
  s : Nat
  block0 : Nat
  page0 : Nat
  count : Nat
  cw : Nat
  oFlags : Nat
  oProfile : Nat
  oU0 : Nat
  oS : Nat
  oBlock : Nat
  oPage : Nat
  oCount : Nat
  oCw : Nat
  deriving DecidableEq, Repr

/-- The request of a NAND_IO job (R200). -/
def Job.nandReq (j : Job) : NandReq :=
  { flags := j.le 17 1, profile := j.le 18 1, u0 := j.le 19 1, s := j.le 20 1, block0 := j.le 24 4, page0 := j.le 28 2,
    count := j.le 32 4, cw := j.le 36 1, oFlags := 17, oProfile := 18, oU0 := 19, oS := 20, oBlock := 24, oPage := 28,
    oCount := 32, oCw := 36 }

/-- The request of a KIND 4 descriptor (R203, R230). -/
def descReq (d : BitVec 256) : NandReq :=
  let le := fun off n => (d.extractLsb' (8 * off) (8 * n)).toNat
  { flags := le 2 1, profile := le 3 1, u0 := le 4 1, s := le 5 1, block0 := le 16 3, page0 := le 6 2, count := le 20 3,
    cw := le 19 1, oFlags := 2, oProfile := 3, oU0 := 4, oS := 5, oBlock := 16, oPage := 6, oCount := 20, oCw := 19 }

/-- CW_FIRST. -/
def NandReq.cwFirst (r : NandReq) : Nat := r.cw % 8
/-- CW_LAST. -/
def NandReq.cwLast (r : NandReq) : Nat := r.cw / 16 % 8
/-- MP. -/
def NandReq.mp (r : NandReq) : Bool := r.flags % 2 == 1
/-- RAW. -/
def NandReq.raw (r : NandReq) : Bool := r.flags / 2 % 2 == 1

/-- Block and page of a position of a READ or PROGRAM stream (R201). -/
def pagePos (ppb : Nat) (mp : Bool) (block0 page0 s i : Nat) : Nat × Nat :=
  let j := i / s
  let p := if mp then 2 else 1
  let kk := page0 + j / p
  (block0 + j % p + p * (kk / ppb), kk % ppb)

/-- Block and page of a position of a stream (R201). -/
def streamPos (kind : NandKind) (ppb : Nat) (mp : Bool) (block0 page0 s i : Nat) : Nat × Nat :=
  if kind = .erase then (block0 + i / s, 0) else pagePos ppb mp block0 page0 s i

/-- The highest block that a stream reaches on the LUN at place l of its stripe (R201). -/
def NandReq.topBlock (r : NandReq) (kind : NandKind) (ppb l : Nat) : Nat :=
  let n := (r.count - l + r.s - 1) / r.s
  let at' := fun j => (streamPos kind ppb r.mp r.block0 r.page0 r.s (l + j * r.s)).1
  max (at' (n - 1)) (at' (n - 2))

/-- Whether a LUN is present (R198). -/
def State.lunPresent (s : State) (u : Nat) : Bool := s.main.nfc.present.getLsbD u

/-- The offending offsets of a stream request (R200, R61). -/
def State.nandBad (s : State) (r : NandReq) (kind : NandKind) : List Nat :=
  let n := s.main.nfc
  let er := kind == NandKind.erase
  let cpp := profCpp (n.prof (r.profile % 16))
  let sBad := 64 ≤ r.s || r.s = 0 || 32 < r.s
  let countBad := r.count = 0 || 0xFFFFFF < r.count
  let shape := !(32 ≤ r.u0 || sBad || 32 < r.u0 + r.s || countBad)
  let luns := List.range (min r.count r.s)
  let one := fun (c : Bool) (o : Nat) => if c then [o] else []
  one (4 ≤ r.flags || (r.raw && kind != .read) || (r.mp && (!n.planes || r.block0 % 2 = 1))) r.oFlags ++
  one (16 ≤ r.profile || (er && r.profile != 0) || (!er && !r.raw && cpp = 0)) r.oProfile ++
  one (32 ≤ r.u0 || (!sBad && 32 < r.u0 + r.s) || (shape && luns.any fun l => !s.lunPresent (r.u0 + l))) r.oU0 ++
  one sBad r.oS ++
  one (0x1000000 ≤ r.block0) (r.oBlock + 3) ++
  one (shape && r.block0 < 0x1000000 &&
    luns.any fun l => (s.lun (Fin.ofNat 32 (r.u0 + l))).blocks.toNat ≤ r.topBlock kind n.ppb.toNat l) r.oBlock ++
  one (if er then r.page0 % 256 != 0 else n.ppb.toNat ≤ r.page0) r.oPage ++
  one (er && r.page0 / 256 != 0) (r.oPage + 1) ++
  one countBad r.oCount ++
  one (if er then r.cw != 0
       else r.cw / 8 % 2 = 1 || 128 ≤ r.cw ||
         (!r.raw && (r.cwLast < r.cwFirst || cpp ≤ r.cwLast || (kind == .program && (r.cwFirst != 0 || r.cwLast + 1 != cpp)))))
    r.oCw

/-- Bytes of memory per position of a READ or PROGRAM stream (R202). -/
def State.nandUnit (s : State) (r : NandReq) : Nat :=
  if r.raw then s.main.nfc.pageBytes else (r.cwLast - r.cwFirst + 1) * 4096

/-- The operation that OP names (R200). -/
def nandKindOf (op : Nat) : Option NandKind :=
  [none, some NandKind.read, some .program, some .erase, some .setFeatures, some .getFeatures, some .readParam,
   some .reset].getD op none

/-- The bytes of a job that are not zero among some. -/
def Job.nonzero (j : Job) (l : List Nat) : List Nat := l.filter fun i => j.le i 1 ≠ 0

/-- The lowest offending offset of a NAND_IO job's payload (R200, R61). -/
def State.nandJobBad (s : State) (j : Job) : Option Nat :=
  match if 16 ≤ j.le 16 1 then none else nandKindOf (j.le 16 1) with
  | none => some 16
  | some k =>
    let rsv := j.nonzero [21, 22, 23, 30, 31, 37, 38, 39, 45, 46, 47, 53, 54, 55, 56, 57, 58, 59, 60, 61, 62, 63]
    let mem := j.nonzero [40, 41, 42, 43, 44]
    let u0 := j.le 19 1
    match k with
    | .read => minOpt (rsv ++ j.nonzero [48, 49, 50, 51, 52] ++ s.nandBad j.nandReq .read)
    | .program => minOpt (rsv ++ j.nonzero [48, 49, 50, 51, 52] ++ s.nandBad j.nandReq .program)
    | .erase => minOpt (rsv ++ mem ++ j.nonzero [48, 49, 50, 51, 52] ++ s.nandBad j.nandReq .erase)
    | k =>
      let u := u0 % 32
      minOpt (rsv ++ j.nonzero [17, 18, 20, 24, 25, 26, 27, 28, 29, 32, 33, 34, 35, 36] ++
        (if 32 ≤ u0 || bit (BitVec.ofNat 8 u0) 2 || !(s.lunPresent u || s.lunPresent (u + 4)) then [19] else []) ++
        (if k = .getFeatures || k = .readParam then [] else mem) ++
        (if k = .setFeatures || k = .getFeatures then [] else j.nonzero [48]) ++
        (if k = .setFeatures then [] else j.nonzero [49, 50, 51, 52]))

/-! ## Outcomes (R213) -/

/-- CLASS of an operation (R213). -/
def nandClass : NandKind → Nat
  | .read => 0
  | .program => 1
  | .erase => 2
  | .setFeatures | .getFeatures | .readParam => 3
  | .reset => 4

/-- DETAIL of a NAND outcome: LUN, codeword or CLASS, ROW (R213). -/
def nandDetail (u x row : Nat) : BitVec 32 := BitVec.ofNat 32 (u + 32 * x + 256 * row)

/-- ROW of an operation's DETAIL: the page, or the block with page 0 (R213). -/
def Nfc.opRow (n : Nfc) (o : NandOp) : Nat := n.row o.block (if o.kind = .erase then 0 else o.page)

/-- The stream with a number changed. -/
def State.modStream (s : State) (k : Nat) (f : NandStream → NandStream) : State :=
  s.modNfc fun n => { n with streams := n.streams.map fun t => if t.seq = k then f t else t }

/-- A failure noted, where its position is the lowest so far (R213). -/
def NandStream.note (t : NandStream) (f : NandFail) : NandStream :=
  match t.worst with
  | some w => if f.pos < w.pos then { t with worst := some f } else t
  | none => { t with worst := some f }

/-- Whether every operation of a stream that will be queued has ended (R213). -/
def NandStream.finished (t : NandStream) : Bool :=
  t.live == 0 && (t.next == t.count || (t.worst.isSome && (t.kind == .program || t.kind == .erase)))

/-- An operation ended, with a failure or without (R213). The controller's own belongs to no stream. -/
def State.opEnded (s : State) (o : NandOp) (f : Option (BitVec 16 × BitVec 32)) : State :=
  if o.owner = .ctrl then s
  else s.modStream o.seq fun t =>
    let t := { t with live := t.live - 1 }
    match f with
    | some (st, d) => t.note ⟨o.pos, st, d⟩
    | none => t

/-- Finished job streams leave the list, and their jobs come to their end (R213). -/
def State.endStreams (s : State) : State :=
  let done := s.main.nfc.streams.filter fun t =>
    t.finished && (match t.owner with | .job _ _ => true | _ => false)
  let s := s.modNfc fun n => { n with streams := n.streams.filter fun t => !done.any fun d => d.seq == t.seq }
  done.foldl (fun s t =>
    match t.owner with
    | .job q order => s.modJobOrder q order fun j =>
        { j with phase := .ended, status := (t.worst.map NandFail.status).getD stOk, detail := (t.worst.map NandFail.detail).getD 0 }
    | _ => s) s

/-! ## Queues (R210) -/

/-- Whether a LUN's queue takes one more entry: 8 in all, at most 7 speculative reads (R210). -/
def Lun.room (l : Lun) (spec : Bool) : Bool :=
  l.queue.length < 8 && (!spec || l.queue.countP (fun o => o.spec.isSome) < 7)

/-- The LUN of a position (R201). -/
def NandStream.lunAt (t : NandStream) (i : Nat) : Fin 32 := Fin.ofNat 32 (t.u0 + i % t.s)

/-- The operation of a stream's next position. -/
def NandStream.opAt (t : NandStream) (n : Nfc) : NandOp :=
  let p := streamPos t.kind n.ppb.toNat t.mp t.block0 t.page0 t.s t.next
  let unit := if t.raw then n.pageBytes else (t.cwLast - t.cwFirst + 1) * 4096
  { kind := t.kind, owner := t.owner, ctx := t.ctx, gen := t.gen, spec := t.spec, pos := t.next, block := p.1, page := p.2,
    profile := t.profile, cwFirst := t.cwFirst, cwLast := t.cwLast, raw := t.raw,
    mem := t.mem + BitVec.ofNat 40 (t.next * unit), faddr := t.faddr, params := t.params, seq := t.seq, mp := t.mp,
    arrived := n.arrivals + 1 }

/-- Whether a stream may queue its next position: a paused or cancelled channel queues none (R241), and a job whose program
or erase failed queues none (R213). -/
def State.mayQueue (s : State) (t : NandStream) : Bool :=
  t.next < t.count && !t.finished && !(t.worst.isSome && (t.kind == .program || t.kind == .erase)) &&
    (match t.owner with
     | .chan ch => !(s.chan ch).pause && !(s.chan ch).cancelling
     | _ => true)

/-- One position queued, or ended where its LUN has been lost (R210, R215). -/
def State.queueOne (s : State) (t : NandStream) : Option State :=
  let u := t.lunAt t.next
  let o := t.opAt s.main.nfc
  if !s.mayQueue t then none
  else if !s.lunPresent u.val then
    some (s.modStream t.seq fun t =>
      { t with next := t.next + 1 }.note ⟨o.pos, stTimeoutNand, nandDetail u.val 4 (s.main.nfc.opRow o)⟩)
  else if (s.lun u).room t.spec.isSome then
    some (((s.modLun u fun l => { l with queue := l.queue ++ [o] }).modStream t.seq fun t =>
      { t with next := t.next + 1, live := t.live + 1 }).modNfc fun n => { n with arrivals := n.arrivals + 1 })
  else none

/-- Positions of a stream queued while there is room, at most n. -/
def State.pumpStream : Nat → State → Nat → State
  | 0, s, _ => s
  | n + 1, s, k =>
    match s.main.nfc.streams.find? fun t => t.seq == k with
    | some t =>
      match s.queueOne t with
      | some s' => State.pumpStream n s' k
      | none => s
    | none => s

/-- The controller's own RESET of a target (R215, R219), for a speculative read of an epoch where there is one (R187). -/
def ctrlReset (cause : Option (Fin 8 × BitVec 16)) : NandOp :=
  { kind := .reset, owner := .ctrl, ctx := (cause.map Prod.fst).getD 0, gen := 0, spec := cause.map Prod.snd }

/-- The RESET of a context reset cleanup enters a LUN's queue, at its head, or waits for an entry (R210, R219). -/
def Lun.queueReset (l : Lun) : Lun :=
  if l.queue.length < 8 then { l with queue := ctrlReset none :: l.queue, resetWait := false } else { l with resetWait := true }

/-- Every RESET that waits for an entry, and every stream, queues what it can, in the order in which the streams came; then finished
job streams end (R210). -/
def State.pumpNand (s : State) : State :=
  let s := s.modNfc fun n => { n with luns := n.luns.map fun l => if l.resetWait then l.queueReset else l }
  (s.main.nfc.streams.foldl (fun s t => State.pumpStream (t.count - t.next) s t.seq) s).endStreams

/-- A new stream, with the next number. -/
def State.addStream (s : State) (t : NandStream) : State :=
  s.modNfc fun n => { n with seq := n.seq + 1, streams := n.streams ++ [{ t with seq := n.seq }] }

/-- The stream of a READ, PROGRAM or ERASE request (R201). -/
def NandReq.stream (r : NandReq) (kind : NandKind) (owner : NandOwner) (ctx : Fin 8) (gen : BitVec 8)
    (spec : Option (BitVec 16)) (mem : BitVec 40) : NandStream :=
  { seq := 0, kind := kind, owner := owner, ctx := ctx, gen := gen, spec := spec, raw := r.raw, mp := r.mp,
    profile := Fin.ofNat 16 r.profile, u0 := r.u0, s := r.s, block0 := r.block0, page0 := r.page0, count := r.count,
    cwFirst := r.cwFirst, cwLast := r.cwLast, mem := mem }

/-- The stream of one operation on a target (R200). -/
def targetStream (j : Job) (kind : NandKind) (q : Fin 16) : NandStream :=
  { seq := 0, kind := kind, owner := .job q j.order, ctx := j.ctx, gen := j.gen, spec := none, raw := false, mp := false,
    profile := 0, u0 := j.le 19 1, s := 1, block0 := 0, page0 := 0, count := 1, cwFirst := 0, cwLast := 0,
    mem := BitVec.ofNat 40 (j.le 40 5), faddr := BitVec.ofNat 8 (j.le 48 1), params := BitVec.ofNat 32 (j.le 49 4) }

/-- Queued operations that meet a condition leave their queues without an outcome (R192, R219). -/
def State.dropQueued (s : State) (p : NandOp → Bool) : State :=
  s.modNfc fun n =>
    let gone := fun (k : Nat) => (List.finRange 32).foldl (fun a u => a + n.luns[u].queue.countP (fun o => p o && o.seq == k)) 0
    { n with luns := Vector.ofFn fun u => { n.luns[u] with queue := n.luns[u].queue.filter fun o => !p o },
             streams := n.streams.map fun t => { t with live := t.live - gone t.seq } }

/-! ## The choice of the next operation (R211, R216) -/

/-- Whether an operation programs or erases. -/
def NandOp.writes (o : NandOp) : Bool := o.kind == .program || o.kind == .erase

/-- The operations of a queue before its first feature, parameter or reset operation. -/
def openPart (q : List NandOp) : List NandOp := q.takeWhile fun o => o.kind == .read || o.writes

/-- The reads that may start: no program or erase that came before one names its block (R211). -/
def readyReads : List NandOp → List NandOp → List NandOp
  | _, [] => []
  | pe, o :: t =>
    if o.writes then readyReads (pe ++ [o]) t
    else if pe.any fun p => p.block = o.block then readyReads pe t
    else o :: readyReads pe t

/-- The next operation of a LUN queue to start (R211). -/
def pickOp (q : List NandOp) : Option NandOp :=
  match q with
  | [] => none
  | h :: _ =>
    let pre := openPart q
    if pre = [] then some h
    else
      let reads := readyReads [] pre
      match pre.find? NandOp.writes with
      | some p =>
        if 64 ≤ p.overtaken then some p
        else (reads.find? fun o => o.spec.isNone).orElse fun _ => reads.head?.orElse fun _ => some p
      | none => (reads.find? fun o => o.spec.isNone).orElse fun _ => reads.head?

/-- The queue after an operation left it to start: a program or erase that came before a started read was overtaken once
more; a started program or erase ends the row for those behind it (R211). -/
def leaveQueue : List NandOp → NandOp → List NandOp
  | [], _ => []
  | h :: t, o =>
    if h = o then (if o.writes then t.map fun p => { p with overtaken := 0 } else t)
    else (if h.writes && o.kind == .read then { h with overtaken := h.overtaken + 1 } else h) :: leaveQueue t o

/-- The program or erase of the other plane that one multi-plane command serves with an operation, or the read (R212): an entry of
the same stream, with MP, for the same page and the other plane; a read that may start, or the program or erase that is next. -/
def pairOf (q : List NandOp) (o : NandOp) : Option NandOp :=
  let mate := fun (p : NandOp) =>
    o.mp && p.mp && p.seq == o.seq && p.kind == o.kind && p.page == o.page && p.block == o.block ^^^ 1
  if o.kind = .read then (readyReads [] (openPart q)).find? mate else ((openPart q).find? NandOp.writes).filter mate

/-- The operations that are in flight together. -/
def InFlight.ops (c : InFlight) : List NandOp := c.op :: c.pair.toList

/-- Whether a program or erase is in flight on a LUN: its final status has not been read, and it has not passed its bound. -/
def Lun.writing (l : Lun) : Bool := l.cur.any fun c => c.op.writes && !c.ignored && (!c.ready || c.pair.isSome)

/-- Whether the controller itself works on a LUN's target: a RESET, or the set-up of its mode (R216). -/
def Lun.resetting (l : Lun) : Bool := l.cur.any fun c => c.op.kind == .reset || c.op.owner == .ctrl

/-- Whether a RESET stands first in a LUN's queue and its turn has come. -/
def Lun.resetDue (l : Lun) : Bool :=
  (pickOp l.queue).any fun o => o.kind == .reset && (l.cur.isNone || (o.owner == .ctrl && l.cur.all InFlight.ignored))

/-- The SET FEATURES that sets up the mode of a target (R216). -/
def Nfc.setupOp (n : Nfc) (u : Fin 32) : NandOp :=
  let f := Config.modeFeature (n.chMode.extractLsb' (2 * lunChannel u) 2)
  { kind := .setFeatures, owner := .ctrl, ctx := 0, gen := 0, faddr := f.extractLsb' 0 8, params := f.extractLsb' 8 32 }

/-- The command that a LUN waits to be sent, where there is one (R211, R215, R216): a RESET that is due goes first, once no program
or erase is in flight on the target's other LUN; then the set-up of the mode; then the queue. Nothing else is sent to a target whose
RESET is due. -/
def State.nextCommand (s : State) (u : Fin 32) : Option NandOp :=
  let l := s.lun u
  let m := s.lun (lunMate u)
  let none' := fun (c : Bool) (o : NandOp) => if c then none else some o
  if m.resetting || l.cur.any (fun c => !c.ignored) || !s.lunPresent u.val then none
  else if l.resetPend then none' m.writing (ctrlReset l.resetFor)
  else if m.resetPend then none
  else if l.resetDue then (pickOp l.queue).bind (none' (m.writing || l.setup))
  else if l.cur.isSome || m.resetDue then none
  else if l.setup then some (s.main.nfc.setupOp u)
  else pickOp l.queue

/-- The order of R212: non-speculative before speculative, then the oldest; the controller's own commands count as the oldest. -/
def NandOp.before (a b : NandOp) : Bool :=
  let spec := fun (o : NandOp) => o.spec.isSome && o.owner != .ctrl
  (!spec a && spec b) || (spec a == spec b && a.arrived < b.arrived)

/-- The first by the order of R212 among operations with their LUNs. -/
def firstOp (l : List (Fin 32 × NandOp)) : Option (Fin 32 × NandOp) :=
  l.foldl (fun b x => match b with
    | none => some x
    | some y => if x.2.before y.2 then some x else b) none

/-- The LUNs of a channel (R199). -/
def channelLuns (ch : Nat) : List (Fin 32) := (List.finRange 32).filter fun u => lunChannel u == ch

/-- Whether the controller starts new command sequences (R297, R36; chapter 10, Registers). -/
def State.nandMayStart (s : State) : Bool :=
  s.stationsOn && !s.main.pwr.forcing && s.flrWait.isNone && s.main.nfc.ready && s.main.nfc.cfg.pending.isNone

/-- The command that a channel bus carries next (R212). -/
def State.busCommand (s : State) (ch : Nat) : Option (Fin 32 × NandOp) :=
  if s.nandMayStart then firstOp ((channelLuns ch).filterMap fun u => (s.nextCommand u).map fun o => (u, o)) else none

/-! ## Command sequences (R197) -/

/-- The sequence that starts an operation; of a multi-plane pair, the first has another closing command. -/
def NandOp.cycles (o : NandOp) (n : Nfc) (closes : Bool) : List BusCycle :=
  match o.kind with
  | .read => [.command 0x00, .column 0, .row (n.opRow o), .command (if closes then 0x30 else 0x32)]
  | .program => [.command 0x80, .column 0, .row (n.opRow o), .data n.pageBytes, .command (if closes then 0x10 else 0x11)]
  | .erase => [.command 0x60, .row (n.opRow o), .command (if closes then 0xD0 else 0xD1)]
  | .setFeatures => [.command 0xEF, .byte o.faddr] ++ (toBytes o.params 4).map BusCycle.byte
  | .getFeatures => [.command 0xEE, .byte o.faddr]
  | .readParam => [.command 0xEC, .byte 0x00]
  | .reset => [.command 0xFF]

/-- The sequence of what is in flight on a LUN. -/
def InFlight.cycles (c : InFlight) (n : Nfc) : List BusCycle :=
  match c.pair with
  | none => c.op.cycles n true
  | some p => c.op.cycles n false ++ p.cycles n true

/-- The SET FEATURES of a threshold set: a feature address and four bytes, sent verbatim (R208). -/
def setCycles (r : BitVec 64) : List BusCycle :=
  [.command 0xEF, .byte (r.extractLsb' 0 8)] ++ (toBytes (r.extractLsb' 16 32) 4).map BusCycle.byte

/-- Runs of consecutive codewords in an ascending list: the first of each and its length. -/
def runs : List Nat → List (Nat × Nat)
  | [] => []
  | k :: t =>
    match runs t with
    | (j, n) :: r => if j = k + 1 then (k, n + 1) :: r else (k, 1) :: (j, n) :: r
    | [] => [(k, 1)]

/-- CHANGE READ COLUMN ENHANCED for each run of wanted codewords, and their transfer. -/
def transferCycles (row cwBytes : Nat) (ks : List Nat) : List BusCycle :=
  (runs ks).flatMap fun p => [.command 0x06, .column (p.1 * cwBytes), .row row, .command 0xE0, .data (p.2 * cwBytes)]

/-- A command sequence on the channel bus of a LUN. -/
def State.send (s : State) (u : Fin 32) (cs : List BusCycle) : State :=
  s.modNfc fun n => { n with sent := upd n.sent ⟨lunChannel u, Nat.mod_lt _ (by decide)⟩ fun _ => some (u, cs) }

/-- Marking a page or block suspect (R217): counter, flag and a field-book entry. -/
def State.suspect (s : State) (u : Fin 32) (o : NandOp) (status : BitVec 16) : State :=
  let d := nandDetail u.val (nandClass o.kind) (s.main.nfc.opRow o)
  ((s.modNfc fun n => { n with counts := upd n.counts 6 (· + 1) }).nandEvent 2).fbEntry 3 0x041
    (BitVec.ofNat 16 0 ++ status ++ d)

/-- The RESET of a target passed its timeout (R215): its LUNs are lost, and what was queued for them ends. Where the RESET follows
from a speculative read, the flag and the entry wait for its epoch (R187, R222). -/
def State.loseTarget (s : State) (u : Fin 32) (o : NandOp) : State :=
  let us := [u, lunMate u]
  let m : BitVec 32 := us.foldl (fun m u => if s.lunPresent u.val then m ||| BitVec.twoPow 32 u.val else m) 0
  let s := (s.modNfc fun n => { n with present := n.present &&& ~~~m }).defer o.ctx o.spec (.lunLost m)
  us.foldl (fun s u =>
    let l := s.lun u
    let ops := l.queue ++ (l.cur.map InFlight.ops).getD []
    let s := s.modLun u fun l =>
      { l with queue := [], cur := none, resetPend := false, resetFor := none, resetWait := false, setup := false }
    ops.foldl (fun s o => s.opEnded o (some (stTimeoutNand, nandDetail u.val 4 (s.main.nfc.opRow o)))) s) s

/-! ## The ladder (R207 to R209) -/

/-- SOFT_COUNT. -/
def Nfc.softCount (n : Nfc) : Nat := field n.cfg.active.ladder 1 0
/-- RETRY_COUNT; larger values read as 16. -/
def Nfc.retryCount (n : Nfc) : Nat := min 16 (field n.cfg.active.ladder 8 4)

/-- The wanted codewords of a read. -/
def NandOp.wanted (o : NandOp) : List (Fin 5) := (List.finRange 5).filter fun k => o.cwFirst ≤ k.val && k.val ≤ o.cwLast

/-- Whether every wanted codeword has its outcome: each decoded, or the ladder at its end. -/
def InFlight.decodedAll (c : InFlight) (n : Nfc) : Bool :=
  c.op.raw || c.op.wanted.all (fun k => c.decoded.getLsbD k.val) || n.softCount + n.retryCount < c.ladder

/-- The threshold set of a step of the ladder above 0: the soft sets, then the retry sets (R208). -/
def Nfc.stepSet (n : Nfc) (step : Nat) : BitVec 64 :=
  if step ≤ n.softCount then n.cfg.active.soft.toList.getD (step - 1) 0
  else n.cfg.active.retry.toList.getD (step - 1 - n.softCount) 0

/-- The sequence that a read in flight has on its bus in its phase (R197, R208). -/
def InFlight.phaseCycles (c : InFlight) (n : Nfc) : List BusCycle :=
  match c.phase with
  | .page | .restored => c.cycles n
  | .setting => setCycles (n.stepSet c.ladder)
  | .restoring => setCycles n.cfg.active.retryDef

/-- Whether a threshold set was applied in the ladder of a read, so that the default set is sent at its end (R208). -/
def InFlight.applied (c : InFlight) (n : Nfc) : Bool := c.ladder != 0 && n.softCount + n.retryCount != 0

/-- Whether the data of a read is dropped: its stream is gone, or its generation is stale (R219, R284). -/
def State.readStale (s : State) (o : NandOp) : Bool :=
  !(s.main.nfc.streams.any fun t => t.seq == o.seq) || o.gen != (s.ctx o.ctx).gen

/-- The page reads of a channel that wait for the bus to transfer their data. -/
def State.transfers (s : State) (ch : Nat) : List (Fin 32 × NandOp) :=
  (channelLuns ch).filterMap fun u => ((s.lun u).cur.filter fun c =>
    c.op.kind == .read && c.ready && !c.ignored && !c.moved && c.phase == .page && (c.op.raw || !c.decodedAll s.main.nfc) &&
      !s.readStale c.op).map
    fun c => (u, c.op)

/-- Whether the transfer of a page may go on, or start: no command waits for the channel, and it is the first by R212. -/
def State.mayMove (s : State) (u : Fin 32) (c : InFlight) : Bool :=
  c.moved || ((s.busCommand (lunChannel u)).isNone && (firstOp (s.transfers (lunChannel u))).any fun x => x.1 == u)

/-- NFC_UCE_INFO for a read at a ladder step (chapter 10, Registers). -/
def InFlight.uceInfo (c : InFlight) (n : Nfc) (mismatch : Bool) : BitVec 9 :=
  let tried := min c.ladder (n.softCount + n.retryCount)
  BitVec.ofNat 9 (min tried n.softCount + 4 * (tried - n.softCount)) ||| flag 9 7 mismatch ||| flag 9 8 c.op.spec.isSome

/-- The counter of a step of the ladder: 0 HARD_OK, 1 SOFT_OK, 2 RETRY_OK (R209). -/
def Nfc.stepCount (n : Nfc) (step : Nat) : Fin 7 := if step = 0 then 0 else if step ≤ n.softCount then 1 else 2

/-- The histogram bin of a count of corrected bits (R209). -/
def Nfc.bin (n : Nfc) (bits : Nat) : Fin 16 :=
  Fin.ofNat 16 (min 15 (bits / (if n.histWidth = 0 then 1 else n.histWidth.toNat)))

/-- A failing codeword noted: the lowest counts (R213). -/
def InFlight.noteCw (c : InFlight) (k : Fin 5) : InFlight :=
  { c with uncorr := some (match c.uncorr with | some j => if j < k then j else k | none => k) }

/-- The bytes that a read delivers for codeword k (R205, R207, R209). -/
def State.deliverCw (s : State) (u : Fin 32) (c : InFlight) (k : Fin 5) : List Byte :=
  let row := s.main.nfc.row c.op.block c.op.page
  if c.decoded.getLsbD k.val then
    if s.cwErased u.val row k.val c.op.profile.val then List.replicate 4096 0xFF
    else s.codeword u.val row k.val c.op.profile.val 4096
  else (List.range 4096).map fun i => Config.hardDecisionByte s.stamp (4096 * k.val + i)

/-- The bytes that a page read delivers (R200, R202). -/
def State.deliverPage (s : State) (u : Fin 32) (c : InFlight) : List Byte :=
  if c.op.raw then s.flash u.val (s.main.nfc.row c.op.block c.op.page) 0 s.main.nfc.pageBytes
  else c.op.wanted.flatMap fun k => s.deliverCw u c k

end Sys2Proof.Machine
end

