-- ==== Sys2Proof/Machine/TraverseOps.lean ====
section
/-!
DEFINITION. The traverse engine's operations (chapter 11): descriptors and their checks, starts, halts and ends of chains,
the movement of bytes, peer transfers (R266, R267), kicks and their classification (R248 to R251).
-/

namespace Sys2Proof.Machine

/-! ## Descriptors (R228 to R230) -/

/-- n bytes of a descriptor from an offset, as a number (R3). -/
def dle (d : BitVec 256) (off n : Nat) : Nat := (d.extractLsb' (8 * off) (8 * n)).toNat
/-- KIND. -/
def dKind (d : BitVec 256) : Nat := field d 2 0
/-- LAST. -/
def dLast (d : BitVec 256) : Bool := bit d 3
/-- IRQ. -/
def dIrq (d : BitVec 256) : Bool := bit d 4
/-- SIG. -/
def dSig (d : BitVec 256) : Bool := bit d 5
/-- MARK. -/
def dMark (d : BitVec 256) : Fin 64 := Fin.ofNat 64 (dle d 1 1)
/-- NEXT. -/
def dNext (d : BitVec 256) : BitVec 40 := d.extractLsb' 192 40
/-- The operand at a byte offset: SRC at 2, DST at 8, INDEX at 16. -/
def dOperand (d : BitVec 256) (o : Nat) : BitVec 48 := d.extractLsb' (8 * o) 48
/-- Rows or elements: 1 for a linear move. -/
def dRows (d : BitVec 256) : Nat := if dKind d = 0 || dKind d = 4 then 1 else dle d 14 2
/-- Source bytes of a row or an element: LENGTH, ROW_LEN or ESIZE. -/
def dRowLen (d : BitVec 256) : Nat :=
  if dKind d = 0 then dle d 16 4 else if dKind d = 1 then field d 147 128
  else if dKind d = 4 then 0 else field d 188 176
/-- SRC_STRIDE of KIND 1. -/
def dSrcStride (d : BitVec 256) : Nat := field d 169 148
/-- DST_STRIDE of KIND 1. -/
def dDstStride (d : BitVec 256) : Nat := field d 191 170

/-- FORM of an operand (R229). -/
def oForm (v : BitVec 48) : Nat := field v 47 46
/-- OFFSET of FORM 0 and 2. -/
def oOffset (v : BitVec 48) : Nat := field v 27 0
/-- PARCEL of FORM 0. -/
def oParcel (v : BitVec 48) : Fin 32 := Fin.ofNat 32 (field v 32 28)
/-- STATION of FORM 0. -/
def oStation (v : BitVec 48) : Nat := field v 37 33
/-- ADDR of FORM 1. -/
def oAddr (v : BitVec 48) : Nat := field v 39 0
/-- CHIP of FORM 2. -/
def oChip (v : BitVec 48) : Fin 8 := Fin.ofNat 8 (field v 30 28)

/-- Bytes of an element width code (TRV_CHn_FMT.SRC_W, DST_W). -/
def fmtBytes (w : BitVec 3) : Nat := [1, 2, 4, 8, 16].getD w.toNat 1
/-- Bytes of a source element. -/
def Fmt.src (f : Fmt) : Nat := if f.pack then fmtBytes f.srcW else 1
/-- Bytes of a destination element. -/
def Fmt.dst (f : Fmt) : Nat := if f.pack then fmtBytes f.dstW else 1
/-- Destination bytes for a number of source bytes (R237). -/
def Fmt.scale (f : Fmt) (n : Nat) : Nat := n / f.src * f.dst

/-- The offsets of the bytes of a descriptor that are not zero, among n from an offset. -/
def dNonzero (d : BitVec 256) (o n : Nat) : List Nat := ((List.range n).map (o + ·)).filter fun i => dle d i 1 ≠ 0

/-- An offset where a condition holds. -/
def offIf (c : Bool) (o : Nat) : List Nat := if c then [o] else []

/-- The owner's entry that an operand names (R223). -/
def State.ownerParcel (s : State) (ch : Fin 16) (v : BitVec 48) : Parcel :=
  (s.ctx (s.chan ch).ownCtx).table.active[oParcel v]

/-- The offending bytes of an operand (R229, R266). FORM 2 is allowed in KIND 0 and 1 only (R230). -/
def State.operandBad (s : State) (ch : Fin 16) (d : BitVec 256) (o : Nat) : List Nat :=
  let v := dOperand d o
  match oForm v with
  | 0 => offIf (field v 39 38 != 0) (o + 4) ++ offIf (field v 45 40 != 0) (o + 5) ++
      offIf ((s.ownerParcel ch v).space != 0x1E && oStation v != 0) (o + 4)
  | 1 => offIf (field v 45 40 != 0) (o + 5) ++ offIf (!bit v 39) o
  | 2 => offIf (bit v 31) (o + 3) ++ offIf (field v 39 32 != 0) (o + 4) ++ offIf (field v 45 40 != 0) (o + 5) ++
      offIf (oChip v == s.chipId) (o + 3) ++ offIf (2 ≤ dKind d) (o + 5)
  | _ => [o + 5]

/-- The address bits of an operand that alignment looks at: a parcel's base is a multiple of 64 (R85). -/
def oLow (v : BitVec 48) : Nat := if oForm v = 1 then oAddr v else oOffset v

/-- The offending bytes of the fields that a KIND has (R230, R238). -/
def State.kindBad (s : State) (ch : Fin 16) (d : BitVec 256) (f : Fmt) : List Nat :=
  let rl := dRowLen d
  match dKind d with
  | 0 => dNonzero d 14 2 ++ offIf (rl == 0 || rl % f.src != 0) 16 ++ dNonzero d 20 4 ++ s.operandBad ch d 2 ++
      s.operandBad ch d 8 ++ offIf (oLow (dOperand d 2) % f.src != 0) 2 ++ offIf (oLow (dOperand d 8) % f.dst != 0) 8
  | 1 => offIf (dRows d == 0) 14 ++ offIf (rl == 0 || rl % f.src != 0) 16 ++ offIf (dSrcStride d % f.src != 0) 18 ++
      offIf (dDstStride d % f.dst != 0 || (1 < dRows d && dDstStride d < f.scale rl)) 21 ++ s.operandBad ch d 2 ++
      s.operandBad ch d 8 ++ offIf (oLow (dOperand d 2) % f.src != 0) 2 ++ offIf (oLow (dOperand d 8) % f.dst != 0) 8
  | 4 => dNonzero d 14 2 ++ dNonzero d 23 1 ++ s.nandBad (descReq d) .read ++
      (if oForm (dOperand d 8) = 1 || oForm (dOperand d 8) = 2 then [8] else s.operandBad ch d 8) ++ offIf f.pack 0
  | _ => offIf (dRows d == 0) 14 ++ s.operandBad ch d 16 ++ offIf (oLow (dOperand d 16) % 4 != 0) 16 ++
      offIf (rl == 0 || 4096 < rl) 22 ++ offIf (field d 191 189 != 0) 23 ++ s.operandBad ch d 2 ++ s.operandBad ch d 8 ++
      offIf f.pack 0

/-- The lowest offending byte of a descriptor (R228, R230, R246). -/
def State.descBad (s : State) (ch : Fin 16) (d : BitVec 256) (f : Fmt) : Option Nat :=
  minOpt (offIf (5 ≤ dKind d || field d 7 6 != 0) 0 ++ offIf (field d 15 14 != 0 || (!dSig d && field d 13 8 != 0)) 1 ++
    (if dLast d then dNonzero d 24 5 else offIf (dle d 24 5 % 32 != 0) 24) ++ dNonzero d 29 3 ++
    (if 5 ≤ dKind d then [] else s.kindBad ch d f))

/-- The station field of a channel's DETAIL: the kicking station, or 0x1F (R246). -/
def Starter.station : Starter → Nat
  | .program n _ _ => n.val
  | _ => 31

/-- The check of an operand's bytes first to last, counted from its own offset (R235, R88): DETAIL where it fails. Host
and peer operands need no parcel. -/
def State.operandBound (s : State) (ch : Fin 16) (st : Nat) (v : BitVec 48) (k : Access) (first last : Nat) :
    Option (BitVec 32) :=
  if oForm v ≠ 0 then none
  else
    let p := s.ownerParcel ch v
    let n := oStation v
    let r := if h : n < 24 then s.parcelCheck p ⟨n, h⟩ false k (oOffset v + first) (oOffset v + last)
      else if p.valid then some 4 else some 2
    r.map fun r => boundDetail (oParcel v).val r st 0

/-- The check of a descriptor's extents at its fetch: source, destination, index (R235). -/
def State.descBound (s : State) (ch : Fin 16) (st : Nat) (d : BitVec 256) (f : Fmt) : Option (BitVec 32) :=
  let rows := dRows d
  let rl := dRowLen d
  let src := dOperand d 2
  let dst := dOperand d 8
  match dKind d with
  | 4 => s.operandBound ch st dst .write 0 ((descReq d).count * s.nandUnit (descReq d) - 1)
  | 2 => (s.operandBound ch st dst .write 0 (rows * rl - 1)).orElse fun _ =>
      s.operandBound ch st (dOperand d 16) .read 0 (4 * rows - 1)
  | 3 => (s.operandBound ch st src .read 0 (rows * rl - 1)).orElse fun _ =>
      s.operandBound ch st (dOperand d 16) .read 0 (4 * rows - 1)
  | k =>
    let ss := if k = 1 then dSrcStride d else 0
    let ds := if k = 1 then dDstStride d else 0
    (s.operandBound ch st src .read 0 ((rows - 1) * ss + rl - 1)).orElse fun _ =>
      s.operandBound ch st dst .write 0 ((rows - 1) * ds + f.scale rl - 1)

/-- Whether a descriptor's destination is a SPEC parcel of the owner (R251). -/
def State.dstSpec (s : State) (ch : Fin 16) (d : BitVec 256) : Bool :=
  oForm (dOperand d 8) = 0 && (s.ownerParcel ch (dOperand d 8)).has 5

/-- DETAIL of a SPEC_VIOLATION of a chain (R389). -/
def specDetail (d : BitVec 256) (st : Nat) : BitVec 32 :=
  boundDetail (if oForm (dOperand d 8) = 0 then (oParcel (dOperand d 8)).val else 0) 1 st 0

/-- The device address of an operand, or its offset in a peer's window. -/
def State.operandAddr (s : State) (ch : Fin 16) (v : BitVec 48) : Nat :=
  match oForm v with
  | 0 =>
    let p := s.ownerParcel ch v
    spaceAddr (p.spaceFor (Fin.ofNat 24 (oStation v))) (p.base.toNat + oOffset v)
  | 1 => oAddr v
  | _ => oOffset v

/-- Whether the owner is bound and a chip has a route (R266). -/
def State.peerOk (s : State) (ch : Fin 16) (chip : Fin 8) : Bool :=
  (s.bound (s.chan ch).ownCtx).valid && (s.routeOf chip).isSome

/-- The peer chip of an operand. -/
def oPeer (v : BitVec 48) : Option (Fin 8) := if oForm v = 2 then some (oChip v) else none

/-- The work of a checked descriptor. What its fetch finds of a peer's binding and route holds for all of it (R266). -/
def State.activeOf (s : State) (ch : Fin 16) (d : BitVec 256) (f : Fmt) : Active :=
  { raw := d, kind := Fin.ofNat 5 (dKind d), last := dLast d,
    src := if dKind d = 4 then 0 else s.operandAddr ch (dOperand d 2), dst := s.operandAddr ch (dOperand d 8),
    index := s.operandAddr ch (dOperand d 16), srcPeer := if dKind d = 4 then none else oPeer (dOperand d 2),
    dstPeer := oPeer (dOperand d 8),
    srcLive := dKind d = 4 || (oPeer (dOperand d 2)).all (s.peerOk ch), dstLive := (oPeer (dOperand d 8)).all (s.peerOk ch),
    rows := dRows d, rowLen := dRowLen d,
    srcStride := if dKind d = 1 then dSrcStride d else if dKind d = 3 then dRowLen d else 0,
    dstStride := if dKind d = 1 then dDstStride d else if dKind d = 2 then dRowLen d else 0, fmt := f }

/-! ## Positions within a descriptor -/

/-- The index value of an element that has been fetched (R233). -/
def Active.idxAt (a : Active) (u : Nat) : Nat := (a.idxs.getD (u - min a.unit (a.rows - 1)) 0).toNat
/-- The address of a source byte of a row or element (R233). -/
def Active.srcAt (a : Active) (u o : Nat) : Nat := if a.kind = 2 then a.src + a.idxAt u + o else a.src + u * a.srcStride + o
/-- The address where the destination bytes of a source byte of a row or element begin (R233). -/
def Active.dstAt (a : Active) (u o : Nat) : Nat :=
  if a.kind = 3 then a.dst + a.idxAt u + a.fmt.scale o else a.dst + u * a.dstStride + a.fmt.scale o
/-- A position as it is shown: past the last row, the end of that row. -/
def Active.shown (a : Active) (u o : Nat) : Nat × Nat := if a.rows ≤ u then (a.rows - 1, a.rowLen) else (u, o)
/-- The next source byte to read. -/
def Active.srcNext (a : Active) : Nat := let p := a.shown a.rUnit a.rOff; a.srcAt p.1 p.2
/-- The next destination byte to write. -/
def Active.dstNext (a : Active) : Nat := let p := a.shown a.unit a.off; a.dstAt p.1 p.2
/-- The address of the first destination byte of the row or element being written. -/
def Active.dstBase (a : Active) : Nat := a.dstAt a.unit 0
/-- Whether every byte has been written. -/
def Active.moved (a : Active) : Bool := a.rows ≤ a.unit
/-- Whether every byte has been requested. -/
def Active.asked (a : Active) : Bool := a.rows ≤ a.rUnit
/-- Whether the next read fetches index values: those of the element to read next are not here. -/
def Active.needsIndex (a : Active) : Bool :=
  (a.kind == 2 || a.kind == 3) && !a.asked && decide (a.unit + a.idxs.length ≤ a.rUnit)

/-- The next read (R236, R244, R256): index values to the end of their aligned beat; source bytes to the end of theirs and no
further than the row; of a peer, not past a 256-byte boundary of its OFFSET. -/
def Active.nextRead (a : Active) : TrvRead :=
  if a.needsIndex then
    let k := a.unit + a.idxs.length
    { addr := a.index + 4 * k, len := min (16 - (a.index + 4 * k) % 16) (4 * (a.rows - k)), index := true }
  else
    let w := if a.srcPeer.isSome then 256 else 16
    { addr := a.srcNext, len := min (w - a.srcNext % w) (a.rowLen - a.rOff) }

/-- The bytes of a read within the window of 512 (R225): a rounded beat, or a READ to a peer. -/
def TrvRead.room (r : TrvRead) : Nat := max 16 r.len
/-- The bytes of reads in flight (R225). -/
def Active.inFlight (a : Active) : Nat := (a.reads.map TrvRead.room).foldl (· + ·) 0
/-- Whether a read of the descriptor failed for good (R245). -/
def Active.dead (a : Active) : Bool := a.reads.any TrvRead.dead

/-- Whether the descriptor has a read to make: not while index values are on their way, nor beyond 512 bytes in flight (R225). -/
def Active.mayRead (a : Active) : Bool :=
  !a.done && !a.needTick && a.kind != 4 && !a.asked && !a.dead && !a.reads.any TrvRead.index &&
    decide (a.inFlight + a.nextRead.room ≤ 512)

/-- The descriptor after its next read was issued. -/
def Active.request (a : Active) : Active :=
  let r := a.nextRead
  let a := { a with reads := a.reads ++ [r] }
  if r.index then a
  else if a.rOff + r.len < a.rowLen then { a with rOff := a.rOff + r.len }
  else { a with rUnit := a.rUnit + 1, rOff := 0 }

/-- Destination bytes of the next write (R236, R237, R267): to the end of the aligned beat, or of the 256 bytes of a message,
and no further than the row. -/
def Active.goal (a : Active) : Nat :=
  let w := if a.dstPeer.isSome then 256 else 16
  min (w - a.dstNext % w) (a.fmt.scale (a.rowLen - a.off))

/-- The registers that show a channel's position (TRV_CHn_SRC, _DST, _POS). -/
def Chan.show (x : Chan) : Chan :=
  match x.cur with
  | none => x
  | some a =>
    { x with src := BitVec.ofNat 40 a.srcNext, dst := BitVec.ofNat 40 a.dstNext,
             posBytes := if a.moved then 0 else BitVec.ofNat 32 (a.rowLen - a.off),
             posUnits := if a.kind = 0 then 0 else BitVec.ofNat 16 (a.rows - a.unit) }

/-- The channel with its descriptor's work replaced. -/
def Chan.withCur (x : Chan) (a : Active) : Chan := { x with cur := some a }.show

/-! ## Halts and ends -/

/-- DETAIL of a halt that is no BOUND_FAULT and no NAND outcome (R246). -/
def haltDetail (ch : Fin 16) (access station byte : Nat) : BitVec 32 :=
  BitVec.ofNat 32 (ch.val + access * 32 + station * 256 + byte * 65536)

/-- A free word for a fault record whose instruction address the spec leaves open: an imprecise fault names none. -/
def freeWord (stamp w : Nat) : BitVec w := word w ((List.range 8).map fun i => Config.freeByte stamp i)

/-- The fault of a chain that a program started (R119, R120, R246, R250): tagged with the epoch of a speculative kick, else
with the newest open epoch. The instruction that STN_FAULT_PC and STN_FAULT_INSTR show is left open. -/
def State.chainFault (s : State) (n : Fin 24) (q : Fin 16) (order : Nat) (c : Fin 8) (spec : Option (BitVec 16))
    (status : BitVec 16) (detail : BitVec 32) : State :=
  let tag := spec.orElse fun _ => (s.ctx c).newest
  let k := s.stamp
  (s.nextStamp.nextStamp.stationFault n q order c tag status detail (freeWord k 37) (freeWord (k + 1) 64)).settleAll

/-- The channel's vector, unless TRV_IRQ_MASK masks it (R247). -/
def State.chanIrq (s : State) (ch : Fin 16) : State := s.raiseIf (!s.main.trvIrqMask.getLsbD ch.val) (chanVector ch)

/-- A chain's streams of NAND reads leave the controller's list. -/
def State.dropChanStream (s : State) (ch : Fin 16) : State :=
  s.modNfc fun n => { n with streams := n.streams.filter fun t => t.owner != .chan ch }

/-- The channel after its chain is over: no descriptor, no tag, no epoch. -/
def Chan.over (x : Chan) (st : ChanState) (status : BitVec 16) : Chan :=
  { x with state := st, lastStatus := status, cur := none, wantFetch := false, spec := none, retries := 0, wrRetries := 0,
           fetchBeats := 0, paused := false, cancelling := false }

/-- The CRC that a chain shows (R239). -/
def Chan.crcShown (x : Chan) : BitVec 32 := if x.crcActive = 0 then 0 else x.crc ^^^ 0xFFFFFFFF

/-- The report of a chain's halt: the vector for the driver's, the job's end for a COPY, a fault for a program's (R246,
R247, R250). -/
def State.reportHalt (s : State) (ch : Fin 16) (x : Chan) (status : BitVec 16) (detail : BitVec 32) : State :=
  match x.starter with
  | .driver => s.chanIrq ch
  | .copy q => (s.modJob q fun j => { j with crc := x.crcShown }).setEnd q status detail
  | .program n q order =>
    (if x.crcActive = 0 then s else s.modJobOrder q order fun j => { j with crc := x.crcShown }).chainFault n q order x.ownCtx
      x.spec status detail

/-- A channel halts (R246). -/
def State.chanHalt (s : State) (ch : Fin 16) (status : BitVec 16) (detail : BitVec 32) (addr : Option (BitVec 48)) : State :=
  let x := s.chan ch
  let s := (s.dropChanStream ch).modChan ch fun x =>
    { x.over .halted status with errDetail := detail, errAddr := addr.getD x.errAddr }
  s.reportHalt ch x status detail

/-- A trigger for every channel of the same owner that names this one (R227). -/
def State.trigger (s : State) (ch : Fin 16) : State :=
  let me := s.chan ch
  s.modMain fun m => { m with chans := Vector.ofFn fun i =>
    let x := m.chans[i]
    if x.trig = 2 && x.tch = ch && x.ownValid && me.ownValid && x.ownCtx == me.ownCtx then
      if x.pendCount = 15 then { x with overrun := true } else { x with pendCount := x.pendCount + 1 }
    else x }

/-- A chain ends with OK (R247, R240, R62): the state of the channel, which a tick or a trigger that started it rearms (R227), the
CRC of its job, the COPY's end, triggers. -/
def State.chanEnd (s : State) (ch : Fin 16) : State :=
  let x := s.chan ch
  let next : ChanState := if x.rearm && x.how != 0 then .armed else .idle
  let s := s.modChan ch fun x => x.over next stOk
  let s := match x.starter with
    | .driver => s
    | .copy q => (s.modJob q fun j => { j with crc := x.crcShown }).setEnd q stOk 0
    | .program _ q order => if x.crcActive = 0 then s else s.modJobOrder q order fun j => { j with crc := x.crcShown }
  s.trigger ch

/-! ## Starts (R226) -/

/-- A chain starts: generation, count, CRC at their first values (R224, R226, R239). -/
def State.chainStart (s : State) (ch : Fin 16) (who : Starter) (head : BitVec 64) (sel : BitVec 2)
    (spec : Option (BitVec 16)) : State :=
  s.modChan ch fun x =>
    { x with state := .running, starter := who, gen := (s.ctx x.ownCtx).gen, descCount := 0, crc := 0xFFFFFFFF,
             crcActive := sel, spec := spec, descAddr := head.setWidth 40, wantFetch := true, cur := none, retries := 0,
             wrRetries := 0, fetchBeats := 0, how := 0, paused := false, cancelling := false }

/-- A COPY starts on its channel: one linear descriptor, with outward rounding (R226, R62). -/
def State.copyStart (s : State) (ch : Fin 16) (q : Fin 16) : State :=
  match s.job q with
  | none => s
  | some j =>
    let a : Active := { raw := 0, kind := 0, last := true, src := j.le 16 5, dst := j.le 24 5, rowLen := j.le 32 4 }
    ((s.modMain fun m => { m with lastWin := q }).chainStart ch (.copy q) 0 (BitVec.ofNat 2 (j.le 36 1)) none).modChan ch fun x => { x with wantFetch := false }.withCur a

/-! ## Peer transfers (R265 to R267) -/

/-- The header fields of a channel's request. -/
def State.peerMsg (s : State) (ch : Fin 16) (op : MsgOp) (chip : Fin 8) : Msg :=
  { op := op, src := s.chipId, dst := chip, job := (s.bound (s.chan ch).ownCtx).job, gen := (s.chan ch).gen, ch := ch }

/-- WRITE messages for bytes at an offset of a peer's window, none across a 256-byte boundary, at most n (R256, R267). -/
def State.peerWrite : Nat → State → Fin 16 → Fin 8 → Nat → List Byte → State
  | 0, s, _, _, _, _ => s
  | n + 1, s, ch, chip, off, bs =>
    if bs = [] then s
    else
      let k := min bs.length (256 - off % 256)
      let m := { s.peerMsg ch .write chip with off := BitVec.ofNat 28 off, len := BitVec.ofNat 8 (k - 1), data := bs.take k }
      State.peerWrite n (s.sendMsg m) ch chip (off + k) (bs.drop k)

/-- A READ to a peer sent with a response tag, where one is free (R266). -/
def State.sendRead (s : State) (ch : Fin 16) (chip : Fin 8) (r : TrvRead) (t : Fin 64) : State :=
  let x := s.chan ch
  (s.setTag t (some ⟨ch, x.ownCtx, x.gen, false⟩)).sendMsg { s.peerMsg ch .read chip with
    tag := t, off := BitVec.ofNat 28 r.addr, len := BitVec.ofNat 8 (r.len - 1) }

/-- The reads in flight with a tag noted on the oldest one that has none and waits for its data. -/
def tagRead (t : Fin 64) : List TrvRead → List TrvRead
  | [] => []
  | r :: rs => if r.tag.isNone && r.data.isNone && !r.dead then { r with tag := some t } :: rs else r :: tagRead t rs

/-- Whether a chain's peer traffic may go: it is not paused or cancelled, and no epoch that it runs under is open (R186, R267). -/
def State.linkFree (s : State) (ch : Fin 16) : Bool :=
  let x := s.chan ch
  !x.pause && !x.cancelling && x.spec.all fun e => (s.ctx x.ownCtx).verdict e == .committed

/-- The next READ of a channel to a peer: one whose attempt failed, sent again, or the next of its stream within the window
(R225, R245, R266). -/
def State.peerRead (s : State) (ch : Fin 16) (a : Active) (chip : Fin 8) (t : Fin 64) : Option State :=
  match a.reads.find? fun r => r.tag.isNone && r.data.isNone && !r.dead with
  | some r => some ((s.sendRead ch chip r t).modChan ch fun x => x.withCur { a with reads := tagRead t a.reads })
  | none =>
    if a.mayRead && a.srcLive && s.linkFree ch && (s.chan ch).retries == 0 && decide (a.nextRead.addr + a.nextRead.len ≤ 0x10000000) then
      let b := a.request
      some ((s.sendRead ch chip a.nextRead t).modChan ch fun x => x.withCur { b with reads := tagRead t b.reads })
    else none

/-- The MARK_ADD and the FLUSH after a descriptor's last WRITE (R267). A FLUSH that failed is sent again without the MARK_ADD. A
tag stays taken until its response or its timeout, whatever becomes of the channel. -/
def State.peerFlush (s : State) (ch : Fin 16) (a : Active) (chip : Fin 8) (t : Fin 64) : State :=
  let x := s.chan ch
  let s := if dSig a.raw && !a.flushing then s.sendMsg { s.peerMsg ch .markAdd chip with mark := dMark a.raw } else s
  let s := s.setTag t (some ⟨ch, x.ownCtx, x.gen, true⟩)
  (s.sendMsg { s.peerMsg ch .flush chip with tag := t }).modChan ch fun x => x.withCur { a with tag := some t, flushing := true }

/-- What a channel sends to a peer next, where it has something to send and a tag is free (R266, R267). -/
def State.peerNext (s : State) (ch : Fin 16) : Option State :=
  let x := s.chan ch
  match x.cur, s.freeTag with
  | some a, some t =>
    if x.state != .running || a.done || a.needTick || a.tag.isSome then none
    else if a.moved then
      match a.dstPeer with
      | some chip => if x.cancelling then none else some (s.peerFlush ch a chip t)
      | none => none
    else
      match a.srcPeer with
      | some chip => s.peerRead ch a chip t
      | none => none
  | _, _ => none

/-- Everything that a channel can send to a peer, at most n messages. -/
def State.peerStepN : Nat → State → Fin 16 → State
  | 0, s, _ => s
  | n + 1, s, ch =>
    match s.peerNext ch with
    | some s' => State.peerStepN n s' ch
    | none => s

/-- Everything that a channel can send to a peer now: its window holds at most 32 reads. -/
def State.peerStep (s : State) (ch : Fin 16) : State := State.peerStepN 33 s ch

/-- Every channel that waits for a response tag tries again (R266). -/
def State.peerSteps (s : State) : State := (List.finRange 16).foldl State.peerStep s

/-! ## Movement of bytes (R225, R233 to R239) -/

/-- A number as n bytes, zero- or sign-extended from w bytes or cut (R237). -/
def convElem (sign : Bool) (w n : Nat) (bs : List Byte) : List Byte :=
  let top := (bs.getD (w - 1) 0).getLsbD 7
  (bs ++ List.replicate (n - w) (if sign && top then 0xFF else 0)).take n

/-- Source bytes as destination bytes, at most k elements (R237). -/
def packBytes (f : Fmt) : Nat → List Byte → List Byte
  | 0, _ => []
  | k + 1, bs => if bs = [] then [] else convElem f.sign f.src f.dst (bs.take f.src) ++ packBytes f k (bs.drop f.src)

/-- Whether the same descriptor wrote a destination byte earlier in its stream at a device address (R234). -/
def Active.wroteAt (a : Active) (x : Nat) : Bool :=
  let rl := a.fmt.scale a.rowLen
  let inRow := fun (b n : Nat) => decide (b ≤ x) && decide (x < b + n)
  match a.kind with
  | 0 => inRow a.dst a.written
  | 1 => decide (a.dst ≤ x) && ((!a.moved && inRow a.dstBase (a.fmt.scale a.off)) ||
      (if a.dstStride = 0 then decide (0 < a.unit) && inRow a.dst rl
       else decide ((x - a.dst) / a.dstStride < a.unit) && decide ((x - a.dst) % a.dstStride < rl)))
  | 2 => inRow a.dst a.written
  | _ => (!a.moved && inRow a.dstBase a.off) || a.wrote.any fun b => inRow b a.rowLen

/-- Source bytes read at an address: one that the same descriptor overwrote earlier is undefined (R234). -/
def State.overlapped (s : State) (a : Active) (adr : Nat) (bs : List Byte) : List Byte :=
  if a.srcPeer.isSome || a.dstPeer.isSome || inHostWindow adr then bs
  else bs.mapIdx fun i b => if a.wroteAt (adr + i) then Config.overlapByte s.stamp (adr + i) else b

/-- The work after n source bytes of the row in progress were written. -/
def Active.advance (a : Active) (n : Nat) : Active :=
  let a := { a with off := a.off + n, written := a.written + a.fmt.scale n }
  if a.off < a.rowLen then a
  else { a with unit := a.unit + 1, off := 0, idxs := if a.unit + 1 < a.rows then a.idxs.drop 1 else a.idxs,
                wrote := if a.kind = 3 then a.dstAt a.unit 0 :: a.wrote else a.wrote }

/-- Elements moved from the holding buffer to the holding register, packed (R237), as far as the next write takes them. -/
def Active.gather (a : Active) : Active :=
  if a.moved then a
  else
    let k := min ((a.goal - a.out.length) / a.fmt.dst) (a.got.length / a.fmt.src)
    { a with out := a.out ++ packBytes a.fmt k a.got, got := a.got.drop (k * a.fmt.src) }

/-- Whether an access to a device address, or to a peer whose binding and route were found, responds (R231, R245, R266). -/
def State.responds (s : State) (peer : Option (Fin 8)) (live : Bool) (a n : Nat) : Bool :=
  match peer with
  | some _ => live && decide (a + n ≤ 0x10000000)
  | none => (s.place a n).isSome

/-- Bytes read at a device address: from device memory, or what the host answered. -/
def State.readAt (s : State) (a n : Nat) (host : List Byte) : List Byte :=
  match s.place a n with
  | some (.host _) => padTo n host
  | some p => s.readPlace p n
  | none => []

/-- Whether a channel empties its buffer with byte enables: no more data comes, and it is paused, cancelled or about to halt
(R241, R243, R246). -/
def Chan.draining (x : Chan) (a : Active) : Bool :=
  a.got.isEmpty && ((a.reads.isEmpty && (x.pause || x.cancelling)) || (a.reads.head?).any TrvRead.dead)

/-- Whether a write of a channel is complete and can be made. -/
def Chan.writes (x : Chan) (a : Active) : Bool :=
  x.state == .running && !a.moved && !a.out.isEmpty && (a.out.length == a.goal || x.draining a)

/-- The bytes of the next write applied: in memory, or as WRITE messages; the CRC and TRV_CHn_BYTES count them (R239). -/
def State.writeOut (s : State) (ch : Fin 16) (a : Active) : State :=
  let n := a.out.length
  let s := match a.dstPeer with
    | some chip => State.peerWrite (n + 1) s ch chip a.dstNext a.out
    | none => s.devWrite a.dstNext a.out
  let b := ({ a with out := [], beats := 0 }.advance (n / a.fmt.dst * a.fmt.src)).gather
  (s.modChan ch fun x =>
    { x with crc := if x.crcActive = 0 then x.crc else crcRun x.crcActive.toNat x.crc a.out,
             bytes := x.bytes + BitVec.ofNat 64 n, wrRetries := 0 }.withCur
      { b with done := b.moved && b.dstPeer.isNone }).peerStep ch

/-- A write-side beat of a channel (R225, R244): a message of more than 16 bytes takes one beat for each 16. -/
def State.writeBeat (s : State) (ch : Fin 16) : State :=
  match (s.chan ch).cur with
  | none => s
  | some a =>
    if 16 * (a.beats + 1) < a.out.length then s.modChan ch fun x => x.withCur { a with beats := a.beats + 1 }
    else s.writeOut ch a

/-- The values of an index fetch (R233). -/
def idxWords : Nat → List Byte → List (BitVec 32)
  | 0, _ => []
  | n + 1, bs => word 32 (bs.take 4) :: idxWords n (bs.drop 4)

/-- The oldest read of a channel returned: index values, or bytes for the holding buffer (R225, R233). -/
def Active.gotRead (a : Active) (r : TrvRead) (bs : List Byte) : Active :=
  let a := { a with reads := a.reads.drop 1 }
  if r.index then { a with idxs := a.idxs ++ idxWords (r.len / 4) bs } else { a with got := a.got ++ bs }.gather

/-- Responses of a peer whose turn has come, at most n of them; what the holding buffer cannot take waits in its response
slot (R266). -/
def Active.takeReplies : Nat → Active → Active
  | 0, a => a
  | n + 1, a =>
    match a.reads with
    | r :: _ =>
      match r.data with
      | some bs => Active.takeReplies n (a.gotRead r bs)
      | none => a
    | [] => a

/-! ## Loading a descriptor (R228, R231, R235, R251) -/

/-- A checked descriptor becomes the channel's work. With TRIG 1, one that is not the chain's first waits for a tick; a
KIND 4 descriptor queues its pages (R203, R226). A paused channel takes no tick (R241). -/
def State.beginDesc (s : State) (ch : Fin 16) (d : BitVec 256) (f : Fmt) : State :=
  let x := s.chan ch
  let a := s.activeOf ch d f
  let paced := x.how = 1 && x.descCount != 1
  let wait := paced && (x.pendCount = 0 || x.pause)
  s.modChan ch fun x =>
    { x with pendCount := if paced && !wait then x.pendCount - 1 else x.pendCount }.withCur { a with needTick := wait }

/-- The work that has its tick goes on: pages of a KIND 4 descriptor are queued, a peer's first bytes are asked for. -/
def State.goDesc (s : State) (ch : Fin 16) : State :=
  let x := s.chan ch
  match x.cur with
  | none => s
  | some a =>
    if a.needTick then s
    else if a.kind = 4 then
      (s.addStream ((descReq a.raw).stream .read (.chan ch) x.ownCtx x.gen x.spec (BitVec.ofNat 40 a.dst))).pumpNand
    else s.peerStep ch

/-- A descriptor that the channel has: checked under its format, and begun or halted on (R228, R235, R251). -/
def State.checkDesc (s : State) (ch : Fin 16) (d : BitVec 256) (f : Fmt) : State :=
  let x := s.chan ch
  let st := x.starter.station
  match s.descBad ch d f with
  | some b => s.chanHalt ch stBadDescriptor (haltDetail ch 4 st b) none
  | none =>
    match s.descBound ch st d f with
    | some dt => s.chanHalt ch stBoundFault dt none
    | none =>
      if x.spec.isSome && !s.dstSpec ch d then s.chanHalt ch stSpecViolation (specDetail d st) none
      else (s.beginDesc ch d f).goDesc ch

/-- A descriptor that the channel fetched: it adopts a committed format, and counts (R232, R238). -/
def State.loadDesc (s : State) (ch : Fin 16) (d : BitVec 256) : State :=
  let s := s.modChan ch fun x =>
    { x with fmt := x.fmt.activate, wantFetch := false, fetchBeats := 0, descCount := x.descCount + 1, retries := 0 }
  s.checkDesc ch d (s.chan ch).fmt.active

/-- Whether a kick value or a head breaks R228 or R248: bits above the address, or no multiple of 32. -/
def headBad (v : BitVec 64) : Bool := field v 63 40 != 0 || v.toNat % 32 != 0

/-- A channel's pending kick starts: one whose value breaks R248 halts at once, one with a captured head descriptor runs
it under the format of its fetch (R189, R238, R251), any other fetches its head. -/
def State.kickRun (s : State) (ch : Fin 16) (k : PendKick) : State :=
  let x := s.chan ch
  let s := (s.modChan ch fun x => { x with pendKick := none }).chainStart ch (.program k.station k.queue k.order) k.head
    x.crcSel k.epoch
  match k.desc with
  | some d => (s.modChan ch fun x => { x with wantFetch := false, descCount := 1 }).checkDesc ch d k.fmt
  | none => if headBad k.head then s.chanHalt ch stBadDescriptor (haltDetail ch 4 k.station.val 0) none else s

/-! ## What a channel does next -/

/-- Whether a pending kick may start: it is not held under an open epoch (R251). -/
def PendKick.ready (k : PendKick) : Bool := !k.held

/-- The COPY that a free channel takes next (R58, R62). -/
def State.nextCopy (s : State) (ch : Fin 16) : Option (Fin 16) :=
  (s.pick ((s.chan ch).copyWaits.filterMap fun w => (s.job w.1).map fun j => (w.1, j))).map Prod.fst

/-- The oldest arrival among the COPYs that wait for a channel. -/
def Chan.copyArrival (x : Chan) : Option Nat := minOpt (x.copyWaits.map Prod.snd)

/-- A channel whose chain was cancelled becomes idle once it has drained (R243). -/
def State.cancelDone (s : State) (ch : Fin 16) : State :=
  (s.dropChanStream ch).modChan ch fun x => { x.over .idle x.lastStatus with cancelled := true }

/-- DETAIL of a BOUND_FAULT for an element whose index value has arrived (R233, R235). -/
def State.elemBad (s : State) (ch : Fin 16) (a : Active) (u : Nat) : Option (BitVec 32) :=
  if a.rows ≤ u || decide (a.unit + a.idxs.length ≤ u) then none
  else
    let st := (s.chan ch).starter.station
    let i := a.idxAt u
    if a.kind = 2 then s.operandBound ch st (dOperand a.raw 2) .read i (i + a.rowLen - 1)
    else if a.kind = 3 then s.operandBound ch st (dOperand a.raw 8) .write i (i + a.rowLen - 1)
    else none

/-- ERR_ADDR of an access: a device address, or the operand of a peer's byte (R245, R267). -/
def errAddrOf (a : Nat) (peer : Option (Fin 8)) : BitVec 48 :=
  match peer with
  | some chip => BitVec.ofNat 48 (2 * 2 ^ 46 + chip.val * 2 ^ 28 + a % 2 ^ 28)
  | none => BitVec.ofNat 48 a

/-- What ends a running descriptor where its stream has been written up to the end of its work or to a failing access: a read that
failed for good (R245, R246), an element out of bounds whose turn has come (R235), or a discard of the epoch under which a
chain reads a peer: nothing of it may cross the link (R186). -/
def State.curEnds (s : State) (ch : Fin 16) (a : Active) : Option State :=
  let x := s.chan ch
  if !a.got.isEmpty || !a.out.isEmpty then none
  else match a.reads with
    | r :: _ =>
      if r.dead then
        some (s.chanHalt ch stBusError (haltDetail ch (if r.index then 3 else 0) x.starter.station 0) (some (errAddrOf r.addr a.srcPeer)))
      else none
    | [] =>
      if a.srcPeer.isSome && x.spec.any (fun e => (s.ctx x.ownCtx).verdict e == .discarded) then some (s.cancelDone ch)
      else if a.unit = a.rUnit then (s.elemBad ch a a.unit).map fun d => s.chanHalt ch stBoundFault d none
      else none

/-- One thing that a channel does of itself now: a head that breaks R228 or R248 halts the chain, as does a stream that cannot
go on; a free channel starts its pending kick or a waiting COPY, in the order of arrival (R250); an armed channel with a
tick or a trigger starts. No chain begins during a forced Hold; a START made during it begins behind it (R297).
DESIGN CHOICE (log entry 73): a COPY waits for an armed channel as for a running one (R62 names a running one), and where the
oldest COPY arrived before a kick, the COPY of highest priority among all that wait starts (R58, R250). -/
def State.chanNext (s : State) (ch : Fin 16) : Option State :=
  let x := s.chan ch
  match x.state with
  | .running =>
    if x.wantFetch && x.descAddr.toNat % 32 != 0 then
      some (s.chanHalt ch stBadDescriptor (haltDetail ch 4 x.starter.station 0) none)
    else match x.cur with
      | some a => if a.done || a.kind = 4 then none else s.curEnds ch a
      | none => none
  | .armed =>
    if x.pendCount = 0 || x.pause || s.main.pwr.forcing then none
    else some (((s.modChan ch fun x => { x with pendCount := x.pendCount - 1 }).chainStart ch .driver x.head x.crcSel none).modChan ch
      fun y => { y with how := x.trig })
  | _ =>
    if s.main.pwr.forcing then none
    else match x.startHeld with
    | some h => some ((s.modChan ch fun x => { x with startHeld := none }).chainStart ch .driver h x.crcSel none)
    | none =>
    let kick := if x.pause then none else x.pendKick.filter PendKick.ready
    match kick, x.copyArrival with
    | some k, none => some (s.kickRun ch k)
    | some k, some a =>
      if k.arrival < a then some (s.kickRun ch k)
      else (s.nextCopy ch).map fun q =>
        (s.modChan ch fun x => { x with copyWaits := x.copyWaits.filter fun w => w.1 != q }).copyStart ch q
    | none, some _ => (s.nextCopy ch).map fun q =>
        (s.modChan ch fun x => { x with copyWaits := x.copyWaits.filter fun w => w.1 != q }).copyStart ch q
    | none, none => none

/-- A channel does what it does of itself, at most n times. -/
def State.chanSettle : Nat → State → Fin 16 → State
  | 0, s, _ => s
  | n + 1, s, ch =>
    match s.chanNext ch with
    | some s' => State.chanSettle n s' ch
    | none => s

/-- Every channel does what it does of itself. -/
def State.chansSettle (s : State) : State := (List.finRange 16).foldl (State.chanSettle 20) s

/-! ## Descriptor fetch -/

/-- The descriptor at an address: from device memory, or the host's answer. -/
def State.descAt (s : State) (a : Nat) (reply : BitVec 256) : Option (BitVec 256) :=
  match s.place a 32 with
  | some (.host _) => some reply
  | some p => some (word 256 (s.readPlace p 32))
  | none => none

/-! ## The two sides of the engine (R225, R244) -/

/-- The channel that a side grants among those with a beat ready (R244): the highest priority first; of that priority the channel
granted last, up to 16 beats in a row; then the next in order of number after it. -/
def Side.pick (sd : Side) (prio : ChanNo → BitVec 2) (ready : List ChanNo) : Option ChanNo :=
  let top := ready.filter fun c => ready.all fun d => (prio d).ule (prio c)
  match sd.last with
  | none => top.head?
  | some l =>
    if top.contains l && decide (sd.run < 16) then some l
    else (top.find? fun c => decide (l < c)).orElse fun _ => top.head?

/-- A side after a clock (R244): the channel granted, or none, which ends the last channel's hold. -/
def Side.after (sd : Side) (c : Option ChanNo) : Side :=
  match c with
  | none => { sd with run := 16 }
  | some c => { last := some c, run := if sd.last = some c && decide (sd.run < 16) then sd.run + 1 else 1 }

/-- Whether a channel has a beat ready on the read side (R244): of a fetch, which takes two, or of its descriptor's source or
index. Nothing new is issued while it is paused or cancelled, nor while a failed access is tried again (R241, R245). -/
def State.readReady (s : State) (ch : Fin 16) : Bool :=
  let x := s.chan ch
  let go := !x.pause && !x.cancelling
  (x.classify.any (fun k => !headBad k.head) && decide (x.classBeats < 2)) ||
    (x.state == .running &&
      if x.wantFetch then decide (x.fetchBeats < 2) && (decide (x.fetchBeats ≠ 0) || go)
      else x.cur.any fun a =>
        a.mayRead && a.srcPeer.isNone && go && x.retries == 0 && (s.elemBad ch a a.rUnit).isNone)

/-- Whether a channel has a beat ready on the write side (R244). A write that does not respond fails as ACCESS_FAIL says. -/
def State.writeReady (s : State) (ch : Fin 16) : Bool :=
  let x := s.chan ch
  x.cur.any fun a => x.writes a && s.responds a.dstPeer a.dstLive a.dstNext a.out.length

/-- The read-side beat that a channel was granted. -/
def Chan.readBeat (x : Chan) : Chan :=
  if x.classify.any (fun k => !headBad k.head) && decide (x.classBeats < 2) then { x with classBeats := x.classBeats + 1 }
  else if x.wantFetch then { x with fetchBeats := x.fetchBeats + 1 }
  else match x.cur with
    | some a => x.withCur a.request
    | none => x

/-- One fabric clock of the engine (R225, R244): each side grants one beat. None where neither has one. -/
def State.fabricClock (s : State) : Option State :=
  let prio := fun ch => (s.chan ch).prio
  let r := s.main.rdSide.pick prio ((List.finRange 16).filter s.readReady)
  let w := s.main.wrSide.pick prio ((List.finRange 16).filter s.writeReady)
  if r.isNone && w.isNone then none
  else
    let s := s.modMain fun m => { m with rdSide := m.rdSide.after r, wrSide := m.wrSide.after w }
    let s := match r with
      | some ch => s.modChan ch Chan.readBeat
      | none => s
    some (match w with
      | some ch => State.chanSettle 20 (s.writeBeat ch) ch
      | none => s)

/-- A fabric clock, in which neither side may have a beat to grant. -/
def State.fabricTick (s : State) : State :=
  s.fabricClock.getD (s.modMain fun m => { m with rdSide := m.rdSide.after none, wrSide := m.wrSide.after none })

/-- The fabric clocks that an event of the engine shows to have passed: until a condition holds, or nothing moves, at most n. -/
def State.fabricUntil (p : State → Bool) : Nat → State → State
  | 0, s => s
  | n + 1, s =>
    if p s then s
    else match s.fabricClock with
      | some s' => State.fabricUntil p n s'
      | none => s

/-- The most fabric clocks in which the engine can move without a reply. -/
def engineClocks : Nat := 4096

/-- The fabric clocks before an event of the engine. -/
def State.until (s : State) (p : State → Bool) : State := State.fabricUntil p engineClocks s

/-! ## Failed accesses (R245, R246) -/

/-- An access of a channel that can have failed: its ACCESS code, its address, its length, its peer, and whether the peer was
found at the fetch. A write that is complete comes first: it precedes the reads in the stream. -/
structure ChanAccess where
  code : Nat
  adr : Nat
  len : Nat
  peer : Option (Fin 8) := none
  live : Bool := true
  deriving DecidableEq, Repr

/-- The access that a channel has under way. -/
def State.access (s : State) (ch : Fin 16) : Option ChanAccess :=
  let x := s.chan ch
  if x.classify.isSome then
    if x.classBeats < 2 then none else x.classify.map fun k => { code := 2, adr := k.head.toNat, len := 32 }
  else if x.state != .running then none
  else if x.wantFetch then
    if x.fetchBeats < 2 then none else some { code := 2, adr := x.descAddr.toNat, len := 32 }
  else match x.cur with
    | none => none
    | some a =>
      if x.writes a && !s.responds a.dstPeer a.dstLive a.dstNext a.out.length then
        some { code := 1, adr := a.dstNext, len := a.out.length, peer := a.dstPeer, live := a.dstLive }
      else match a.reads with
        | r :: _ =>
          if r.dead || r.data.isSome || a.srcPeer.isSome then none
          else some { code := if r.index then 3 else 0, adr := r.addr, len := r.len }
        | [] =>
          if a.srcPeer.isSome && a.mayRead && !x.pause && !x.cancelling then
            some { code := 0, adr := a.nextRead.addr, len := a.nextRead.len, peer := a.srcPeer, live := a.srcLive }
          else none

/-- Whether an access can have failed: it lies in the host window, as a read, or does not respond (R51, R245). -/
def State.accessFails (s : State) (c : ChanAccess) : Bool :=
  !s.responds c.peer c.live c.adr c.len || (c.peer.isNone && c.code != 1 && inHostWindow c.adr)

/-- An attempt of a fetch or a FLUSH failed: it is made again, up to TRV_RETRY times, and then the channel halts with BUS_ERROR
(R245). -/
def State.failAccess (s : State) (ch : Fin 16) (access a : Nat) (peer : Option (Fin 8)) : State :=
  let x := s.chan ch
  if x.retries < s.main.trvRetry.toNat then s.modChan ch fun x => { x with retries := x.retries + 1 }
  else s.chanHalt ch stBusError (haltDetail ch access x.starter.station 0) (some (errAddrOf a peer))

/-- An attempt of a write failed (R245); nothing of the stream behind it is written. -/
def State.failWrite (s : State) (ch : Fin 16) (a : Nat) (peer : Option (Fin 8)) : State :=
  let x := s.chan ch
  if x.wrRetries < s.main.trvRetry.toNat then s.modChan ch fun x => { x with wrRetries := x.wrRetries + 1 }
  else s.chanHalt ch stBusError (haltDetail ch 1 x.starter.station 0) (some (errAddrOf a peer))

/-- A read marked as failed for good, or its attempt counted: the read with an address in the stream. -/
def failRead (adr : Nat) : List TrvRead → List TrvRead
  | [] => []
  | r :: rs => if r.addr = adr && r.data.isNone && !r.dead then { r with dead := true } :: rs else r :: failRead adr rs

/-- An attempt of a read failed (R245): after the last retry, everything before it in the stream is written, and then the
channel halts (R246). A peer that was not found has no read under way: the next one fails. -/
def State.failedRead (s : State) (ch : Fin 16) (adr : Nat) : State :=
  let x := s.chan ch
  if x.retries < s.main.trvRetry.toNat then s.modChan ch fun x => { x with retries := x.retries + 1 }
  else match x.cur with
    | none => s
    | some a =>
      let a := if a.reads.isEmpty then a.request else a
      s.modChan ch fun x => x.withCur { a with reads := failRead adr a.reads }

/-! ## Kicks (R250, R251) -/

/-- The closure-buffer entry of a kick freed (R251): the oldest of that channel under its epoch. -/
def freeKickEntry (ch : Fin 16) (e : BitVec 16) : List Held → List Held
  | [] => []
  | h :: t =>
    match h.eff with
    | .kick _ ch' _ _ => if ch' = ch && h.epoch = e then t else h :: freeKickEntry ch e t
    | _ => h :: freeKickEntry ch e t

/-- The captured head descriptor noted in the kick's closure-buffer entry (R189): the oldest of that channel. -/
def setKickDesc (ch : Fin 16) (e : BitVec 16) (d : BitVec 256) : List Held → List Held
  | [] => []
  | h :: t =>
    match h.eff with
    | .kick n ch' v _ => if ch' = ch && h.epoch = e then { h with eff := .kick n ch' v d } :: t else h :: setKickDesc ch e d t
    | _ => h :: setKickDesc ch e d t

/-- A speculative kick that fails to classify, or whose destination lacks SPEC: its fault is latched, its entry freed, and
nothing starts (R251). -/
def State.kickFails (s : State) (ch : Fin 16) (k : PendKick) (status : BitVec 16) (detail : BitVec 32) : State :=
  let c := (s.chan ch).ownCtx
  let s := s.modChan ch fun x => { x with classify := none, classRetries := 0, classBeats := 0 }
  let s := match k.epoch with
    | some e => s.modCtx c fun x => { x with held := freeKickEntry ch e x.held }
    | none => s
  s.chainFault k.station k.queue k.order c k.epoch status detail

/-- A speculative kick classified by its head descriptor (R251), whose fetch adopts a committed format (R238). A head that has a
FORM 2 operand at all is held: no speculative byte crosses the link (R267). -/
def State.classified (s : State) (ch : Fin 16) (k : PendKick) (d : BitVec 256) : State :=
  let s := s.modChan ch fun x => { x with fmt := x.fmt.activate }
  let x := s.chan ch
  let c := x.ownCtx
  let f := x.fmt.active
  let st := k.station.val
  match s.descBad ch d f with
  | some b => s.kickFails ch k stBadDescriptor (haltDetail ch 4 st b)
  | none =>
    match s.descBound ch st d f with
    | some dt => s.kickFails ch k stBoundFault dt
    | none =>
      let k := { k with desc := some d, fmt := f }
      let free := fun (x : Chan) => { x with classify := none, classRetries := 0, classBeats := 0 }
      let dst := oForm (dOperand d 8)
      if dst = 1 || dst = 2 || (dKind d ≤ 1 && oForm (dOperand d 2) = 2) then
        if dst = 0 && !s.dstSpec ch d then s.kickFails ch k stSpecViolation (specDetail d st)
        else
        let s := s.modChan ch fun x => { free x with pendKick := some { k with held := k.epoch.isSome } }
        match k.epoch with
        | some e => s.modCtx c fun x => { x with held := setKickDesc ch e d x.held }
        | none => s
      else if s.dstSpec ch d then
        let s := match k.epoch with
          | some e => s.modCtx c fun x => { x with held := freeKickEntry ch e x.held }
          | none => s
        s.modChan ch fun x => { free x with pendKick := some k }
      else s.kickFails ch k stSpecViolation (specDetail d st)

/-- A kick takes effect (R250, R251): under an open epoch its head is fetched for classification; otherwise it becomes the
channel's pending kick, which starts when the channel is free. A channel that has no owner by then, or another, ignores it
(R223, R248). -/
def State.kickArrive (s : State) (n : Fin 24) (k : KickReq) : State :=
  let t := s.station n
  let p : PendKick := { station := n, queue := t.queue, order := t.order, head := k.head, epoch := k.epoch, arrival := s.stamp }
  let x := s.chan k.ch
  if !x.ownValid || x.ownCtx != t.ctx then
    match k.epoch with
    | some e => s.modCtx t.ctx fun x => { x with held := freeKickEntry k.ch e x.held }
    | none => s
  else
    let s := s.nextStamp
    match k.epoch with
    | some _ => s.modChan k.ch fun x => { x with classify := some p, classRetries := 0, classBeats := 0 }
    | none => s.modChan k.ch fun x => { x with pendKick := some p }

/-! ## NAND reads of chains (R203, R213, R241) -/

/-- Finished NAND streams of channels end their descriptors: done, or a halt with the outcome of R213. -/
def State.chanStreams (s : State) : State :=
  (List.finRange 16).foldl (fun s ch =>
    match s.main.nfc.streams.find? fun t => t.owner == .chan ch && t.finished with
    | none => s
    | some t =>
      let s := s.modNfc fun n => { n with streams := n.streams.filter fun x => x.seq != t.seq }
      match t.worst, (s.chan ch).cur with
      | some w, _ => s.chanHalt ch w.status w.detail none
      | none, some a => s.modChan ch fun x => x.withCur { a with done := true, unit := a.rows, rUnit := a.rows }
      | none, none => s) s

/-- Whether a pausing channel has drained (R241): no fetch and no read in flight, its buffers empty, no page queued or in flight, no
response awaited. -/
def State.chanDrained (s : State) (ch : Fin 16) : Bool :=
  let x := s.chan ch
  (!x.wantFetch || x.fetchBeats == 0) &&
  (match x.cur with
   | some a => a.tag.isNone && a.reads.isEmpty && a.got.isEmpty && a.out.isEmpty
   | none => true) && !s.main.nfc.streams.any fun t => t.owner == .chan ch && t.live != 0

end Sys2Proof.Machine
end

