-- ==== Sys2Proof/Machine/Idle.lean ====
section
/-!
DEFINITION. The idle conditions of R293, and the Dormant notice that they end (R296).
-/

namespace Sys2Proof.Machine

/-- Whether a held kick of any context stands in a closure buffer for a channel (R249). -/
def State.heldKick (s : State) (ch : Fin 16) : Bool :=
  (List.finRange 8).any fun c => (s.ctx c).held.any fun h =>
    match h.eff with
    | .kick _ k _ _ => k == ch
    | _ => false

/-- Whether a channel is running, armed, or holds a pending or held kick (R49, R83, R293). -/
def State.chanBusy (s : State) (ch : Fin 16) : Bool :=
  let x := s.chan ch
  x.state == .running || x.state == .armed || x.pendKick.isSome || x.classify.isSome || x.startHeld.isSome || s.heldKick ch

/-- Whether a channel is busy. -/
def State.chansBusy (s : State) : Bool := (List.finRange 16).any s.chanBusy

/-! ## Idle conditions (R293) -/

/-- Whether a NAND operation is queued or in progress. -/
def State.nandBusy (s : State) : Bool :=
  !s.main.nfc.streams.isEmpty || (List.finRange 32).any fun u => (s.lun u).cur.isSome || !(s.lun u).queue.isEmpty

/-- Whether an array is being programmed or waits for it. -/
def State.progBusy (s : State) : Bool :=
  !s.main.progWait.isEmpty || (List.finRange 4).any fun k => (s.main.progs[k]).isSome

/-- Trim-idle. -/
def State.trimIdle (s : State) : Bool :=
  (List.finRange 24).all fun n => !(s.station n).running && (s.station n).claim.isNone && !(s.station n).benchBusy

/-- Hold-idle. -/
def State.holdIdle (s : State) : Bool :=
  s.trimIdle && s.serving && !s.main.glb.outOfService &&
    (List.finRange 16).all (fun q => (s.queue q).jobs.isEmpty && (s.queue q).hold.isEmpty) && !s.chansBusy && !s.nandBusy &&
    !s.progBusy &&
    (List.finRange 8).all (fun c =>
      (s.ctx c).epochs.isEmpty && (s.ctx c).held.isEmpty && (s.ctx c).reset.isNone && !(s.bound c).valid) &&
    s.aon.flushing.isNone

/-- Dormant-idle. -/
def State.dormantIdle (s : State) : Bool := s.holdIdle && !s.main.pwr.dipForce

/-- The Dormant notice cancelled (R296): its timer restarts and DORMANT_CANCELLED is set. -/
def State.cancelNotice (s : State) : State :=
  if s.main.pwr.notice then (s.modPwr fun p => { p with notice := false }).powerEvent 0x04 else s

/-- A Dormant notice is cancelled once Dormant-idle fails (R296). -/
def State.noticeCheck (s : State) : State := if s.main.pwr.notice && !s.dormantIdle then s.cancelNotice else s

end Sys2Proof.Machine
end

