-- ==== Sys2Proof/Machine/ArrayOps.lean ====
section
/-!
DEFINITION. Arrays outside a program: post-processing tables and zero points with the writes that a conversion holds
(R157), LOAD_ARRAYS and the programmers (R164 to R168, R350), and the reads that jobs make on the traverse engine's read
side (R65, R164, R246).
-/

namespace Sys2Proof.Machine

/-! ## Tables and zero points (R157) -/

/-- A table entry of an array. -/
def ArrayRegs.entry (r : ArrayRegs) (i : Nat) : BitVec 32 := ((r.pptab.find? fun p => p.1 == i).map Prod.snd).getD 0x00003C00

/-- A write to a table entry or zero point: held while its array converts (R157). -/
def Station.tableWrite (t : Station) (w : HeldWrite) : Station :=
  if t.arrayBusy w.array || t.heldWrites.any fun h => h.array == w.array && h.entry == w.entry then
    { t with heldWrites := t.heldWrites ++ [w] }
  else t.applyWrite w

/-- The entries of a table of 1,024 bytes written in order (R164, R165). -/
def Station.tableBytes (t : Station) (a : Fin 32) (bs : List Byte) : Station :=
  (List.finRange 256).foldl (fun t c => t.tableWrite { array := a, entry := some c, value := word 32 ((bs.drop (4 * c.val)).take 4) }) t

/-- The first held write whose array converts no longer takes effect. -/
def Station.releaseWrite (t : Station) : Station :=
  match t.heldWrites.find? fun w => !t.arrayBusy w.array with
  | some w => { t.applyWrite w with heldWrites := t.heldWrites.erase w }
  | none => t

/-! ## LOAD_ARRAYS (R164 to R166) -/

/-- MASK of a LOAD_ARRAYS. -/
def Job.laMask (j : Job) : BitVec 32 := BitVec.ofNat 32 (j.le 24 4)
/-- STATION of a LOAD_ARRAYS. -/
def Job.laStation (j : Job) : Nat := j.le 28 1 % 32
/-- MODE of a LOAD_ARRAYS. -/
def Job.laMode (j : Job) : Nat := j.le 29 1
/-- SOURCE of a job that has it at bytes 16 to 20 (LOAD_ARRAYS). -/
def Job.laSource (j : Job) : Nat := j.le 16 5

/-- The lowest offending byte of a LOAD_ARRAYS payload (R61, R164). -/
def State.laBad (s : State) (j : Job) : Option Nat :=
  minOpt (j.nonzero [21, 22, 23] ++ offIf (j.laMask == 0) 24 ++
    offIf (32 ≤ j.le 28 1 || !s.otp.stationMap.getLsbD j.laStation || 24 ≤ j.laStation) 28 ++ offIf (1 < j.laMode) 29 ++
    (if j.laMode = 1 then offIf (j.le 30 2 != 0) 30 else []) ++ j.nonzero ((List.range 32).map (32 + ·)))

/-- Bytes of one unit of the source: an image or a table (R164). -/
def Job.laUnit (j : Job) : Nat := if j.laMode = 0 then 131072 else 1024

/-- The check of a LOAD_ARRAYS source range (R164, R387). -/
def State.laRange (s : State) (j : Job) : Option (BitVec 32) :=
  s.rangeCheck (s.ctx j.ctx).table.active 0 j.laSource (j.laUnit * popCount j.laMask)

/-- The work of a mode-0 job: one entry per selected array, ascending (R165). -/
def Job.laWorks (j : Job) (q : Fin 16) : List ProgWork :=
  (maskArrays j.laMask).mapIdx fun i a =>
    { order := j.order, queue := q, ctx := j.ctx, gen := j.gen, station := Fin.ofNat 24 j.laStation, array := a,
      source := BitVec.ofNat 40 (j.laSource + 131072 * i), failLimit := BitVec.ofNat 16 (j.le 30 2) }

/-- Whether an array has a programmer. -/
def State.programmed (s : State) (n : Fin 24) (a : Fin 32) : Bool :=
  (List.finRange 4).any fun k => s.main.progs[k].any fun w => w.station == n && w.array == a

/-- The first waiting array of each job: within a job arrays take programmers in ascending order (R165). -/
def firstWorks (l : List ProgWork) : List ProgWork :=
  l.foldl (fun acc w => if acc.any fun v => v.order == w.order then acc else acc ++ [w]) []

/-- The waiting array that a free programmer takes next: of the job taken earliest, its first (R165). An array that another job
is programming is waited for. -/
def State.nextWork (s : State) : Option ProgWork :=
  ((firstWorks s.main.progWait).filter fun w => !s.programmed w.station w.array).foldl (fun b w =>
    match b with
    | none => some w
    | some v => some (if w.order < v.order then w else v)) none

/-- A job's array work is over once no array of it waits or has a programmer (R166). -/
def State.laDone (s : State) (q : Fin 16) (order : Nat) : State :=
  if s.main.progWait.any (fun w => w.queue == q && w.order == order) ||
      (List.finRange 4).any (fun k => s.main.progs[k].any fun w => w.queue == q && w.order == order) then s
  else s.modJobOrder q order fun j => if j.phase = .running then { j with phase := .ended } else j

/-- A programmer replaced or freed. -/
def State.setProg (s : State) (k : Fin 4) (w : Option ProgWork) : State :=
  s.modMain fun m => { m with progs := m.progs.set k w }

/-- An image was read whole: the array enters PROGRAMMING (R165 steps 3 and 4, R168, R350). -/
def State.startProgramming (s : State) (k : Fin 4) (w : ProgWork) (img : List Byte) : State :=
  let s := s.setProg k (some { w with programming := true, image := img, digest := word 256 (sha256 img) })
  let s := s.modNv w.station w.array fun v =>
    let c := if v.cycles = 0x1FFFF then v.cycles else v.cycles + 1
    { v with state := 2, cycles := c, worn := 100000 ≤ c.toNat, digest := 0 }
  s.modStation w.station fun t => if t.benchBusy && t.benchArray = w.array then { t with benchBusy := false } else t

/-- The outcome of one array added to its job: the lowest array's verify failure, and BUS_ERROR before it (R166). -/
def Job.noteFail (j : Job) (status : BitVec 16) (detail : BitVec 32) : Job :=
  if j.status = stOk || (j.status = stVerifyFail && (status = stBusError || detail.extractLsb' 0 5 < j.detail.extractLsb' 0 5))
  then { j with status := status, detail := detail } else j

/-- DETAIL of ARRAY_VERIFY_FAIL (R166). -/
def verifyDetail (a : Fin 32) (n : Fin 24) (cells : BitVec 16) : BitVec 32 :=
  BitVec.ofNat 32 (a.val + 256 * n.val + 65536 * cells.toNat)

/-- The levels of the benchmark pairs Z, H, F and N on every row, L+ in [3:0] and L- in [7:4] (chapter 7, "What the benchmark
columns measure"). -/
def benchLevels : Vector (BitVec 8) 4 := #v[0x88, 0x4C, 0x0F, 0xF0]

/-- The ideal sum of a benchmark pair over the 64 rows that a repetition drives, in level units (R162). -/
def benchIdeal (levels : BitVec 8) : Int := 64 * ((levels.toNat % 16 : Nat) - (levels.toNat / 16 : Nat) : Int)

/-- The code of a repetition of a fresh part with no converter error (R162): the sum over LSB = 32, with ((i mod 16) - 7.5) / 16
LSB added before the converter rounds, clamped to -32 and +31. -/
def benchIdealCode (levels : BitVec 8) (i : Fin 256) : Int :=
  max (-32) (min 31 ((benchIdeal levels + 2 * (i.val % 16 : Nat) - 15 + 16) / 32))

/-- The four code sums of a measurement, S_Z lowest (R162, STN_BENCH_RES). -/
def benchSums (codes : BenchCodes) : BitVec 64 :=
  (List.finRange 4).foldl (fun x p =>
    x ||| (BitVec.ofInt 16 (codes.toList.foldl (fun a c => a + (c.get p).toInt) 0)).setWidth 64 <<< (16 * p.val)) 0

/-- A programmed array ends WRITTEN or UNWRITTEN (R165 step 6, R166, R350). The device writes the benchmark columns with the
weights (R148). -/
def State.endProgramming (s : State) (k : Fin 4) (w : ProgWork) (cells : Fin 266241) (iter : Fin 17) : State :=
  let f : BitVec 16 := if 0xFFFF < cells.val then 0xFFFF else BitVec.ofNat 16 cells.val
  let good := cells.val ≤ w.failLimit.toNat
  let s := s.modNv w.station w.array fun v =>
    { v with state := if good then 1 else 0, failCells := f, degraded := f != 0, maxIter := BitVec.ofNat 8 (8 + iter.val), bench := benchLevels,
             digest := if good then w.digest else 0, image := (Memory.undefined 0).writeBytes 0 w.image }
  let s := s.setProg k none
  let s := if good then s
    else s.modJobOrder w.queue w.order fun j => j.noteFail stVerifyFail (verifyDetail w.array w.station f)
  s.laDone w.queue w.order

/-- The source read of a LOAD_ARRAYS failed after its retries (R166, R246): the array that was being read and those not
started are untouched. -/
def State.laFail (s : State) (q : Fin 16) (order addr : Nat) : State :=
  let s := s.modMain fun m =>
    { m with laErrAddr := BitVec.ofNat 40 addr, progWait := m.progWait.filter fun w => w.queue != q || w.order != order,
             progs := Vector.ofFn fun k => m.progs[k].filter fun w => w.programming || w.queue != q || w.order != order }
  (s.modJobOrder q order fun j => j.noteFail stBusError 0x1F1F).laDone q order

/-- Bytes that a requester's read brings: all that is left from device memory, or what the host answered. -/
def State.fetchPart (s : State) (a left : Nat) (data : List Byte) : List Byte :=
  match s.place a left with
  | some (.host _) => data.take left
  | some p => s.readPlace p left
  | none => []

/-- A part of an image arrived at a programmer (R165 step 2). -/
def State.programmerRead (s : State) (k : Fin 4) (data : List Byte) : State :=
  match s.main.progs[k] with
  | none => s
  | some w =>
    if w.programming then s
    else
      let img := w.image ++ s.fetchPart (w.source.toNat + w.image.length) (131072 - w.image.length) data
      if img.length = 131072 then s.startProgramming k w img
      else s.setProg k (some { w with image := img, retries := 0 })

/-- A part of the tables of a mode-1 LOAD_ARRAYS arrived: each table that is whole is applied (R164, R165). -/
def State.tablesRead (s : State) (q : Fin 16) (data : List Byte) : State :=
  match s.job q with
  | none => s
  | some j =>
    if j.cmd = 2 && j.laMode = 1 && j.phase == .running then
      let total := 1024 * popCount j.laMask
      let part := s.fetchPart (j.laSource + j.report.length) (total - j.report.length) data
      let all := j.report ++ part
      let n : Fin 24 := Fin.ofNat 24 j.laStation
      let now := ((maskArrays j.laMask).mapIdx fun i a => (i, a)).filter fun p =>
        j.report.length < 1024 * (p.1 + 1) && 1024 * (p.1 + 1) ≤ all.length
      let s := now.foldl (fun s p => s.modStation n fun t => t.tableBytes p.2 ((all.drop (1024 * p.1)).take 1024)) s
      s.modJob q fun j => { j with report := all, retries := 0, phase := if all.length = total then .ended else .running }
    else s

/-! ## SET_PARCELS (R65) -/

/-- FIRST of a SET_PARCELS. -/
def Job.spFirst (j : Job) : Nat := j.le 16 1
/-- COUNT of a SET_PARCELS. -/
def Job.spCount (j : Job) : Nat := j.le 17 1
/-- SOURCE of a SET_PARCELS. -/
def Job.spSource (j : Job) : Nat := j.le 24 5

/-- Entry i of the bytes that a SET_PARCELS read. -/
def spEntry (bs : List Byte) (i : Nat) : List Byte := (bs.drop (32 * i)).take 32

/-- The lowest entry that breaks R85, with its lowest offending byte (R65). -/
def State.spBad (s : State) (j : Job) (bs : List Byte) : Option (Nat × Nat) :=
  (List.range j.spCount).findSome? fun i => (s.entryBad (spEntry bs i)).map fun b => (i, b)

/-- The entries written into the context's table, all at once (R65). -/
def State.spWrite (s : State) (j : Job) (bs : List Byte) : State :=
  s.modCtx j.ctx fun x => { x with table := { x.table with active := Vector.ofFn fun i =>
    if j.spFirst ≤ i.val && i.val < j.spFirst + j.spCount then parcelOf (spEntry bs (i.val - j.spFirst))
    else x.table.active[i] } }

/-- A part of a SET_PARCELS source arrived (R65). Data of the current generation that arrives while the job's context is resetting
still writes the table, although the record is CTX_RESET: the spec leaves that open, the model's choice (log entry 73). -/
def State.setParcelsRead (s : State) (q : Fin 16) (data : List Byte) : State :=
  match s.job q with
  | none => s
  | some j =>
    if j.cmd = 9 && j.phase == .running then
      let total := 32 * j.spCount
      let all := j.report ++ s.fetchPart (j.spSource + j.report.length) (total - j.report.length) data
      if all.length < total then s.modJob q fun j => { j with report := all, retries := 0 }
      else match s.spBad j all with
        | some (i, b) => s.setEnd q stBadDescriptor (BitVec.ofNat 32 (24 + 256 * i + 65536 * b))
        | none => (s.spWrite j all).setEnd q stOk 0
    else s

/-! ## Failed reads of requesters (R65, R166, R245) -/

/-- Whether an access from a device address of a requester can fail: it lies in the host window or does not respond. -/
def State.canFail (s : State) (a n : Nat) : Bool := inHostWindow a || (s.place a n).isNone

/-- A programmer's read failed (R245, R246). -/
def State.programmerFail (s : State) (k : Fin 4) : State :=
  match s.main.progs[k] with
  | none => s
  | some w =>
    let a := w.source.toNat + w.image.length
    if w.programming || !s.canFail a (131072 - w.image.length) then s
    else if w.retries < s.main.trvRetry.toNat then s.setProg k (some { w with retries := w.retries + 1 })
    else s.laFail w.queue w.order a

/-- A read of a mode-1 LOAD_ARRAYS failed (R245, R246). -/
def State.tablesFail (s : State) (q : Fin 16) : State :=
  match s.job q with
  | none => s
  | some j =>
    let a := j.laSource + j.report.length
    if j.cmd = 2 && j.laMode = 1 && j.phase == .running && s.canFail a (1024 * popCount j.laMask - j.report.length) then
      if j.retries < s.main.trvRetry.toNat then s.modJob q fun j => { j with retries := j.retries + 1 }
      else (s.modMain fun m => { m with laErrAddr := BitVec.ofNat 40 a }).setEnd q stBusError 0x1F1F
    else s

/-- A read of a SET_PARCELS failed (R65). -/
def State.setParcelsFail (s : State) (q : Fin 16) : State :=
  match s.job q with
  | none => s
  | some j =>
    if j.cmd = 9 && j.phase == .running &&
        s.canFail (j.spSource + j.report.length) (32 * j.spCount - j.report.length) then
      if j.retries < s.main.trvRetry.toNat then s.modJob q fun j => { j with retries := j.retries + 1 }
      else s.setEnd q stBusError 0
    else s

/-- The report write of an ATTEST job failed (R351): it lies in the host window. -/
def State.attestFail (s : State) (q : Fin 16) : State :=
  match s.job q with
  | none => s
  | some j =>
    if j.cmd = 8 && j.phase == .running && !j.report.isEmpty && inHostWindow (j.le 48 5) then
      (s.modIdk fun i => { i with sigBusy := none }).setEnd q stBusError 0
    else s

end Sys2Proof.Machine
end

