-- ==== Sys2Proof/Machine/Traverse.lean ====
section
/-!
DEFINITION. The traverse engine's commands (chapter 11): starting, pausing, resuming and cancelling channels, owners and
formats, ticks, descriptor fetches, reads, failed accesses, ends of descriptors, and kicks.
-/

namespace Sys2Proof.Machine

/-- TRV_START (R226): START is ignored on an armed or running channel and on one without an owner (R223, R227). It
ends a Dormant notice (R296). -/
def execTrvStart (ch : Fin 16) (s : State) : Host.Outcome State Fault Refusal :=
  .next <| s.when (s.serving && (s.chan ch).ownValid && (s.chan ch).startHeld.isNone &&
      ((s.chan ch).state == .idle || (s.chan ch).state == .halted)) fun s =>
    let x := s.chan ch
    (if x.trig = 0 && s.main.pwr.forcing then s.modChan ch fun x => { x with startHeld := some x.head }
     else if x.trig = 0 then s.chainStart ch .driver x.head x.crcSel none
     else s.modChan ch fun x => { x with state := .armed }).noticeCheck.chansSettle

/-- TRV_PAUSE (R241). -/
def execTrvPause (ch : Fin 16) (s : State) : Host.Outcome State Fault Refusal :=
  .next <| s.when s.serving fun s => s.modChan ch fun x => { x with pause := true }

/-- PAUSED (R241, R243): a pausing channel has drained; a cancelled chain ends. -/
def execPaused (ch : Fin 16) (s : State) : Host.Outcome State Fault Refusal :=
  .next <| s.when s.serving fun s =>
    let go := (s.chan ch).pause || (s.chan ch).cancelling
    let t := if go then s.until fun s => s.chanDrained ch else s
    if !t.chanDrained ch then t
    else if (t.chan ch).cancelling then (t.cancelDone ch).chansSettle
    else if go then t.modChan ch fun x => { x with paused := true }
    else t

/-- TRV_RESUME (R242): the channel goes on from its registers. -/
def execTrvResume (ch : Fin 16) (s : State) : Host.Outcome State Fault Refusal :=
  .next <| s.when s.serving fun s =>
    let s := s.modChan ch fun x => { x with pause := false, paused := false }
    let x := s.chan ch
    let s := match x.cur with
      | some a =>
        if a.needTick && x.pendCount != 0 then
          (s.modChan ch fun x => { x with pendCount := x.pendCount - 1 }.withCur { a with needTick := false }).goDesc ch
        else s
      | none => s
    (s.pumpNand.chanStreams.peerStep ch).chansSettle

/-- TRV_CANCEL (R243): accepted for a chain that the driver started, refused for a COPY or a program's chain. An armed
channel becomes idle. -/
def execTrvCancel (ch : Fin 16) (s : State) : Host.Outcome State Fault Refusal :=
  .next <| s.when s.serving fun s =>
    let x := s.chan ch
    match x.state with
    | .armed => (s.cancelDone ch).chansSettle
    | .running =>
      if x.starter == .driver then
        if s.chanDrained ch then (s.cancelDone ch).chansSettle else s.modChan ch fun x => { x with cancelling := true }
      else s.modChan ch fun x => { x with cancelRefused := true }
    | _ => s.modChan ch fun x => { x with startHeld := none }

/-- TRV_CHN_OWNER (R223): accepted only while the channel is idle or halted and holds no pending kick. -/
def execTrvChnOwner (ch : Fin 16) (c : Fin 8) (valid : Bool) (s : State) : Host.Outcome State Fault Refusal :=
  .next <| s.when s.serving fun s =>
    let x := s.chan ch
    if (x.state == .idle || x.state == .halted) && x.pendKick.isNone && x.classify.isNone && x.startHeld.isNone then
      s.modChan ch fun x => { x with ownCtx := c, ownValid := valid }
    else s.modChan ch fun x => { x with ownerBusy := true }

/-- TRV_CHN_COMMIT (R238): the staged format waits for the channel's next descriptor fetch. -/
def execTrvChnCommit (ch : Fin 16) (s : State) : Host.Outcome State Fault Refusal :=
  .next <| s.when s.serving fun s => s.modChan ch fun x => { x with fmt := x.fmt.commit }

/-! ## Ticks (R227, R252) -/

/-- Whether generator g ticks at this peripheral clock, once at each (R252). -/
def State.ticks (s : State) (g : Fin 4) : Bool :=
  let x := s.main.gens[g]
  x.en && x.ticked != some s.time && x.phase.active.toNat ≤ s.time.toNat && (s.time.toNat - x.phase.active.toNat) % x.period.active.toNat == 0

/-- A tick reaches one channel (R226, R227): it lets a descriptor that waits begin, or is counted. -/
def State.tickChan (g : Fin 4) (s : State) (ch : Fin 16) : State :=
  let x := s.chan ch
  if (x.trig = 1 || x.how = 1) && x.tsel = g && (x.state == .armed || x.state == .running) then
    match x.cur with
    | some a =>
      if a.needTick && !x.pause then (s.modChan ch fun x => x.withCur { a with needTick := false }).goDesc ch
      else s.modChan ch fun x => if x.pendCount = 15 then { x with overrun := true } else { x with pendCount := x.pendCount + 1 }
    | none => s.modChan ch fun x => if x.pendCount = 15 then { x with overrun := true } else { x with pendCount := x.pendCount + 1 }
  else s

/-- TICK (R252, R227): a generator ticks where its formula holds; it adopts a pending pair; its channels take the tick. The
generators run before READY too (R42). -/
def execTick (g : Fin 4) (s : State) : Host.Outcome State Fault Refusal :=
  .next <| s.when (s.running && s.ticks g) fun s =>
    let s := s.modMain fun m =>
      { m with gens := upd m.gens g fun x => { x with period := x.period.activate, phase := x.phase.activate, ticked := some m.time } }
    ((List.finRange 16).foldl (State.tickChan g) s).chansSettle

/-- TCK_COMMIT (R252): pending pairs, adopted at once by a generator that does not run. A PERIOD below 16 is stored as 16
when it is written. -/
def execTckCommit (s : State) : Host.Outcome State Fault Refusal :=
  .next <| s.when s.running fun s => s.modMain fun m =>
    { m with gens := Vector.ofFn fun g =>
        let x := m.gens[g]
        let x := { x with period := x.period.commit, phase := x.phase.commit }
        if x.en then x else { x with period := x.period.activate, phase := x.phase.activate } }

/-! ## Fetches and reads -/

/-- A fetch of a channel completes (R231, R228, R235, R251): the head of a speculative kick, or the chain's next descriptor. A
fetch from an address that does not respond brings nothing; it fails as ACCESS_FAIL says. -/
def State.fetched (s : State) (ch : Fin 16) (reply : BitVec 256) : State :=
  let x := s.chan ch
  match x.classify with
  | some k =>
    if headBad k.head then (s.kickFails ch k stBadDescriptor (haltDetail ch 4 k.station.val 0)).chansSettle
    else if x.classBeats < 2 then s
    else match s.descAt k.head.toNat reply with
      | some d => (s.classified ch k d).chansSettle
      | none => s
  | none =>
    if x.state == .running && x.wantFetch && 2 ≤ x.fetchBeats then
      match s.descAt x.descAddr.toNat reply with
      | some d => (s.loadDesc ch d).chanStreams.chansSettle
      | none => s
    else s

/-- Whether a channel's fetch has its two beats, or there is none to wait for. -/
def State.fetchIssued (ch : Fin 16) (s : State) : Bool :=
  let x := s.chan ch
  if x.classify.isSome then decide (2 ≤ x.classBeats) else !x.wantFetch || decide (2 ≤ x.fetchBeats)

/-- TRAVERSE_DESCRIPTOR_FETCH (R231, R244): the engine's clocks up to the fetch's second beat have passed. -/
def execTraverseDescriptorFetch (ch : Fin 16) (reply : BitVec 256) (s : State) : Host.Outcome State Fault Refusal :=
  .next <| s.when s.serving fun s => (s.until (State.fetchIssued ch)).fetched ch reply

/-- The oldest read of a channel that a completion can return: its data fits the holding buffer (R225). -/
def State.readDue (s : State) (ch : Fin 16) : Option (Active × TrvRead) :=
  let x := s.chan ch
  match x.cur with
  | none => none
  | some a =>
    match a.reads with
    | [] => none
    | r :: _ =>
      if x.state != .running || a.srcPeer.isSome || r.dead || (!r.index && decide (64 < a.got.length + r.len)) then none
      else some (a, r)

/-- A read that responds returned: index values, or bytes for the holding buffer (R225, R233). -/
def State.readDone (s : State) (ch : Fin 16) (a : Active) (r : TrvRead) (data : List Byte) : State :=
  if (s.place r.addr r.len).isNone then s
  else s.nextStamp.modChan ch fun x =>
    { x with retries := 0 }.withCur (a.gotRead r (s.overlapped a r.addr (s.readAt r.addr r.len data)))

/-- A reply of a channel's read (R224, R225, R284, R285): a stale one, or one that a revocation forgot, is dropped and counted. -/
def State.chanRead (s : State) (ch : Fin 16) (gen : BitVec 8) (data : List Byte) : State :=
  let x := s.chan ch
  let stale := s.modCtx x.ownCtx fun c => { c with staleDrops := c.staleDrops + 1 }
  if gen != (s.ctx x.ownCtx).gen then stale
  else match s.readDue ch with
    | some (a, r) => s.readDone ch a r data
    | none => if x.forgotten = 0 || x.state == .running then s else stale.modChan ch fun x => { x with forgotten := x.forgotten - 1 }

/-- Data for a requester of a context other than a channel: a reply of a generation that is not current is dropped and counted
(R284). -/
def State.freshReply (s : State) (c : Option (Fin 8)) (gen : BitVec 8) (f : State → State) : State :=
  match c with
  | none => s
  | some c => if gen = (s.ctx c).gen then f s else s.modCtx c fun x => { x with staleDrops := x.staleDrops + 1 }

/-- TRAVERSE_READ_COMPLETION (R224, R225, R284): data for a channel, a programmer, a SET_PARCELS or a mode-1 LOAD_ARRAYS. -/
def execTraverseReadCompletion (who : Requester) (gen : BitVec 8) (data : List (BitVec 8)) (s : State) :
    Host.Outcome State Fault Refusal :=
  .next <| s.when s.serving fun s =>
    match who with
    | .chan ch => ((s.until fun s => (s.readDue ch).isSome).chanRead ch gen data).chansSettle
    | .programmer k => s.freshReply (s.main.progs[k].map ProgWork.ctx) gen fun s => s.programmerRead k data
    | .setParcels q => s.freshReply ((s.job q).map Job.ctx) gen fun s => s.setParcelsRead q data
    | .tables q => s.freshReply ((s.job q).map Job.ctx) gen fun s => s.tablesRead q data
    | .attest _ | .sample _ => s

/-- An access of a channel failed (R245): it lies in the host window or does not respond. -/
def State.chanFail (s : State) (ch : Fin 16) : State :=
  let x := s.chan ch
  match s.access ch with
  | none => s
  | some c =>
    if !s.accessFails c then s
    else match x.classify with
    | some k =>
      if x.classRetries < s.main.trvRetry.toNat then s.modChan ch fun x => { x with classRetries := x.classRetries + 1 }
      else s.kickFails ch k stBusError (haltDetail ch 2 k.station.val 0)
    | none =>
      if c.code = 2 then s.failAccess ch 2 c.adr none
      else if c.code = 1 then s.failWrite ch c.adr c.peer
      else s.failedRead ch c.adr

/-- Whether a channel's failed read has brought its halt. -/
def State.noDead (ch : Fin 16) (s : State) : Bool := (s.chan ch).cur.all fun a => !a.dead

/-! ## Ends of descriptors -/

/-- How many closure-buffer entries the end of a descriptor of a speculative chain needs (R251, R187). -/
def endEntries (d : BitVec 256) : Nat := (if dSig d then 1 else 0) + (if dIrq d then 1 else 0)

/-- A held-class effect of a speculative chain (R187, R195): held while its epoch is open, made once it committed, dropped
and counted once it was discarded. -/
def State.holdOr (s : State) (c : Fin 8) (tag : Option (BitVec 16)) (e : HeldEffect) (now : State → State) : State :=
  match tag with
  | none => now s
  | some t =>
    match (s.ctx c).verdict t with
    | .isOpen => s.modCtx c fun x => { x with held := x.held ++ [⟨t, e⟩] }
    | .committed => now s
    | .discarded => s.modCtx c fun x => { x with dropped := x.dropped + 1 }

/-- The mark update and the interrupt of a descriptor's end (R247). A peer destination had its SIG at the peer (R267). -/
def State.descSignals (s : State) (ch : Fin 16) (a : Active) : State :=
  let x := s.chan ch
  let s := if dSig a.raw && a.dstPeer.isNone then
      s.holdOr x.ownCtx x.spec (.sig (dMark a.raw)) fun s => s.addMark (dMark a.raw) 1
    else s
  if dIrq a.raw then s.holdOr x.ownCtx x.spec (.irq (chanVector ch)) fun s => s.chanIrq ch else s

/-- What follows a descriptor that ended: the chain's end, CHAIN_LIMIT, or the fetch of NEXT (R232, R247). -/
def State.descNext (s : State) (ch : Fin 16) (a : Active) : State :=
  let x := s.chan ch
  if a.last then s.chanEnd ch
  else if s.main.chainLimit.toNat ≤ x.descCount.toNat then
    s.chanHalt ch stChainLimit (haltDetail ch 4 x.starter.station 0) none
  else s.modChan ch fun x => { x with cur := none, wantFetch := true, descAddr := dNext a.raw }

/-- Whether the closure buffer lacks room for what the end of a speculative chain's descriptor holds (R188): only under an
epoch that is still open is anything held (R195). -/
def State.endWaits (s : State) (ch : Fin 16) (a : Active) : Bool :=
  let x := s.chan ch
  x.spec.any fun e => (s.ctx x.ownCtx).verdict e == .isOpen && decide (64 < (s.ctx x.ownCtx).held.length + endEntries a.raw)

/-- DESCRIPTOR_END (R247): every write of the descriptor was applied. The end of a speculative chain's descriptor
waits while the closure buffer has no room for its effects (R188); a chain that is being cancelled has none (R243). -/
def execDescriptorEnd (ch : Fin 16) (s : State) : Host.Outcome State Fault Refusal :=
  .next <| s.when s.serving fun s =>
    let s := s.until fun s => (s.chan ch).cur.all Active.done
    match (s.chan ch).cur with
    | none => s
    | some a =>
      s.when ((s.chan ch).state == .running && !(s.chan ch).cancelling && a.done && !s.endWaits ch a) fun s =>
        ((s.descSignals ch a).descNext ch a).chansSettle

/-! ## Kicks -/

/-- Whether every write and accumulate that a station issued before a place in the order of issue has been applied (R96,
R250). -/
def Station.writesBefore (t : Station) (seq : Nat) : Bool :=
  (t.dmuQ ++ t.vecQ ++ t.qntQ ++ t.arrQ).all fun i =>
    seq ≤ i.seq || (match i.range with
      | some r => r.kind == .read
      | none => true)

/-- KICK (R250, R251): a station's oldest kick takes effect once its earlier writes are applied and the channel holds no
other pending kick. -/
def execKick (n : Fin 24) (s : State) : Host.Outcome State Fault Refusal :=
  .next <| match (s.station n).kicks with
    | [] => s
    | k :: rest =>
      let x := s.chan k.ch
      s.when (s.serving && (s.station n).writesBefore k.seq && x.pendKick.isNone && x.classify.isNone) fun s =>
        (((s.kickArrive n k).modStation n fun t => { t with kicks := rest }).chansSettle).settle n

end Sys2Proof.Machine
end

