-- ==== Sys2Proof/Machine/EpochOps.lean ====
section
/-!
DEFINITION. Closing epochs (R187 to R195): the release of held effects at a commit, and what a discard drops.
-/

namespace Sys2Proof.Machine

/-- A held kick released (R189, R251): it is no longer kept, and starts when its channel is free. -/
def State.releaseKick (s : State) (ch : Fin 16) (e : BitVec 16) : State :=
  let free := fun (k : PendKick) => if k.epoch = some e then { k with epoch := none, held := false } else k
  let s := s.modChan ch fun x =>
    match x.classify with
    | some k =>
      if k.epoch = some e then { x with classify := none, pendKick := some (free k), classRetries := 0, classBeats := 0 }
      else { x with pendKick := x.pendKick.map free }
    | none => { x with pendKick := x.pendKick.map free }
  s.modMain fun m => { m with stations := Vector.ofFn fun n =>
    let t := m.stations[n]
    { t with kicks := t.kicks.map fun k => if k.ch = ch && k.epoch = some e then { k with epoch := none } else k } }

/-- One held effect released (R191): it runs as it would have run outside an epoch. -/
def State.release (s : State) (h : Held) : State :=
  match h.eff with
  | .msig n mark v seq =>
    if (s.station n).writesBefore seq then s.addMark mark v
    else s.modStation n fun t => { t with signals := t.signals ++ [{ mark := mark, value := v, seq := seq }] }
  | .kick _ ch _ _ => s.releaseKick ch h.epoch
  | .sig m => s.addMark m 1
  | .irq v => s.raiseIf (!s.main.trvIrqMask.getLsbD (v.val - 24)) v
  | .completion r sig _ fault =>
    let r := match fault with
      | some (st, d) => { r with status := st, detail := d }
      | none => r
    let s := match fault, sig with
      | none, some m => s.addMark m 1
      | _, _ => s
    s.deliver r.queue r

/-- An epoch and every older one of a list in open order. -/
def upTo (e : BitVec 16) : List (BitVec 16) → List (BitVec 16)
  | [] => []
  | x :: t => if x = e then [x] else x :: upTo e t

/-- Latched faults of committed epochs reported, in the order in which they were latched; one message for all (R193). -/
def State.reportAll (s : State) (c : Fin 8) (ls : List Latched) : State :=
  (ls.foldl (fun s l => s.reportLatched c l) s).raiseIf (!ls.isEmpty) (ctxVector c)

/-- A commit of an epoch (R191, R193): it and every older one close, their latched faults are reported, their held effects
released in order, their deferred flags set. -/
def State.commitEpoch (s : State) (c : Fin 8) (e : BitVec 16) : State :=
  let x := s.ctx c
  let es := upTo e x.epochs
  let s := s.modCtx c fun x =>
    { x with epochs := x.epochs.drop es.length, closed := x.closed ++ es.map fun k => (k, true), commits := x.commits + 1,
             latched := x.latched.filter fun l => !es.contains l.epoch,
             deferred := x.deferred.filter fun d => !es.contains d.epoch }
  let s := s.reportAll c (x.latched.filter fun l => es.contains l.epoch)
  let held := (s.ctx c).held.filter fun h => es.contains h.epoch
  let s := s.modCtx c fun x => { x with held := x.held.filter fun h => !es.contains h.epoch }
  let s := held.foldl State.release s
  let s := (x.deferred.filter fun d => es.contains d.epoch).foldl (fun s d => s.applyDeferred d.eff) s
  s.settleAll.peerSteps.chansSettle

/-- Kicks of closed epochs that never took effect dropped from channels and stations of a context (R251). -/
def State.dropKicks (s : State) (c : Fin 8) (es : List (BitVec 16)) : State :=
  let gone := fun (o : Option (BitVec 16)) => o.any fun e => es.contains e
  s.modMain fun m => { m with
    chans := Vector.ofFn fun ch =>
      let x := m.chans[ch]
      if x.ownCtx = c then
        { x with pendKick := x.pendKick.filter fun k => !(k.held && gone k.epoch), classify := x.classify.filter fun k => !gone k.epoch }
      else x,
    stations := Vector.ofFn fun n =>
      let t := m.stations[n]
      if t.running && t.ctx = c then { t with kicks := t.kicks.filter fun k => !gone k.epoch } else t }

/-- Stations that waited at a faulting fetch under closed epochs fetch again (R388). -/
def State.refetch (s : State) (c : Fin 8) (ls : List Latched) : State :=
  s.modMain fun m => { m with stations := Vector.ofFn fun n =>
    let t := m.stations[n]
    if t.fetchWait && t.ctx = c && ls.any (fun l => l.station == n && l.instr == 0 && l.pc == t.pcWord) then
      { t with fetchWait := false }
    else t }

/-- The NAND reads of closed epochs cancelled where they are still queued, and what they had not queued yet (R187, R192). -/
def State.cancelReads (s : State) (c : Fin 8) (es : List (BitVec 16)) : State :=
  let gone := fun (o : Option (BitVec 16)) => o.any fun e => es.contains e
  let s := s.dropQueued fun o => o.ctx == c && gone o.spec && o.owner != .ctrl
  (s.modNfc fun n => { n with streams := n.streams.map fun t => if t.ctx = c && gone t.spec then { t with count := t.next } else t }).pumpNand.chanStreams

/-- A discard of some open epochs, the newest ones (R192): held effects dropped, queued reads cancelled, latched faults
suppressed. -/
def State.discardEpochs (s : State) (c : Fin 8) (es : List (BitVec 16)) : State :=
  let x := s.ctx c
  let ls := x.latched.filter fun l => es.contains l.epoch
  let drop := x.held.countP fun h => es.contains h.epoch
  let s := s.modCtx c fun x =>
    { x with epochs := x.epochs.filter fun k => !es.contains k, closed := x.closed ++ es.map fun k => (k, false),
             discards := x.discards + 1, dropped := x.dropped + BitVec.ofNat 64 drop,
             held := x.held.filter fun h => !es.contains h.epoch, latched := x.latched.filter fun l => !es.contains l.epoch,
             deferred := x.deferred.filter fun d => !es.contains d.epoch }
  let s := ls.foldl (fun s l => s.suppressLatched c l) s
  (((s.dropKicks c es).refetch c ls).cancelReads c es).settleAll.chansSettle

/-- Whether every instruction that a station issued earlier has completed and every chain and NAND read that it started
has ended (R190). A kick that is held does not count. -/
def State.workEnded (s : State) (n : Fin 24) : Bool :=
  let t := s.station n
  t.drained && (List.finRange 16).all fun ch =>
    let x := s.chan ch
    let mine := fun (k : PendKick) => k.station == n && k.order == t.order && !k.held
    !(x.state == .running && x.starter == .program n t.queue t.order) && !x.pendKick.any mine && !x.classify.any mine

/-- The spec register of a station (R184, R194; chapter 9, Registers). -/
def State.specWord (s : State) (c : Fin 8) (n : Option (Fin 24)) : BitVec 64 :=
  let x := s.ctx c
  let latched := (x.epochs.mapIdx fun i e =>
    if n.any fun k => x.latched.any fun l => l.epoch == e && l.station == k then 2 ^ i else 0).foldl (· + ·) 0
  BitVec.ofNat 64 ((x.epochs.head?.getD x.nextEpoch).toNat + x.epochs.length * 2 ^ 16 + latched * 2 ^ 20 +
    x.held.length * 2 ^ 24 + x.nextEpoch.toNat * 2 ^ 32)

end Sys2Proof.Machine
end

