-- ==== Sys2Proof/Machine/CtxOps.lean ====
section
/-!
DEFINITION. Context resets (R273 to R287), escalation and OUT_OF_SERVICE (R288 to R291), and ports that go down (R258,
R270).
-/

namespace Sys2Proof.Machine

/-! ## Triggers -/

/-- Whether a job of a context runs: it was started and has not completed, or waited on its mark at the commit; or the context
is resetting (R89, R278; chapter 4, Collisions). -/
def State.ctxRuns (s : State) (c : Fin 8) : Bool :=
  (s.ctx c).reset.isSome || (List.finRange 16).any fun q => (s.queue q).jobs.any fun j => j.ctx == c && (j.phase != .taken || j.waiting)

/-- The job that a held completion stands for: it ended, and its record is dropped with its epoch (R279). -/
def heldJob (h : Held) : Option (Fin 16 × Job) :=
  match h.eff with
  | .completion r _ order _ =>
    some (r.queue,
      { desc := flag 512 8 r.irq ||| at' 512 16 r.tag.toNat, ctx := r.ctx, gen := r.gen, takenAt := r.time, order := order,
        prio := 0, nosnoop := false, phase := .ended, cycles := r.cycles.toNat, doomed := true, endedAt := some r.time })
  | _ => none

/-- A job put into a list in the order in which the jobs were taken. -/
def insertJob (j : Job) : List Job → List Job
  | [] => [j]
  | k :: t => if j.order < k.order then j :: k :: t else k :: insertJob j t

/-- The jobs of a context marked: they were taken and have not completed, or their completion is held (R279). -/
def State.doomJobs (s : State) (c : Fin 8) : State :=
  let s := s.modMain fun m => { m with queues := Vector.ofFn fun q =>
    { m.queues[q] with jobs := m.queues[q].jobs.map fun j => if j.ctx = c then { j with doomed := true } else j } }
  ((s.ctx c).held.filterMap heldJob).foldl (fun s p => s.modQueue p.1 fun x => { x with jobs := insertJob p.2 x.jobs }) s

/-- A context reset triggered (R273, R274): step 1 takes place at once. A context that is resetting takes no further
trigger. -/
def State.triggerReset (s : State) (c : Fin 8) (cause : BitVec 3) : State :=
  let x := s.ctx c
  if x.reset.isSome then s
  else
    let run : ResetRun :=
      { time := s.time, cause := cause, addr := x.sampleAddr, en := x.sampleEn && cause != 4, sel := x.sampleSel,
        stations := (List.finRange 24).foldl (fun m n =>
          if (s.station n).running && (s.station n).ctx == c then m ||| BitVec.twoPow 24 n.val else m) 0,
        pcs := Vector.ofFn fun n => (s.station n).pcWord, table := x.table.active }
    let s := (s.doomJobs c).modCtx c fun x =>
      { x with reset := some run, step := 1, waiting := !s.main.resetOrder.isEmpty, cause := cause, resets := x.resets + 1,
               revTrv := false, revSb := false, revLink := false, revChannels := 0 }
    s.modMain fun m => { m with resetOrder := m.resetOrder ++ [c] }

/-! ## Escalation (R288 to R291) -/

/-- Whether an earlier trigger's time lies within the window before a time (R288). -/
def inWindow (window : BitVec 10) (now t : BitVec 64) : Bool := now.toNat ≤ t.toNat + window.toNat * 100000000

/-- OUT_OF_SERVICE entered (R289). -/
def State.enterOos (s : State) (c : Fin 8) : State :=
  let s := (s.modGlb fun g => { g with outOfService := true }).modEsc fun e => { e with lastCtx := c, time := s.time }
  let s := ((s.assertFault.raise 44).fbEntry 5 0x031 (BitVec.ofNat 64 (c.val + 16 * s.main.esc.count.toNat))).flush 0x031
  (List.finRange 8).foldl (fun s k => if k = c then s else s.triggerReset k 4) s

/-- A driver's trigger, which counts toward escalation (R273, R288). -/
def State.driverReset (s : State) (c : Fin 8) : State :=
  if (s.ctx c).reset.isSome || s.main.glb.outOfService then s
  else
    let s := s.triggerReset c 1
    let times := (s.time :: s.main.esc.history).take 15
    let n := times.countP (inWindow s.main.esc.window.active s.time)
    let s := s.modEsc fun e => { e with history := times, count := BitVec.ofNat 4 n }
    if s.main.esc.limit.active.toNat ≤ n then s.enterOos c else s

/-! ## The sample (R280 to R283) -/

/-- The parcels that a sample records: the lowest sixteen selected (R281). -/
def ResetRun.parcels (r : ResetRun) : List (Fin 32) := (setBits 32 r.sel).take 16

/-- The stations that a sample records (R281). -/
def ResetRun.recorded (r : ResetRun) : List (Fin 24) :=
  (setBits 24 r.stations).take ((73472 - 4096 * r.parcels.length) / 1280)

/-- Stations omitted for lack of room. -/
def ResetRun.ncut (r : ResetRun) : Nat := popCount r.stations - r.recorded.length

/-- The space that a sampled parcel is read from; none where it cannot be sampled (R281). -/
def State.sampleSpace (s : State) (r : ResetRun) (p : Fin 32) : Option Space :=
  let e := r.table[p]
  if !e.valid then none
  else if e.space = 0x1E then r.recorded.head?.map Space.station
  else match e.spaceFor 0 with
    | .station n => if s.present n then some (.station n) else none
    | .shm => some .shm

/-- The 4 KiB of a sampled parcel (R281). -/
def State.sampleParcel (s : State) (r : ResetRun) (p : Fin 32) : List Byte :=
  match s.sampleSpace r p with
  | none => zeros 4096
  | some sp => padTo 4096 (s.spaceRead sp (r.table[p]).base.toNat (min 4096 (r.table[p]).bound.toNat))

/-- The 1,280 bytes of a station record (R281). -/
def Station.sample (t : Station) : List Byte :=
  t.bufA.readBytes 0 256 ++ t.bufB.readBytes 0 256 ++ t.arr.readBytes 0 256 ++ t.vec.readBytes 0 256 ++ t.qnt.readBytes 0 256

/-- A list of bytes padded to n with a byte. -/
def padWith (b : Byte) (n : Nat) (bs : List Byte) : List Byte := bs ++ List.replicate (n - bs.length) b

/-- The sample (R281). -/
def State.sampleBytes (s : State) (c : Fin 8) (r : ResetRun) : List Byte :=
  let head : List Byte := [0x47, 0x53, 0x4D, 0x50, 1, 0, BitVec.ofNat 8 c.val, (s.ctx c).gen] ++ toBytes r.time 8 ++
    [r.cause.setWidth 8, BitVec.ofNat 8 r.parcels.length, BitVec.ofNat 8 r.recorded.length, BitVec.ofNat 8 r.ncut] ++ zeros 4 ++
    padWith 0xFF 16 (r.parcels.map fun p => BitVec.ofNat 8 (p.val + if (s.sampleSpace r p).isNone then 128 else 0)) ++
    padWith 0xFF 24 (r.recorded.map fun n => BitVec.ofNat 8 n.val) ++
    padTo 192 (r.recorded.flatMap fun n => toBytes (r.pcs[n].setWidth 64) 8)
  head ++ r.parcels.flatMap (s.sampleParcel r) ++ r.recorded.flatMap fun n => (s.station n).sample

/-! ## Steps (R275) -/

/-- STEP shown. -/
def State.setStep (s : State) (c : Fin 8) (k : Fin 13) : State := s.modCtx c fun x => { x with step := k, waiting := false }

/-- Step 2: every open epoch is discarded, as one discard (R192). -/
def State.resetEpochs (s : State) (c : Fin 8) : State :=
  if (s.ctx c).epochs.isEmpty then s else s.discardEpochs c (s.ctx c).epochs

/-- SAMPLE_CUT where the sample omits stations (R283). -/
def State.noteCut (s : State) (c : Fin 8) (r : ResetRun) : State :=
  s.modCtx c fun x => { x with sampleCut := x.sampleCut || r.ncut != 0 }

/-- Step 3: the sample written, header included (R280 to R283). -/
def State.writeSample (s : State) (c : Fin 8) (r : ResetRun) : State :=
  ((s.hostWrite (r.addr.toNat / 4096 * 4096) (s.sampleBytes c r)).noteCut c r)

/-- Whether a station was taken for a job of a context that has not launched it. -/
def State.claimed (s : State) (c : Fin 8) (n : Fin 24) : Bool :=
  match (s.station n).claim with
  | some q => !(s.station n).running && (s.job q).any fun j => j.ctx == c
  | none => false

/-- The stations that were taken for a context's jobs and not launched fall free (R59, R277, R286). -/
def State.dropClaims (s : State) (c : Fin 8) : State :=
  ((List.finRange 24).filter (s.claimed c)).foldl (fun s n => (s.modStation n fun t => { t with claim := none }).reserve n) s

/-- Step 4: the context's stations stop or fall free; kicks that have not taken effect are dropped (R116, R286). -/
def State.stopStations (s : State) (c : Fin 8) : State :=
  (((s.dropClaims c).modMain fun m => { m with stations := Vector.ofFn fun n =>
    let t := m.stations[n]
    if t.running && t.ctx = c then { t.stop with kicks := [] } else t })).settleAll

/-- Whether a station still runs a job of a context. -/
def State.stationsLeft (s : State) (c : Fin 8) : Bool :=
  (List.finRange 24).any fun n => (s.station n).running && (s.station n).ctx == c

/-- Step 4 revoked (R286): what the stations still held is freed, and the rest of it is not performed. -/
def State.revokeStations (s : State) (c : Fin 8) : State :=
  let s := s.modMain fun m => { m with stations := Vector.ofFn fun n =>
    let t := m.stations[n]
    if t.running && t.ctx = c then { t with dmuQ := [], vecQ := [], qntQ := [], arrQ := [], signals := [], board := [] } else t }
  s.settleAll.modCtx c fun x => { x with revSb := true, revoked := true }

/-- The channels that a context owns. -/
def State.ownChans (s : State) (c : Fin 8) : List (Fin 16) :=
  (List.finRange 16).filter fun ch => (s.chan ch).ownValid && (s.chan ch).ownCtx == c

/-- Whether a waiting message belongs to a job, was made by this chip and has not begun to leave (R286). -/
def OutMsg.ofJob (job : BitVec 12) (m : OutMsg) : Bool := m.job == some job && m.flits.head?.any OutFlit.som

/-- The waiting messages of a port without those of a job that have not begun to leave. -/
def dropMsgs (job : BitVec 12) (q : List OutMsg) : List OutMsg := q.filter fun m => !m.ofJob job

/-- Whether messages of a context wait at a port. -/
def State.linkWork (s : State) (c : Fin 8) : Bool :=
  let b := s.bound c
  b.valid && (List.finRange 2).any fun p =>
    let x := s.port p
    (x.outReq ++ x.outRsp).any (OutMsg.ofJob b.job)

/-- Whether a context waits for a response of a peer. -/
def State.tagWork (s : State) (c : Fin 8) : Bool := s.main.link.tags.any fun t => t.any fun u => u.ctx == c

/-- The requests of a channel whose replies may still come: reads in flight, and a fetch (R285). -/
def Chan.requests (x : Chan) : Nat :=
  (x.cur.map fun a => if a.srcPeer.isSome then 0 else a.reads.length).getD 0 + (if x.wantFetch && x.fetchBeats != 0 then 1 else 0)

/-- The response tags of a context freed, and remembered as lost (R285, R286). -/
def State.dropTags (s : State) (c : Fin 8) : State :=
  s.modLink fun l =>
    { l with tags := l.tags.map fun t => t.filter fun u => u.ctx != c,
             lost := l.lost ++ (List.finRange 64).filterMap fun t => (l.tags[t]).bind fun u => if u.ctx = c then some (t, c, u.gen) else none }

/-- Step 5: the context's channels are paused, and cancelled where they have drained; pending and held kicks and waiting
COPYs are dropped (R286). -/
def State.cancelChans (s : State) (c : Fin 8) : State :=
  (s.ownChans c).foldl (fun s ch =>
    let s := s.modChan ch fun x => { x with pendKick := none, classify := none, classBeats := 0, copyWaits := [], startHeld := none }
    match (s.chan ch).state with
    | .armed => s.cancelDone ch
    | .running => if s.chanDrained ch then s.cancelDone ch else s.modChan ch fun x => { x with cancelling := true }
    | _ => s) s

/-- Whether step 5 has drained. -/
def State.chansDrained (s : State) (c : Fin 8) : Bool :=
  (s.ownChans c).all (fun ch => (s.chan ch).state != .running) && !s.tagWork c && !s.linkWork c

/-- Step 5 revoked (R286): a channel that did not drain is idle and without an owner, its requests are
forgotten, and queued messages go. -/
def State.revokeChans (s : State) (c : Fin 8) : State :=
  let stuck := (s.ownChans c).filter fun ch => (s.chan ch).state == .running
  let link := s.tagWork c || s.linkWork c
  let s := stuck.foldl (fun s ch =>
    let k := (s.chan ch).requests
    (s.cancelDone ch).modChan ch fun x => { x with ownValid := false, forgotten := x.forgotten + k }) s
  let s := s.dropTags c
  let b := s.bound c
  let s := s.modLink fun l =>
    { l with ports := if b.valid then Vector.ofFn fun p =>
                 { l.ports[p] with outReq := dropMsgs b.job l.ports[p].outReq,
                                   outRsp := dropMsgs b.job l.ports[p].outRsp }
               else l.ports }
  s.modCtx c fun x =>
    { x with revoked := x.revoked || link || !stuck.isEmpty, revTrv := !stuck.isEmpty, revLink := link,
             revChannels := stuck.foldl (fun m ch => m ||| BitVec.twoPow 16 ch.val) 0 }

/-- Step 6: the context's queued NAND work is removed (R219). -/
def State.removeNand (s : State) (c : Fin 8) : State :=
  let s := s.dropQueued fun o => o.ctx == c && o.owner != .ctrl
  (s.modNfc fun n => { n with streams := n.streams.filter fun t => t.ctx != c }).pumpNand.chanStreams

/-- The LUNs on which a program or erase of a context is in flight. -/
def State.writesOf (s : State) (c : Fin 8) : List (Fin 32) :=
  (List.finRange 32).filter fun u => (s.lun u).cur.any fun f => f.op.ctx == c && f.op.writes && !f.ignored

/-- An operation past its bound (R219, R36): its page or block is suspect, the RESET of its target takes an entry of the queue or
waits for one (R210), and its later results are ignored. -/
def State.giveUp (s : State) (u : Fin 32) (status : BitVec 16) : State :=
  match (s.lun u).cur with
  | none => s
  | some f =>
    (f.ops.foldl (fun s o => (s.suspect u o status).spoil u.val o) s).modLun u fun l =>
      { l.queueReset with cur := some { f with ignored := true } }

/-- Step 7: arrays that the context's jobs are programming become UNWRITTEN, and their programmers are freed (R166). -/
def State.stopProgramming (s : State) (c : Fin 8) : State :=
  let s := (List.finRange 4).foldl (fun s k =>
    match s.main.progs[k] with
    | some w =>
      if w.ctx = c then
        (if w.programming then s.modNv w.station w.array fun v => { v with state := 0 } else s).setProg k none
      else s
    | none => s) s
  s.modMain fun m => { m with progWait := m.progWait.filter fun w => w.ctx != c }

/-- Step 8: ABORT for causes 1 and 4 (R268). -/
def State.resetAbort (s : State) (c : Fin 8) (cause : BitVec 3) : State :=
  if (cause == 1 || cause == 4) && (s.bound c).valid then s.sendAbort (s.bound c).job [0, 1] else s

/-- Step 9: the generation, and the binding (R264, R284). -/
def State.nextGen (s : State) (c : Fin 8) : State :=
  (s.modCtx c fun x => { x with gen := x.gen + 1 }).modBind c fun b =>
    { b with set := { b.set with active := { b.set.active with valid := false } } }

/-- One non-RESIDENT window filled with zeros (R91). -/
def State.zeroParcel (s : State) (p : Parcel) : State :=
  if !p.valid || p.has 4 then s
  else
    let a := p.base.toNat
    let n := p.bound.toNat
    let fill := fun (s : State) (k : Fin 24) =>
      if s.present k then s.modStation k fun t => { t with mem := t.mem.zeroFill a n } else s
    if p.space = 0x1F then s.modShm fun m => { m with mem := m.mem.zeroFill a n }
    else if p.space = 0x1E then (List.finRange 24).foldl fill s
    else if h : p.space.toNat < 24 then fill s ⟨p.space.toNat, h⟩ else s

/-- Step 10: the windows of the table that was active at the trigger (R91, R278). -/
def State.zeroWindows (s : State) (t : PTable) : State := t.toList.foldl State.zeroParcel s

/-- The status of a reset's records (R273). -/
def resetStatus (cause : BitVec 3) : BitVec 16 :=
  if cause = 1 then stCtxReset else if cause = 4 then stOutOfService else stAbortFabric

/-- The record of one job at step 11 (R272, R279). -/
def State.resetRecord (s : State) (q : Fin 16) (j : Job) (status : BitVec 16) : State :=
  let r := s.formRec q { j with status := status, detail := 0, crc := 0 }
  let s := s.modQueue q fun x =>
    { x with lastTime := some r.time, jobsDone := if j.endedAt.isSome then x.jobsDone else x.jobsDone + 1,
             jobs := x.jobs.filter fun k => k.order != j.order }
  (if j.endedAt.isSome then s else s.progress j.ctx).deliver q r

/-- Step 11: a record for every job that step 1 found; what the jobs waited for forgets them (R279, R352), and the
context's queues are empty: SQ_HEAD is the SQ_TAIL that was held (chapter 3, Collisions). -/
def State.resetRecords (s : State) (c : Fin 8) (status : BitVec 16) : State :=
  let mine := fun (w : SigWork) => match w with
    | .attest q order => (s.jobOrder q order).any fun j => j.ctx == c
    | _ => false
  let s := s.modIdk fun i => { i with sigQueue := i.sigQueue.filter fun w => !mine w, sigBusy := i.sigBusy.filter fun w => !mine w }
  let s := s.modMain fun m => { m with queues := Vector.ofFn fun q =>
    let x := m.queues[q]
    if x.cfg.active.ctx = c then { x with sqHead := x.sqTail } else x }
  let s := s.modMain fun m => { m with chans := Vector.ofFn fun ch =>
    { m.chans[ch] with copyWaits := m.chans[ch].copyWaits.filter fun w => !(m.queues[w.1].jobs.head?).any fun j => j.ctx == c } }
  (List.finRange 16).foldl (fun s q =>
    ((s.queue q).jobs.filter fun j => j.ctx = c && j.doomed).foldl (fun s j => s.resetRecord q j status) s) s

/-- Step 12 (R275, R276): DONE, the vector, the field book, and the next context's turn. -/
def State.endReset (s : State) (c : Fin 8) (r : ResetRun) : State :=
  let t := sat32 (s.time.toNat - r.time.toNat)
  let old := (s.ctx c).gen - 1
  let s := s.modCtx c fun x => { x with reset := none, step := 0, waiting := false, done := true, rstTime := t }
  let s := s.modMain fun m => { m with resetOrder := m.resetOrder.filter fun k => k != c }
  let s := match s.main.resetOrder with
    | k :: _ => s.modCtx k fun x => { x with waiting := false }
    | [] => s
  ((s.raise (ctxVector c)).fbEntry 5 0x030
    (BitVec.ofNat 64 (c.val + 16 * r.cause.toNat + 256 * old.toNat + 65536 * t.toNat))).chansSettle

/-- Steps 9 to 12, which wait for nothing. -/
def State.finishReset (s : State) (c : Fin 8) (r : ResetRun) : State :=
  let s := (s.resetAbort c r.cause).nextGen c
  ((s.zeroWindows r.table).resetRecords c (resetStatus r.cause)).endReset c r

/-- Steps 6 to 12: step 6 waits for the context's programs and erases in flight. -/
def State.resetFrom6 (s : State) (c : Fin 8) (r : ResetRun) : State :=
  let s := (s.setStep c 6).removeNand c
  if (s.writesOf c).isEmpty then (s.stopProgramming c).finishReset c r else s

/-- Steps 5 to 12: step 5 waits until the channels have drained. -/
def State.resetFrom5 (s : State) (c : Fin 8) (r : ResetRun) : State :=
  let s := (s.setStep c 5).cancelChans c
  if s.chansDrained c then s.resetFrom6 c r else s

/-- Steps 4 to 12: step 4 waits until the stations have drained. -/
def State.resetFrom4 (s : State) (c : Fin 8) (r : ResetRun) : State :=
  let s := (s.setStep c 4).stopStations c
  if s.stationsLeft c then s else s.resetFrom5 c r

/-- The steps of a context's reset from the one in progress until one must wait (R275). With the sample enabled, step 3
waits once: the sample is being written until the sequence goes on or SAMPLE_TIMEOUT abandons it. -/
def State.resetSteps (s : State) (c : Fin 8) (r : ResetRun) : State :=
  match (s.ctx c).step with
  | 1 =>
    let s := (s.setStep c 2).resetEpochs c
    if r.en then (s.setStep c 3).modCtx c fun x => { x with reset := some { r with sampling := true } }
    else s.resetFrom4 c r
  | 3 => ((s.writeSample c r).modCtx c fun x => { x with reset := some { r with sampling := false } }).resetFrom4 c r
  | 4 => s.resetFrom4 c r
  | 5 => s.resetFrom5 c r
  | 6 => s.resetFrom6 c r
  | _ => s

/-- The sample of a context is abandoned without its header, and the sequence goes on at step 4 (R283). -/
def State.abandonSample (s : State) (c : Fin 8) (r : ResetRun) : State :=
  s.when (s.serving && (s.ctx c).step = 3 && r.sampling) fun s =>
    ((s.modCtx c fun x => { x with sampleErr := true, reset := some { r with sampling := false } }).noteCut c r).resetFrom4 c r

/-- Whether a context's steps 2 to 12 may run: its trigger is the earliest (R274). -/
def State.resetTurn (s : State) (c : Fin 8) : Option ResetRun :=
  if s.main.resetOrder.head? = some c then (s.ctx c).reset else none

/-! ## Ports that go down (R258, R270) -/

/-- What a port that starts anew leaves in the other one's queues: no message that it forwarded in part, and no slot to free. -/
def State.cutFrom (s : State) (p : Fin 2) : State :=
  s.modPort (otherPort p) fun x =>
    { x with outCtl := cutForward p x.outCtl, outRsp := cutForward p x.outRsp, outReq := cutForward p x.outReq }

/-- A port goes down (R258): cause, flag, field-book entry, everything waiting discarded; every bound context is reset with
ABORT_FABRIC and its job aborted on the other port (R270). -/
def State.portDown (s : State) (p : Fin 2) (cause : BitVec 3) : State :=
  if (s.port p).state = 0 then s
  else
    let s := (s.modPort p fun x => { x.restart with state := 0, trained := false, cause := cause }).cutFrom p
    let s := (s.linkEvent (BitVec.twoPow 5 p.val)).fbEntry 4 0x050 (BitVec.ofNat 64 (p.val + 65536 * cause.toNat))
    (List.finRange 8).foldl (fun s c =>
      if (s.bound c).valid && (s.ctx c).reset.isNone then
        (s.sendAbort (s.bound c).job [otherPort p]).triggerReset c 3
      else s) s

end Sys2Proof.Machine
end

