-- ==== Sys2Proof/Machine/Queues.lean ====
section
/-!
DEFINITION. The host side of the queues (chapter 3): doorbells, queue configurations, descriptor fetches, MSI-X, marks and
the host window.
-/

namespace Sys2Proof.Machine

/-! ## Doorbells (R42, R53, R54, R295) -/

/-- A doorbell reaches the device: before READY it is noted and discarded (R42); in a Hold that is not forced it is a wake
event (R295, R297). -/
def State.doorbell (s : State) (f : State → State) : State :=
  if s.serving then
    let p := s.main.pwr
    f (if p.state == .hold && !p.forcing then (s.modPwr fun p => { p with wakeCause := true }).cancelNotice else s)
  else if s.running then s.modGlb fun g => { g with earlyDoorbell := true }
  else s

/-- A doorbell write that is discarded (R53). -/
def State.badDoorbell (s : State) (q : Fin 16) : State := s.modQueue q fun x => { x with badDoorbell := true }

/-- Whether the context of a queue's configuration is resetting. -/
def State.queueResets (s : State) (q : Fin 16) : Bool := (s.ctx (s.queue q).cfg.active.ctx).reset.isSome

/-- A doorbell write that the queue looks at. It is discarded while OUT_OF_SERVICE, during a reset of the queue's context, and
on a queue that is not enabled (R54, chapter 3, Collisions); each discarded write sets BAD_DOORBELL (R53). -/
def State.takeDoorbell (s : State) (q : Fin 16) (f : State → State) : State :=
  if s.queueResets q then s.modQueue q fun x => { x with dbInReset := true, badDoorbell := true }
  else if s.main.glb.outOfService || !(s.queue q).cfg.active.enable then s.badDoorbell q
  else f s

/-- SQ_TAIL (R53, R54, R76). -/
def execSqTail (q : Fin 16) (idx : BitVec 32) (s : State) : Host.Outcome State Fault Refusal :=
  .next <| s.doorbell fun s => s.takeDoorbell q fun s =>
    let x := s.queue q
    if x.cfg.pending.isSome || ringSize x.cfg.active.sqLog2 ≤ idx.toNat then s.badDoorbell q
    else s.modQueue q fun x => { x with sqTail := idx.setWidth 12 }

/-- Whether a CQ_HEAD lies on the way forward from the one that is held to the write index, both included (R53). -/
def Queue.onTheWay (x : Queue) (idx : Nat) : Bool :=
  let n := ringSize x.cfg.active.cqLog2
  idx < n && (idx + n - x.cqHead.toNat) % n ≤ x.used

/-- CQ_HEAD (R53, R68): entries are released, and records of the hold slot that fit are written. -/
def execCqHead (q : Fin 16) (idx : BitVec 32) (s : State) : Host.Outcome State Fault Refusal :=
  .next <| s.doorbell fun s => s.takeDoorbell q fun s =>
    if (s.queue q).onTheWay idx.toNat then (s.modQueue q fun x => { x with cqHead := idx.setWidth 12 }).drainHeld q
    else s.badDoorbell q

/-! ## Configurations (R76) -/

/-- HQ_COMMIT (R10, R76). -/
def execHqCommit (q : Fin 16) (s : State) : Host.Outcome State Fault Refusal :=
  .next <| s.when s.serving fun s => s.modQueue q fun x => { x with cfg := x.cfg.commit }

/-- Whether a queue is at the boundary of R76. A job that was taken and has not started holds the boundary off; a completion
that the closure buffer holds does not, and goes to the ring in force at its release. The spec settles neither: the model's
choice (log entry 73). -/
def Queue.atBoundary (x : Queue) : Bool := x.jobs.isEmpty && x.hold.isEmpty && (x.halted || x.sqHead == x.sqTail)

/-- QUEUE_CONFIG_ACTIVATE (R76). -/
def execQueueConfigActivate (q : Fin 16) (s : State) : Host.Outcome State Fault Refusal :=
  .next <| s.when (s.serving && (s.queue q).cfg.pending.isSome && (s.queue q).atBoundary) fun s => s.modQueue q fun x =>
    { x with cfg := x.cfg.activate, sqHead := 0, sqTail := 0, cqHead := 0, cqWrite := 0, phase := true, halted := false,
             lastTime := none }

/-! ## Taking jobs (R55, R57) -/

/-- Whether a queue may take a descriptor: it is enabled and not halted, an entry is there, at most one job is taken ahead,
and neither OUT_OF_SERVICE nor a reset of its context nor a Hold prevents it. -/
def State.mayTake (s : State) (q : Fin 16) : Bool :=
  let x := s.queue q
  s.stationsOn && !s.main.pwr.d3hot && !s.main.glb.outOfService && x.cfg.active.enable && !x.halted &&
    x.sqHead != x.sqTail && x.jobs.length < 2 && !s.queueResets q

/-- The job that a fetched descriptor gives (R55, R66). -/
def State.newJob (s : State) (q : Fin 16) (d : BitVec 512) : Job :=
  let c := (s.queue q).cfg.active
  { desc := d, ctx := c.ctx, gen := (s.ctx c.ctx).gen, takenAt := s.time, order := s.main.jobOrder, prio := c.prio,
    nosnoop := c.nosnoop }

/-- DESCRIPTOR_FETCH (R55, R57): the job is taken, or the queue halts on a bus error. -/
def execDescriptorFetch (q : Fin 16) (reply : Option (BitVec 512)) (s : State) : Host.Outcome State Fault Refusal :=
  .next <| s.when (s.mayTake q) fun s =>
    match reply with
    | some d =>
      let j := s.newJob q d
      (s.modMain fun m => { m with jobOrder := m.jobOrder + 1 }).modQueue q fun x =>
        { x with sqHead := if x.sqHead.toNat + 1 = ringSize x.cfg.active.sqLog2 then 0 else x.sqHead + 1,
                 jobs := x.jobs ++ [j] }
    | none =>
      (s.modQueue q fun x => { x with halted := true, fetchErr := true }).raise (ctxVector (s.queue q).cfg.active.ctx)

/-! ## MSI-X (R75) -/

/-- One message for every pending bit whose vector may now be sent. -/
def State.sendPending (s : State) : State :=
  (List.finRange 64).foldl (fun s v =>
    let x := s.main.msix
    if x.pba.getLsbD v.val && x.enable && !x.functionMask && !x.mask.getLsbD v.val then
      (s.modMsix fun x => { x with pba := setBit x.pba v.val false }).raise v
    else s) s

/-- The table entry of a vector written: address, data and mask bit (R48). -/
def Msix.setEntry (x : Msix) (v : Fin 64) (addr : BitVec 64) (data : BitVec 32) (mask : Bool) : Msix :=
  { x with addr := x.addr.set v addr, data := x.data.set v data, mask := setBit x.mask v.val mask }

/-- MSI-X changed by the host; what may be sent now is sent (R75). -/
def State.hostMsix (s : State) (f : Msix → Msix) : State := (s.modMsix f).sendPending

/-- MSIX_UNMASK (R75): a table entry written with its mask clear, the function mask cleared, or MSI-X enabled. -/
def execMsixUnmask (what : MsixUnmask) (s : State) : Host.Outcome State Fault Refusal :=
  .next <| s.when s.running fun s => s.hostMsix fun x =>
    match what with
    | .vector v addr data => x.setEntry v addr data false
    | .functionMask => { x with functionMask := false }
    | .enable => { x with enable := true }

/-! ## Marks and the host window -/

/-- HQ_MARK (R7, R72): only a 64-bit write changes a mark. -/
def execHqMark (m : Fin 64) (w : W64) (s : State) : Host.Outcome State Fault Refusal :=
  .next <| s.when s.serving fun s =>
    match w with
    | .both v => s.setMark m v
    | _ => s

/-- Whether every queue is empty and idle (R49, R83). A record in a hold slot does not count: the model's choice (log entry
73). -/
def State.queuesIdle (s : State) : Bool :=
  (List.finRange 16).all fun q => (s.queue q).jobs.isEmpty && (s.queue q).sqHead == (s.queue q).sqTail

/-- GLB_HOSTWIN (R49): accepted only while queues and channels are idle. -/
def execGlbHostwin (w : W64) (s : State) : Host.Outcome State Fault Refusal :=
  .next <| s.when s.running fun s =>
    if s.queuesIdle && !s.chansBusy then
      s.modGlb fun g => { g with hostwin := applyW64 g.hostwin w &&& 0xFFFFFFFFFFFFF000 }
    else s.modGlb fun g => { g with hostwinBusy := true }

end Sys2Proof.Machine
end

