-- ==== Sys2Proof/Machine/BootOps.lean ====
section
/-!
DEFINITION. The effective divider (R31), what a device reset keeps and clears (R34, R35), the wake
sequence (R300, R301), the boot ROM (R37 to R41) and the start of the firmware (R40, R198, R221).
-/

namespace Sys2Proof.Machine

/-! ## The station divider (R31) -/

/-- The divider that R31 asks for: the largest of the request and the forcing reasons. -/
def Power.target (p : Power) : BitVec 2 :=
  if p.vcoreForce || p.div = 3 then 3 else if p.dipForce && p.div.toNat < 2 then 2 else p.div

/-- A forcing reason begins or ends: the switch to the divider of R31 is pending (R30). -/
def Power.retarget (p : Power) : Power := { p with switching := p.switching || p.target != p.effDiv }

/-- The port's address on the bus, latched from the straps (R37, R335). -/
def Aon.mgtBus (a : Aon) : BitVec 7 := 0x48 + a.mgtAddr.setWidth 7

/-! ## Device resets (R34, R35, R313) -/

/-- The causes of R34 by bit. -/
inductive ResetCause where
  | cold | borLp | borVsys | dormantWake | perst | flr
  deriving DecidableEq, Repr

/-- The bit of a cause in CAUSE and HISTORY. -/
def ResetCause.bits : ResetCause → BitVec 6
  | .cold => 1
  | .borLp => 2
  | .borVsys => 4
  | .dormantWake => 8
  | .perst => 16
  | .flr => 32

/-- The pad-hold latches capture the held balls (R313); balls that they hold already keep their state. The levels at the inputs are
free. -/
def Aon.capture (a : Aon) (stamp : Nat) : Aon :=
  if a.padHeld then a
  else
    { a with padHeld := true, padZ := false, padFault := a.faultN, padWake := a.wakeOut,
             padGpio := (Config.pinLevels stamp).extractLsb' 0 8, padRx := (Config.pinLevels stamp).extractLsb' 8 2 }

/-- The causes present at a reset (R34): its own; PERST while PERST_N is low; FLR while one waits for the NAND. -/
def State.causes (s : State) (c : ResetCause) : BitVec 6 :=
  c.bits ||| (if s.perstLow then ResetCause.perst.bits else 0) ||| (if s.flrWait.isSome then ResetCause.flr.bits else 0)

/-- CAUSE where several causes are present: the one highest in the table, which is the lowest bit (R34). -/
def topCause (bits : BitVec 6) : BitVec 6 := bits &&& -bits

/-- The AON domain after a COLD or BOR_LP reset (R35, R313, R357): only resistive storage keeps the field book, and the
highest valid SEQ is found there. -/
def State.coldAon (s : State) (bits : BitVec 6) : Aon :=
  match bestSlot s.slots with
  | some (i, q) => { cause := topCause bits, history := bits, lastSlot := i, seq := BitVec.ofNat 32 q }
  | none => { cause := topCause bits, history := bits }

/-- The AON domain after any other reset (R35, R46, R313): FAULT_N stays low where the last boot failed. The management port's
capture of SUP_CHARGE, its one RS register, is gone (R14). -/
def State.warmAon (s : State) (bits : BitVec 6) : Aon :=
  let a := s.aon.capture s.stamp
  { a with
    cause := topCause bits, history := a.history ||| bits, rstCount := a.rstCount + 1, faultN := a.faultN && a.bootBad,
    mgmt := { a.mgmt with captures := a.mgmt.captures.filter fun p => p.1 != 0x0018 } }

/-- A further cause while the main domain is held for another reset (R34): HISTORY takes its bit. -/
def Aon.alsoCause (a : Aon) (c : ResetCause) : Aon := { a with history := a.history ||| c.bits }

/-- What a stop of the main domain does to cells that were being written: arrays in PROGRAMMING are UNWRITTEN, and a page or
block is undefined (R35; chapter 2, Collisions). -/
def State.cutCells (s : State) : State :=
  let s := { s with nv := Vector.ofFn fun n => Vector.ofFn fun a =>
    let v := s.nv[n][a]
    if v.state = 2 then { v with state := 0 } else v }
  (List.finRange 32).foldl (fun s u =>
    match (s.lun u).cur with
    | some c =>
      if !c.op.writes || c.ignored then s
      else (if c.ready && !c.fail then c.pair.toList else c.ops).foldl (fun s o => s.spoil u.val o) s
    | none => s) s

/-- What a stop of the main domain does to a burn under way: PMK_STATE is DAMAGED (R347). -/
def State.cutBurn (s : State) : State :=
  if s.main.idk.burnBusy then { s with otp := { s.otp with pmkState := 2 } } else s

/-- What a stop of the main domain does to work under way (R35, R347; chapter 2, Collisions). -/
def State.cutWork (s : State) : State := s.cutCells.cutBurn

/-- The main domain at its reset values (R35). What the board drives (VSYS, VCORE) is no register of the domain, and a dip
that lasts forces the divider again (R31). -/
def State.freshMain (s : State) : State :=
  let m := Main.fresh s.stamp s.otp.shmGroups
  { s with
    stamp := s.stamp + Main.stamps, flrWait := none,
    main := { m with pwr := { m.pwr with vcoreMv := s.main.pwr.vcoreMv, dipForce := s.aon.warn || s.aon.holdoff },
                     sup := { m.sup with vsys := s.main.sup.vsys } } }

/-- The PCI Express function after a reset (R35): a Function Level Reset leaves the link up and keeps the programmed payload
size, as the Base Specification requires; any other reset takes the link down, and it trains again. -/
def Pcie.afterReset (x : Pcie) (c : ResetCause) : Pcie :=
  match c with
  | .flr => { link := x.link, devCtl := (x.devCtl &&& 0x00E0) ||| 0x2800 }
  | _ => {}

/-- A device reset (R34, R35). -/
def State.deviceReset (s : State) (c : ResetCause) : State :=
  let s := s.cutWork
  let aon := match c with
    | .cold | .borLp => s.coldAon (s.causes c)
    | _ => s.warmAon (s.causes c)
  { s with aon := aon }.freshMain.modPcie fun _ => s.main.pcie.afterReset c

/-! ## The boot ROM (R37 to R41) -/

/-- A boot ends terminally (R41). -/
def State.bootFail (s : State) (stage : BitVec 4) (err : BitVec 8) : State :=
  let s := ({ s with phase := .bootFailed }.modGlb fun g =>
    { g with bootFailed := true, booting := false, bootStage := stage, bootErr := err }).modAon fun a => { a with bootBad := true }
  ((s.assertFault).fbEntry 1 0x010
    (BitVec.ofNat 64 (stage.toNat + 256 * err.toNat + 65536 * s.main.glb.bootLog.toNat))).flush 0x010

/-- The ROM waits for a PCI Express image (R38, R39). -/
def State.bootFromPcie (s : State) : State := { s with phase := .bootPcie }.modGlb fun g => { g with bootStage := 4 }

/-- The ROM hands over to the firmware of an image: IDK_FW_HASH is the hash of all but its signature (R38, R40, R345). No version
is refused. -/
def State.handOver (s : State) (img : List Byte) : State :=
  ({ s with phase := .bootFw }.modGlb fun g => { g with bootStage := 6 }).modIdk fun i =>
    { i with fwHash := word 256 (sha256 (img.take (img.length - 64))), fwVersion := word 64 ((img.drop 16).take 8) }

/-- The outcomes of the NAND copies in order, up to the first that is OK, as GLB_BOOT_LOG shows them, and whether one was
OK (R38). -/
def tryCopies : Nat → List (BitVec 4) → Nat × Bool
  | _, [] => (0, false)
  | k, o :: t =>
    if o = 1 then (2 ^ (4 * k), true)
    else
      let r := tryCopies (k + 1) t
      (o.toNat * 2 ^ (4 * k) + r.1, r.2)

/-- Whether LENGTH is one that an image may have (R39, R344). -/
def imageLenOk (len : Nat) : Bool := 256 ≤ len && len ≤ 0x100000 && len % 16 == 0

/-- Whether the header of an image is valid for a length (R39, R344). -/
def imageHeaderOk (len : Nat) (img : List Byte) : Bool :=
  let zero := fun (lo n : Nat) => ((img.drop lo).take n).all fun b => b == 0
  img.take 4 == [0x47, 0x4C, 0x46, 0x57] && leAt img 4 2 == 1 && zero 6 2 && leAt img 8 4 == len && zero 88 40

/-- Whether the vendor's signature of an image verifies (R343, R344). -/
def State.imageSigned (s : State) (len : Nat) (img : List Byte) : Bool :=
  word 256 (sha256 ((img.drop 24).take 64)) == s.otp.vendorHash &&
    ecdsaVerify (leAt img 24 32) (leAt img 56 32) (leAt img (len - 64) 32) (leAt img (len - 32) 32) (sha256 (img.take (len - 64)))

/-- The number of bits that number n things. -/
def bitsFor (n : Nat) : Nat := ((List.range 16).find? fun k => n ≤ 2 ^ k).getD 16

/-- The geometry that the first target reports, and CPP of profile 0 (R198, R220). -/
def State.geometry (s : State) (p : TargetParam) : State :=
  s.modNfc fun n =>
    let n := { n with main := p.main, planes := p.planes, spare := p.spare, ppb := p.ppb, pageBits := BitVec.ofNat 4 (bitsFor p.ppb.toNat) }
    let cpp := min 5 (n.pageBytes / 4608)
    let fix := fun (c : NfcCfg) => { c with prof := upd c.prof 0 fun r => (r &&& ~~~(0x700 : BitVec 64)) ||| BitVec.ofNat 64 (cpp * 256) }
    { n with cfg := { n.cfg with active := fix n.cfg.active, staging := fix n.cfg.staging } }

/-- Codeword k of a page of block 0 of LUN 0 on channel 0, read with profile 0 (R220): none where its metadata shows another page (R205). -/
def State.blockZero (s : State) (page k : Nat) : Option (List Byte) :=
  let row := s.main.nfc.row 0 page
  if s.cwErased 0 row k 0 then some (List.replicate 4096 0xFF)
  else if s.metaOk 0 row k 0 then some (s.codeword 0 row k 0 4096) else none

/-- The pages of a copy of the boot image: Q (R220). -/
def Nfc.copyPages (n : Nfc) : Nat := (n.ppb.toNat - 2) / 4

/-- Codeword i of copy c of the boot image as the ROM reads it (R38, R220): its bytes, or the outcome that ends the copy. -/
def State.copyWord (s : State) (c : Nat) (r : CopyRead) (i : Nat) : Except (BitVec 4) (List Byte) :=
  let n := s.main.nfc
  let cpp := profCpp (n.prof 0)
  if r = .ecc i then .error 2
  else if r = .timeout i then .error 5
  else match s.blockZero (1 + c * n.copyPages + i / cpp) (i % cpp) with
    | some bs => .ok bs
    | none => .error 2

/-- Codewords i to i + n - 1 of a copy one after another, up to the first that cannot be read. -/
def State.copyWords (s : State) (c : Nat) (r : CopyRead) : Nat → Nat → Except (BitVec 4) (List Byte)
  | 0, _ => .ok []
  | n + 1, i =>
    match s.copyWord c r i with
    | .error o => .error o
    | .ok bs =>
      match State.copyWords s c r n (i + 1) with
      | .error o => .error o
      | .ok cs => .ok (bs ++ cs)

/-- What the ROM makes of copy c (R38, R220, R344): its image, or the outcome that ends it. `s` holds the geometry of the parameter
page. An image that does not fit the pages of a copy counts as header invalid: the model's choice (log entry 32). -/
def State.copyImage (s : State) (c : Nat) (r : CopyRead) : Except (BitVec 4) (List Byte) :=
  let n := s.main.nfc
  match s.copyWord c r 0 with
  | .error o => .error o
  | .ok h =>
    let len := leAt h 8 4
    if !imageLenOk len || !imageHeaderOk len h || n.copyPages * profCpp (n.prof 0) * 4096 < len then .error 4
    else match s.copyWords c r ((len + 4095) / 4096) 0 with
      | .error o => .error o
      | .ok bs =>
        let img := bs.take len
        if s.imageSigned len img then .ok img else .error 3

/-- The outcome of a copy as GLB_BOOT_LOG codes it. -/
def copyOutcome : Except (BitVec 4) (List Byte) → BitVec 4
  | .error o => o
  | .ok _ => 1

/-- What the ROM makes of the four copies, where the parameter page gives a geometry (R38). -/
def State.copyImages (s : State) (b : BootInputs) (p : TargetParam) : List (Except (BitVec 4) (List Byte)) :=
  (List.finRange 4).map fun c => (s.geometry p).copyImage c.val b.copies[c]

/-- The first image that is OK. -/
def firstImage : List (Except (BitVec 4) (List Byte)) → Option (List Byte)
  | [] => none
  | .ok img :: _ => some img
  | .error _ :: t => firstImage t

/-- The ROM boots from NAND (R38): it runs the first copy whose outcome is OK. -/
def State.bootFromNand (s : State) (b : BootInputs) : State :=
  let imgs := (b.param.map (s.copyImages b)).getD (List.replicate 4 (.error 5))
  let s := s.modGlb fun g => { g with bootLog := BitVec.ofNat 20 (tryCopies 0 (imgs.map copyOutcome)).1 }
  match firstImage imgs with
  | some img => s.handOver img
  | none =>
    if s.aon.bootSel = 2 then s.bootFromPcie
    else if b.param.isSome then s.bootFail 3 0x05 else s.bootFail 2 0x04

/-- The boot ROM starts (R37, R43, R339, R354): the certificate is copied, the PCI Express link trains where it is down; RESET is
written to the field book; then straps, OTP and the image. Where several checks fail, BOOT_ERR is that of the straps, then of the
bank groups, then of the stations: the spec gives no order, the model's choice (log entry 76). -/
def State.startBoot (s : State) (b : BootInputs) : State :=
  let a := s.aon
  let s := s.when (s.main.pcie.link == .down) fun s => s.setLink .training
  let s := { s with phase := .bootFw, aon := { a with certReady := true } }.fbEntry 1 0x001
    (BitVec.ofNat 64 (a.cause.toNat + 65536 * a.history.toNat + 0x100000000 * a.rstCount.toNat))
  if a.bootSel = 3 then s.bootFail 0 0x01
  else if s.otp.shmGroups = 0 then s.bootFail 1 0x02
  else if s.otp.stationMap = 0 then s.bootFail 1 0x03
  else if a.bootSel = 1 then s.bootFromPcie
  else s.bootFromNand b

/-- What comes after a reset of a main domain that is powered and clocked: it is held while DFT_EN is high (R369) or PERST_N
low (R381), and otherwise boots. -/
def State.startMain (s : State) (b : BootInputs) : State :=
  if s.dftHigh then { s with phase := .dftHeld } else if s.perstLow then { s with phase := .inReset } else s.startBoot b

/-- The wake sequence from step 1 (R300, R301, R302): the rails, the PLL, and then the boot ROM. The third failed check is
the last. -/
def State.wakeSequence (s : State) (b : BootInputs) : State :=
  let s := s.modAon fun a => { a with pwrEn := true, wakeOut := true }
  if b.vcoreOk && b.vsramOk then
    let s := s.modAon fun a => { a with supplyTries := 0 }
    if b.pllOk then s.startMain b else { s with phase := .pllWait }
  else
    let s := s.modAon fun a => { a with pwrEn := false, supplyTries := a.supplyTries + 1 }
    if s.aon.supplyTries < 3 then { s with phase := .supplyWait }
    else
      ((({ s with phase := .supplyDead }.modAon fun a => { a with supplyTries := 0, bootBad := true }).assertFault).fbEntry 0 0x004
        (flag 64 0 (!b.vcoreOk) ||| flag 64 1 (!b.vsramOk))).flush 0x004

/-! ## The start of the firmware (R40, R198, R220, R221) -/

/-- The structural check of a region-table copy (R221); entries beyond COUNT are not read. -/
def tableOk (bs : List Byte) : Bool :=
  let zero := fun (lo n : Nat) => ((bs.drop lo).take n).all fun b => b == 0
  bs.length == 4096 && bs.take 4 == [0x47, 0x4C, 0x52, 0x54] && leAt bs 4 2 == 1 && (bs.getD 6 0).toNat ≤ 61 && zero 7 1 && zero 16 48 && zero 3968 64 &&
    (List.range (bs.getD 6 0).toNat).all fun e => zero (64 + 64 * e + 14) 2 && zero (64 + 64 * e + 20) 4 && zero (64 + 64 * e + 36) 28

/-- Whether a target reports the geometry of the first one (R198). -/
def sameGeometry (a b : TargetParam) : Bool := a.main == b.main && a.spare == b.spare && a.ppb == b.ppb && a.planes == b.planes

/-- The parameters of a target (R198): those of the first copy of its parameter page whose signature and CRC are valid. -/
def targetParam (t : TargetReply) : Option TargetParam :=
  if t.answers then (t.copies.find? fun c => c.signature && c.crc).map ParamCopy.param else none

/-- The mode that is set up on a target (R198): NV-DDR3, else NV-DDR2; a target on which neither set-up works stays in SDR. -/
def targetMode (t : TargetReply) : Nat := if t.ddr3 then 3 else if t.ddr2 then 2 else 1

/-- The LUNs of the target of a CE_N on a channel (R199). -/
def targetLuns (ch ce : Nat) (p : TargetParam) : List (Fin 32) :=
  let u := ch + 8 * ce
  Fin.ofNat 32 u :: if p.twoLuns then [Fin.ofNat 32 (u + 4)] else []

/-- The target of CE_N ce on channel ch discovered: its LUNs are present, or it is left absent with a field-book entry (R198). -/
def State.discoverOne (s : State) (first : Option TargetParam) (ch ce : Nat) (t : TargetReply) : State :=
  let entry := fun (differs : Nat) => s.fbEntry 2 0x040 (BitVec.ofNat 64 (ch + 4 * ce + 16 * differs))
  match targetParam t, first with
  | some p, some f =>
    if sameGeometry p f then
      let us := targetLuns ch ce p
      s.modNfc fun n =>
        { n with
          present := us.foldl (fun (m : BitVec 32) (u : Fin 32) => m ||| BitVec.twoPow 32 u.val) n.present
          luns := us.foldl (fun v u => upd v u fun l => { l with blocks := p.blocks }) n.luns
          blocks := if n.present = 0 || p.blocks < n.blocks then p.blocks else n.blocks
          chMode := (n.chMode &&& ~~~(BitVec.ofNat 8 (3 * 4 ^ ch))) ||| BitVec.ofNat 8 (targetMode t * 4 ^ ch) }
    else entry 1
  | _, _ => entry 0

/-- Discovery of every CE_N (R198), channel by channel: the order is the model's choice (log entry 37). -/
def State.discover (s : State) (targets : Vector TargetReply 16) : State :=
  let first := (targets.toList.filterMap targetParam).head?
  let s := match first with
    | some p => s.geometry p
    | none => s
  ((List.finRange 16).foldl (fun s i => s.discoverOne first (i.val / 4) (i.val % 4) targets[i]) s).modNfc fun n => { n with ready := true }

/-- A copy of the region table as the dispatcher reads it: codeword 0 of a page of block 0 (R220, R221), where LUN 0 is present and it
can be corrected. -/
def State.readTable (s : State) (page : Nat) (corrected : Bool) : Option (List Byte) :=
  if s.lunPresent 0 && corrected then s.blockZero page 0 else none

/-- The firmware has started (R40, R221): discovery, the region table, READY, and a BOOT_READY entry. A boot that was not terminal
leaves no BOOT_ERR behind once the firmware runs (log entry 28). -/
def State.firmwareStart (s : State) (found : Discovery) : State :=
  let s := s.discover found.targets
  let t0 := s.readTable 0 found.table0
  let t1 := s.readTable (s.main.nfc.ppb.toNat - 1) found.table1
  let ok0 := t0.any tableOk
  let ok1 := t1.any tableOk
  let s := s.modNfc fun n => { n with rt0 := t0, rt1 := t1, rtChosen := !ok0, rtBad := !ok0 && !ok1 }
  let s := { s with phase := .serving }.modGlb fun g => { g with ready := true, booting := false, bootStage := 7, bootErr := 0 }
  (s.modAon fun a => { a with faultN := false, bootBad := false }).fbEntry 2 0x011
    (BitVec.ofNat 64 (s.main.glb.bootLog.toNat + 0x100000000 * (s.main.idk.fwVersion.toNat % 0x100000000)))

/-! ## The end of a Function Level Reset (R36) -/

/-- An FLR that waits for NAND programs and erases resets the main domain once none is in flight (R36). -/
def State.flrCheck (s : State) : State :=
  match s.flrWait with
  | none => s
  | some b =>
    if (List.finRange 32).any fun u => (s.lun u).writing then s else (s.deviceReset .flr).startMain b

end Sys2Proof.Machine
end

