-- ==== Sys2Proof/Machine/Jobs.lean ====
section
/-!
DEFINITION. Jobs: how the dispatcher starts them (R58, R59, R71, R89), what each command does (R61 to R65, R102, R164,
R201, R351, R392), and how they end (R66, R112).
-/

namespace Sys2Proof.Machine

/-! ## Starting (R58 to R61, R71, R89) -/

/-- The lowest offending byte of a descriptor's header (R60, R61, R4); an unknown command offends in byte 0. -/
def Job.headerBad (j : Job) : Option Nat :=
  minOpt (offIf (j.cmd = 0 || 9 < j.cmd) 0 ++ offIf (1 < j.le 1 1) 1 ++ offIf (bit j.desc 38) 4 ++ offIf (bit j.desc 46) 5 ++
    j.nonzero [6, 7] ++ if j.waitEn then [] else j.nonzero [8, 9, 10, 11, 12, 13, 14, 15])

/-- The lowest offending byte of a RUN_PROGRAM payload (R61, R110). STATIONS is zero where its four bytes are: bits 23:0 zero
beside a reserved bit give byte 19. The spec does not settle that: the model's choice (log entry 74). -/
def State.runBad (s : State) (j : Job) : Option Nat :=
  let m := j.stationMask &&& ~~~s.otp.stationMap
  minOpt (offIf (j.le 16 4 = 0) 16 ++ (List.range 3).filterMap (fun i => if byteOf m i = 0 then none else some (16 + i)) ++
    j.nonzero [19] ++ offIf (32 ≤ j.le 20 1) 20 ++ j.nonzero [21, 22, 23] ++ offIf (j.le 24 4 % 8 ≠ 0) 24 ++
    j.nonzero [28, 29, 30, 31])

/-- Whether a job may start on a station (R58, R59): the station is free; where it is reserved for a job that still waits,
only that job, or one of higher priority; and no job that comes before it waits for the same station. -/
def State.mayHave (s : State) (q : Fin 16) (j : Job) (n : Fin 24) : Bool :=
  let t := s.station n
  let w := s.waitingFor n
  let first := (s.pick w).map Prod.fst == some q
  !t.running && t.claim.isNone &&
    match t.reserved with
    | some r =>
      if r = q then w.all fun x => x.2.prio ≤ j.prio
      else match w.find? fun x => x.1 == r with
        | some x => x.2.prio < j.prio && first
        | none => first
    | none => first

/-- A RUN_PROGRAM starts: its stations are its own, and Trim ends (R59, R295). -/
def State.claimStations (s : State) (q : Fin 16) (j : Job) : State :=
  let s := s.modMain fun m =>
    { m with lastWin := q, stations := Vector.ofFn fun n =>
        if j.stationMask.getLsbD n.val then { m.stations[n] with claim := some q, reserved := none } else m.stations[n] }
  s.modPwr fun p => if p.state == .trim then { p with state := .run } else p

/-- Whether the dispatcher may start anything now (R289, R297). -/
def State.mayStart (s : State) : Bool := s.stationsOn && !s.main.pwr.forcing && !s.main.glb.outOfService

/-- JOB_START (R58, R59, R61, R71, R89): the next job of a queue starts, or fails the check of its header. -/
def execJobStart (q : Fin 16) (s : State) : Host.Outcome State Fault Refusal :=
  .next <| match s.job q with
    | none => s
    | some j =>
      if !s.mayStart || j.phase != .taken || !(s.queue q).hold.isEmpty || j.doomed then s
      else match j.headerBad with
        | some b => s.badDescriptor q b
        | none =>
          if !s.admissible q j || !s.markOk j then s
          else if j.cmd = 1 && (s.runBad j).isNone then
            if (setBits 24 j.stationMask).all (s.mayHave q j) then
              (s.claimStations q j).modJob q fun j => { j with phase := .started }
            else s
          else s.modJob q fun j => { j with phase := .started }

/-- The jobs of a context that are next on their queues and wait on their mark at a commit of its parcel table or binding: they
count as running (chapter 4, Collisions). -/
def State.noteWaits (s : State) (c : Fin 8) : State :=
  (List.finRange 16).foldl (fun s q =>
    match s.job q with
    | some j =>
      s.when (j.ctx == c && j.phase == .taken && j.headerBad.isNone && s.admissible q j && !s.markOk j) fun s =>
        s.modJob q fun j => { j with waiting := true }
    | none => s) s

/-! ## What a started job does -/

/-- A command on a queue's job that has started and has that code; otherwise nothing happens. -/
def State.onJob (s : State) (q : Fin 16) (cmd : Nat) (f : Job → State) : State :=
  match s.job q with
  | some j => if s.serving && j.phase == .started && j.cmd == cmd && !j.doomed then f j else s
  | none => s

/-- A payload checked: a job whose payload is bad fails with BAD_DESCRIPTOR (R61). -/
def State.checked (s : State) (q : Fin 16) (bad : Option Nat) (f : State → State) : State :=
  match bad with
  | some b => s.badDescriptor q b
  | none => f s

/-- A device-address range checked: a job whose range is outside its parcels fails with BOUND_FAULT (R387). -/
def State.ranged (s : State) (q : Fin 16) (fault : Option (BitVec 32)) (f : State → State) : State :=
  match fault with
  | some d => s.setEnd q stBoundFault d
  | none => f s

/-- A job at work in its engine. -/
def State.setRunning (s : State) (q : Fin 16) : State := s.modJob q fun j => { j with phase := .running }

/-- A station at the start of a program (R102). The stamps make its operand buffers, accumulators and latches undefined
again (R77, R139). -/
def Station.launch (t : Station) (j : Job) (q : Fin 16) (n : Fin 24) (stamp : Nat) : Station :=
  let m := j.stationMask
  let rank := (setBits 24 m).countP fun k => k < n
  let g : List (BitVec 64) := [0, BitVec.ofNat 64 (j.le 32 8), BitVec.ofNat 64 (j.le 40 8), BitVec.ofNat 64 (j.le 48 8),
    BitVec.ofNat 64 (j.le 56 8), BitVec.ofNat 64 n.val, BitVec.ofNat 64 rank, BitVec.ofNat 64 (popCount m), m.setWidth 64]
  { t with
    running := true, ended := false, stopping := false, ctx := j.ctx, queue := q, order := j.order, claim := none,
    reserved := none, markWait := none, barWait := none, fetchWait := false, pc := BitVec.ofNat 32 (j.le 24 4),
    pcParcel := Fin.ofNat 32 (j.le 20 1), g := Vector.ofFn fun i => g.getD i.val 0, d := Vector.replicate 8 0,
    v := Vector.replicate 16 0, p := Vector.replicate 8 0, loops := [], dmuQ := [], vecQ := [], qntQ := [], arrQ := [],
    board := [], kicks := [], signals := [], stalls := [],
    bufA := { stamp := stamp }, bufB := { stamp := stamp + 1 }, acc := { stamp := stamp + 2 }, vec := { stamp := stamp + 3 },
    qnt := { stamp := stamp + 4 }, arr := { stamp := stamp + 5 }, maa := { stamp := stamp + 6 },
    latches := { stamp := stamp + 7 } }

/-- RUN_PROGRAM (R61, R102, R110): the program starts on every selected station. -/
def execRunProgram (q : Fin 16) (s : State) : Host.Outcome State Fault Refusal :=
  .next <| s.onJob q 1 fun j => s.checked q (s.runBad j) fun s =>
    let s := s.modMain fun m =>
      { m with stations := Vector.ofFn fun n =>
          if j.stationMask.getLsbD n.val then m.stations[n].launch j q n (s.stamp + 8 * n.val) else m.stations[n] }
    ({ s with stamp := s.stamp + 192 }).modJob q fun j => { j with phase := .running, stations := j.stationMask }

/-- LOAD_ARRAYS with MODE 0 (R164, R165): one entry of array work per selected array. -/
def execLoadArraysWeights (q : Fin 16) (s : State) : Host.Outcome State Fault Refusal :=
  .next <| s.onJob q 2 fun j =>
    if j.laMode = 1 then s
    else s.checked q (s.laBad j) fun s => s.ranged q (s.laRange j) fun s =>
      (s.setRunning q).modMain fun m => { m with progWait := m.progWait ++ j.laWorks q }

/-- LOAD_ARRAYS with MODE 1 (R164): its tables are read and written. -/
def execLoadArraysTables (q : Fin 16) (s : State) : Host.Outcome State Fault Refusal :=
  .next <| s.onJob q 2 fun j =>
    if j.laMode ≠ 1 then s
    else s.checked q (s.laBad j) fun s => s.ranged q (s.laRange j) fun s => s.setRunning q

/-- The check of a NAND_IO's memory range (R202): it lies in one parcel, and never in the host window. -/
def State.nandRange (s : State) (j : Job) (kind : NandKind) : Option (BitVec 32) :=
  let t := (s.ctx j.ctx).table.active
  let a := j.le 40 5
  match kind with
  | .read => s.parcelRange t 1 a (s.nandUnit j.nandReq * j.nandReq.count)
  | .program => s.parcelRange t 0 a (s.nandUnit j.nandReq * j.nandReq.count)
  | .getFeatures => s.parcelRange t 1 a 4
  | .readParam => s.parcelRange t 1 a 256
  | .erase | .setFeatures | .reset => none

/-- A NAND_IO with an operation code: it is checked and its stream is queued (R200 to R203). A code that no operation has is
bad in any of them. -/
def State.nandIo (s : State) (q : Fin 16) (kind : NandKind) : State :=
  s.onJob q 3 fun j =>
    if nandKindOf (j.le 16 1) != some kind && (nandKindOf (j.le 16 1)).isSome then s
    else s.checked q (s.nandJobBad j) fun s => s.ranged q (s.nandRange j kind) fun s =>
      let t := if kind = .read || kind = .program || kind = .erase then
          j.nandReq.stream kind (.job q j.order) j.ctx j.gen none (BitVec.ofNat 40 (j.le 40 5))
        else targetStream j kind q
      ((s.setRunning q).addStream t).pumpNand

/-- NAND_IO READ (R201). -/
def execNandIoRead (q : Fin 16) (s : State) : Host.Outcome State Fault Refusal := .next (s.nandIo q .read)
/-- NAND_IO PROGRAM (R201, R213). -/
def execNandIoProgram (q : Fin 16) (s : State) : Host.Outcome State Fault Refusal := .next (s.nandIo q .program)
/-- NAND_IO ERASE (R201). -/
def execNandIoErase (q : Fin 16) (s : State) : Host.Outcome State Fault Refusal := .next (s.nandIo q .erase)
/-- NAND_IO SET FEATURES (R200). -/
def execNandIoSetFeatures (q : Fin 16) (s : State) : Host.Outcome State Fault Refusal := .next (s.nandIo q .setFeatures)
/-- NAND_IO GET FEATURES (R200). -/
def execNandIoGetFeatures (q : Fin 16) (s : State) : Host.Outcome State Fault Refusal := .next (s.nandIo q .getFeatures)
/-- NAND_IO READ PARAM (R202). -/
def execNandIoReadParam (q : Fin 16) (s : State) : Host.Outcome State Fault Refusal := .next (s.nandIo q .readParam)
/-- NAND_IO RESET (R216). -/
def execNandIoReset (q : Fin 16) (s : State) : Host.Outcome State Fault Refusal := .next (s.nandIo q .reset)

/-- The lowest offending byte of a COPY (R61, R62): a channel that the context does not own offends in its byte. -/
def State.copyBad (s : State) (j : Job) : Option Nat :=
  let x := s.chan (Fin.ofNat 16 (j.le 37 1))
  minOpt (j.nonzero [21, 22, 23, 29, 30, 31] ++ offIf (j.le 32 4 = 0) 32 ++ offIf (2 < j.le 36 1) 36 ++
    offIf (16 ≤ j.le 37 1 || !x.ownValid || x.ownCtx != j.ctx) 37 ++ j.nonzero ((List.range 26).map (38 + ·)))

/-- COPY (R62): checked, it takes its channel or waits for it. -/
def execCopy (q : Fin 16) (s : State) : Host.Outcome State Fault Refusal :=
  .next <| s.onJob q 4 fun j => s.checked q (s.copyBad j) fun s =>
    let t := (s.ctx j.ctx).table.active
    s.ranged q (s.rangeCheck t 0 (j.le 16 5) (j.le 32 4)) fun s => s.ranged q (s.rangeCheck t 1 (j.le 24 5) (j.le 32 4)) fun s =>
      let stamp := s.stamp
      ((s.nextStamp.setRunning q).modChan (Fin.ofNat 16 (j.le 37 1)) fun x =>
        { x with copyWaits := x.copyWaits ++ [(q, stamp)] }).chansSettle

/-- FENCE (R63): it ends once every job taken before it, in its scope, has completed. A job whose record is held under an open
epoch counts as completed: the model's choice (log entry 73). -/
def execFence (q : Fin 16) (s : State) : Host.Outcome State Fault Refusal :=
  .next <| s.onJob q 5 fun j =>
    s.checked q (minOpt (offIf (1 < j.le 16 1) 16 ++ j.nonzero ((List.range 47).map (17 + ·)))) fun s =>
      if (List.finRange 16).any fun k => (s.queue k).jobs.any fun o =>
          o.order < j.order && (j.le 16 1 == 1 || o.ctx == j.ctx) then s
      else s.setEnd q stOk 0

/-- A MARK job with an OP (R64); an OP that is out of range is bad in both. -/
def State.markOp (s : State) (q : Fin 16) (op : Nat) (f : State → Fin 64 → BitVec 64 → State) : State :=
  s.onJob q 6 fun j =>
    if j.le 17 1 ≠ op && j.le 17 1 < 2 then s
    else s.checked q (minOpt (offIf (64 ≤ j.le 16 1) 16 ++ offIf (1 < j.le 17 1) 17 ++ j.nonzero [18, 19, 20, 21, 22, 23] ++
        j.nonzero ((List.range 32).map (32 + ·)))) fun s =>
      (f s (Fin.ofNat 64 (j.le 16 1)) (BitVec.ofNat 64 (j.le 24 8))).setEnd q stOk 0

/-- MARK with OP 0 (R64). -/
def execMarkOpAdd (q : Fin 16) (s : State) : Host.Outcome State Fault Refusal := .next (s.markOp q 0 State.addMark)
/-- MARK with OP 1 (R64). -/
def execMarkOpSet (q : Fin 16) (s : State) : Host.Outcome State Fault Refusal := .next (s.markOp q 1 State.setMark)

/-- TIMESTAMP (R392): the job does nothing and ends at once; its record's time is State.recTime. -/
def execTimestamp (q : Fin 16) (s : State) : Host.Outcome State Fault Refusal :=
  .next <| s.onJob q 7 fun j => s.checked q (minOpt (j.nonzero ((List.range 48).map (16 + ·)))) fun s => s.setEnd q stOk 0

/-- SET_PARCELS (R61, R65, R387): checked, its entries are read. A COUNT outside 1 to 32 offends alone; FIRST + COUNT above 32
offends in FIRST where each is in range by itself. Which it is for a COUNT above 32 the spec does not settle: the model's choice
(log entry 74). -/
def execSetParcels (q : Fin 16) (s : State) : Host.Outcome State Fault Refusal :=
  .next <| s.onJob q 9 fun j =>
    let both := if j.spCount = 0 || 32 < j.spCount then 32 < j.spFirst else 32 < j.spFirst + j.spCount
    s.checked q (minOpt (offIf both 16 ++ offIf (both || j.spCount = 0 || 32 < j.spCount) 17 ++ j.nonzero [18, 19, 20, 21, 22, 23, 29, 30, 31] ++
        offIf (j.spSource % 32 ≠ 0) 24 ++ j.nonzero ((List.range 32).map (32 + ·)))) fun s =>
      s.ranged q (s.rangeCheck (s.ctx j.ctx).table.active 0 j.spSource (32 * j.spCount)) fun s => s.setRunning q

/-! ## ATTEST (R351, R352) -/

/-- ATTEST: checked, it waits for the signature engine. -/
def execAttest (q : Fin 16) (s : State) : Host.Outcome State Fault Refusal :=
  .next <| s.onJob q 8 fun j =>
    s.checked q (minOpt (offIf (j.le 48 5 % 64 ≠ 0) 48 ++ j.nonzero [53, 54, 55] ++ j.nonzero ((List.range 8).map (56 + ·)))) fun s =>
      s.ranged q (s.rangeCheck (s.ctx j.ctx).table.active 1 (j.le 48 5) 24896) fun s =>
        (s.setRunning q).modIdk fun i => { i with sigQueue := i.sigQueue ++ [.attest q j.order] }

/-- The digest that a report shows of an array: zero for a fused station and for an array that is PROGRAMMING (R351, R352). -/
def State.reportDigest (s : State) (n : Fin 24) (a : Fin 32) : List Byte :=
  if s.present n && (s.arrayNv n a).state != 2 then toBytes (s.arrayNv n a).digest 32 else zeros 32

/-- Bytes 0 to 24,831 of a report (R351). -/
def State.reportBody (s : State) (j : Job) : List Byte :=
  let i := s.main.idk
  [0x47, 0x41, 0x54, 0x52, 1, 0, BitVec.ofNat 8 j.ctx.val, i.rtStat.setWidth 8] ++ toBytes s.otp.serial 8 ++
    toBytes (BitVec.ofNat 256 (j.le 16 32)) 32 ++ toBytes i.fwHash 32 ++ (if i.rtStat = 0 then zeros 32 else toBytes i.rtHash 32) ++
    (if s.otp.pmkState = 1 then toBytes s.otp.pmkHash 32 else zeros 32) ++ toBytes i.fwVersion 8 ++
    toBytes (s.otp.stationMap.setWidth 32) 4 ++ toBytes s.aon.rstCount 2 ++ zeros 2 ++
    ((List.finRange 8).map fun c => (s.ctx c).gen) ++ toBytes s.time 8 ++ zeros 80 ++
    (List.finRange 24).flatMap fun n => (List.finRange 32).flatMap fun a => s.reportDigest n a

/-- The bytes of a signature (R343). -/
def sigBytes (rs : Nat × Nat) : List Byte := toBytes (BitVec.ofNat 256 rs.1) 32 ++ toBytes (BitVec.ofNat 256 rs.2) 32

/-- A whole report, signed by the unit key (R343, R351). -/
def State.reportBytes (s : State) (j : Job) : List Byte :=
  let b := s.reportBody j
  b ++ sigBytes (ecdsaSign s.otp.unitKey.toNat (sha256 b))

/-- SIGNATURE_ENGINE_START (R352): the engine takes what arrived first; a report's fields are captured now. -/
def execSignatureEngineStart (s : State) : Host.Outcome State Fault Refusal :=
  .next <| s.when (s.serving && s.main.idk.sigBusy.isNone) fun s =>
    match s.main.idk.sigQueue with
    | [] => s
    | w :: rest =>
      let s := s.modIdk fun i => { i with sigQueue := rest, sigBusy := some w }
      match w with
      | .attest q order =>
        match s.jobOrder q order with
        | some j => s.modJobOrder q order fun k => { k with report := s.reportBytes j }
        | none => s.modIdk fun i => { i with sigBusy := none }
      | .verify _ _ _ => s

/-- The bytes from an address to the end of the host window (R365). -/
def hostLeft (a : Nat) : Nat := if inHostWindow a then 0x10000000000 - a else 0

/-- The report of a signed ATTEST written (R351, R365): a report that reaches an address that does not respond ends with BUS_ERROR
after the bytes before it. -/
def State.writeReport (s : State) (q : Fin 16) (j : Job) : State :=
  let a := j.le 48 5
  let s := s.modIdk fun i => { i with sigBusy := none }
  if (s.place a j.report.length).isSome then (s.devWrite a j.report).setEnd q stOk 0
  else (s.devWrite a (j.report.take (hostLeft a))).setEnd q stBusError 0

/-! ## The end of a job (R66, R112) -/

/-- Whether a program's stations are free and no chain or kick that it started is left (R112). -/
def State.programEnded (s : State) (q : Fin 16) (j : Job) : Bool :=
  let mine := fun (x : Chan) =>
    (match x.starter with
     | .program _ k o => x.state == .running && k == q && o == j.order
     | _ => false) || x.pendKick.any (fun k => k.queue == q && k.order == j.order) ||
      x.classify.any (fun k => k.queue == q && k.order == j.order)
  j.stations == 0 && (List.finRange 16).all fun ch => !mine (s.chan ch)

/-- Whether a mode-1 LOAD_ARRAYS still waits for a held table write (R164). -/
def State.tablesHeld (s : State) (j : Job) : Bool :=
  j.cmd == 2 && j.laMode == 1 &&
    (s.station (Fin.ofNat 24 j.laStation)).heldWrites.any fun w => w.entry.isSome && j.laMask.getLsbD w.array.val

/-- A program or a report that is done has come to its end. -/
def State.reachEnd (s : State) (q : Fin 16) : State :=
  match s.job q with
  | some j =>
    if j.phase == .running && !j.doomed then
      if j.cmd = 1 && s.programEnded q j then s.modJob q fun j => { j with phase := .ended }
      else if j.cmd = 8 && !j.report.isEmpty then s.writeReport q j
      else s
    else s
  | none => s

/-- Whether a context's closure buffer takes another entry where a record must be held (R188). -/
def Ctx.room (x : Ctx) : Bool := x.epochs.isEmpty || x.held.length < 64

/-- The record of a queue's job formed, where the job has come to its end (R66, R69). A completion that finds the closure buffer
full waits under the epoch that was newest when the job ended (R188); where that epoch has closed since, it goes out or is
dropped as the epoch closed (R195). -/
def State.jobEnd (s : State) (q : Fin 16) : State :=
  let s := s.reachEnd q
  match s.job q with
  | some j =>
    let x := s.ctx j.ctx
    if j.phase == .ended && !j.doomed && !s.tablesHeld j then
      match j.endTag with
      | none => if x.room then s.complete q j else s.modJob q fun j => { j with endTag := x.newest }
      | some e =>
        match x.verdict e with
        | .isOpen => if x.room then s.completeUnder q j (some e) else s
        | .committed => s.completeUnder q j none
        | .discarded => (s.countEnd q j (s.formRec q j)).modCtx j.ctx fun x => { x with dropped := x.dropped + 1 }
    else s
  | none => s

/-- JOB_END (R66, R69, R112). -/
def execJobEnd (q : Fin 16) (s : State) : Host.Outcome State Fault Refusal := .next (s.when s.serving fun s => s.jobEnd q)

end Sys2Proof.Machine
end

