-- ==== Sys2Proof/Machine/Arrays.lean ====
section
/-!
DEFINITION. Arrays outside programs: the programmers (R165, R166), held writes (R157) and the benchmark (R162), and the
rule for writes to a station's registers (R44, R299).
-/

namespace Sys2Proof.Machine

/-- A write to a register of a station's block: discarded where the station is absent or nothing is served, and in Hold,
which sets STN_ACCESS_OFF (R42, R44, R299). -/
def State.stnWrite (s : State) (n : Fin 24) (f : State → State) : State :=
  if !s.serving then s
  else if s.main.pwr.state == .hold then s.powerEvent 0x10
  else if s.present n then f s
  else s

/-- The lowest free programmer. -/
def State.freeProg (s : State) : Option (Fin 4) := (List.finRange 4).find? fun k => (s.main.progs[k]).isNone

/-- PROGRAMMER_START (R165 step 1, R22, R297): a free programmer takes the next array and begins to read its image. -/
def execProgrammerStart (s : State) : Host.Outcome State Fault Refusal :=
  .next <| s.when (s.stationsOn && !s.main.pwr.forcing) fun s =>
    match s.freeProg, s.nextWork with
    | some k, some w => (s.setProg k (some w)).modMain fun m => { m with progWait := m.progWait.erase w }
    | _, _ => s

/-- Whether an ACONV of an array that has issued has not put the array's output into its latch. -/
def Station.converts (t : Station) (a : Fin 32) : Bool :=
  t.arrQ.any fun i => i.todo.getLsbD a.val || i.convs.any fun c => c.array == a

/-- ARRAY_PROGRAMMING_END (R165 steps 5 and 6, R166): not before the conversions that were issued first have ended. -/
def execArrayProgrammingEnd (k : Fin 4) (failCells : Fin 266241) (maxIter : Fin 17) (s : State) :
    Host.Outcome State Fault Refusal :=
  .next <| match s.main.progs[k] with
    | none => s
    | some w =>
      s.when (s.serving && w.programming && !(s.station w.station).converts w.array) fun s =>
        s.endProgramming k w failCells maxIter

/-- HELD_TABLE_WRITE (R157): the first held write of a station whose array converts no longer. -/
def execHeldTableWrite (n : Fin 24) (s : State) : Host.Outcome State Fault Refusal :=
  .next <| s.when s.stationsOn fun s => s.modStation n Station.releaseWrite

/-- STN_BENCH_CTRL (R162): GO starts a measurement of a WRITTEN array, or is refused; Trim ends (R295). -/
def execStnBenchCtrl (n : Fin 24) (a : Fin 32) (go : Bool) (s : State) : Host.Outcome State Fault Refusal :=
  .next <| s.stnWrite n fun s =>
    if !go then s
    else if (s.arrayNv n a).state = 1 && !(s.station n).benchBusy then
      (s.modStation n fun t => { t with benchBusy := true, benchDone := false, benchArray := a }).modPwr fun p =>
        if p.state == .trim then { p with state := .run } else p
    else s.modStation n fun t => { t with benchRefused := true }

/-- BENCHMARK_MEASUREMENT_END (R162): the last repetition, which held a slot under R21 and R30, ends; the four code sums are
stored, and DONE is set. -/
def execBenchmarkMeasurementEnd (n : Fin 24) (codes : BenchCodes) (s : State) : Host.Outcome State Fault Refusal :=
  .next <| s.when (s.stationsOn && !s.main.pwr.switching && (s.station n).benchRuns) fun s => s.modStation n fun t =>
    { t with benchBusy := false, benchDone := true, benchRes := benchSums codes }

end Sys2Proof.Machine
end

