-- ==== Sys2Proof/Machine/Nand.lean ====
section
/-!
DEFINITION. The NAND controller's commands (chapter 10): operations that start, become ready, are decoded, end or pass their
timeouts, and the staged set.
-/

namespace Sys2Proof.Machine

/-! ## Starting (R211, R216, R218) -/

/-- Whether the controller drives WP_N of a channel high: the final status of a program or erase on it is yet to be read (R218). -/
def State.wpHigh (s : State) (ch : Fin 4) : Bool :=
  s.stationsOn && (channelLuns ch.val).any fun u => (s.lun u).writing

/-- A LUN whose target is sent a RESET: no RESET of the controller's own waits any more. -/
def Lun.cleared (l : Lun) : Lun :=
  { l with resetPend := false, resetFor := none, resetWait := false, queue := l.queue.filter fun o => o.owner != .ctrl }

/-- What a RESET does to the operation on the target's other LUN: what had passed its bound is over; a read in flight, or another
operation that is no program or erase, waits to be issued again (R216). -/
def InFlight.cut (c : InFlight) (n : Nfc) : Option InFlight :=
  if c.ignored then none
  else if c.op.writes || (c.ready && (c.op.kind != .read || c.decodedAll n)) then some c
  else some { c with ready := false, moved := false, tried := 0, again := true }

/-- A RESET sent to the target of a LUN (R215, R216). -/
def State.startReset (s : State) (u : Fin 32) (o : NandOp) : State :=
  let n := s.main.nfc
  let s := s.modLun u fun l => { l.cleared with cur := some { op := o }, queue := leaveQueue l.cleared.queue o }
  (s.modLun (lunMate u) fun l => { l.cleared with cur := l.cur.bind fun c => c.cut n }).send u (o.cycles n true)

/-- The SET FEATURES of a target's mode sent on a LUN (R216). -/
def State.startSetup (s : State) (u : Fin 32) (o : NandOp) : State :=
  (s.modLun u fun l => { l with cur := some { op := o } }).send u (o.cycles s.main.nfc true)

/-- The mode of a target is set up: what its RESET cut is issued again (R216). -/
def State.setupDone (s : State) (u : Fin 32) : State :=
  [u, lunMate u].foldl (fun s v =>
    let s := s.modLun v fun l => { l with setup := false }
    match (s.lun v).cur with
    | some c => if c.again then (s.modLun v fun l => { l with cur := some { c with again := false } }).send v (c.phaseCycles s.main.nfc) else s
    | none => s) s

/-- The memory bytes of a program (R202). -/
def State.programData (s : State) (o : NandOp) : List Byte :=
  let n := (o.cwLast - o.cwFirst + 1) * 4096
  match s.place o.mem.toNat n with
  | some p => s.readPlace p n
  | none => zeros n

/-- What a program or erase leaves in the die when it ends well; a failure or a loss of power spoils it. -/
def State.writeDie (s : State) (u : Fin 32) (o : NandOp) : State :=
  let n := s.main.nfc
  if o.kind = .program then
    let row := n.row o.block o.page
    { s with nand := s.nand.writeBytes (nandKey u.val row) ((pageImage n u.val row o.profile.val (s.programData o)).map (~~~ ·)) }
  else if o.kind = .erase then
    { s with nand := s.nand.zeroFill (nandKey u.val (n.row o.block 0)) (2 ^ 15 * 2 ^ n.pageBits.toNat) }
  else s

/-- Everything that waits for NAND operations goes on: streams, chains, and an FLR (R36). -/
def State.nandSettle (s : State) : State := s.pumpNand.chanStreams.chansSettle.flrCheck

/-- A queued operation starts (R211), with that of the other plane where the two make one multi-plane command (R212); a program or
erase of block 0 of LUN 0 without BOOT_WRITE is refused (R218). -/
def State.startOp (s : State) (u : Fin 32) (o : NandOp) : State :=
  let n := s.main.nfc
  let s' := s.modLun u fun l => { l with queue := leaveQueue l.queue o }
  if o.writes && u == 0 && o.block = 0 && !n.bootWrite then
    (s'.opEnded o (some (stBusError, nandDetail u.val 5 (n.opRow o)))).nandSettle
  else
    let p := pairOf (s'.lun u).queue o
    let c : InFlight := { op := o, pair := p }
    let s' := s'.modLun u fun l => { l with cur := some c, queue := p.elim l.queue (leaveQueue l.queue) }
    ((c.ops.foldl (fun s o => s.writeDie u o) s').send u (c.cycles n)).nandSettle

/-- NAND_OPERATION_START (R211, R212, R215, R216, R218): the LUN's command is sent where it is the next one of its channel. -/
def execNandOperationStart (u : Fin 32) (s : State) : Host.Outcome State Fault Refusal :=
  .next <| match s.busCommand (lunChannel u) with
    | none => s
    | some (v, o) =>
      if v != u then s
      else if o.kind = .reset then s.startReset u o
      else if o.owner = .ctrl then s.startSetup u o
      else s.startOp u o

/-- What the status of a LUN that is ready shows (R208, R214): the set of the ladder is in force and the page is read again; the
default set is back; or the operation is over at the die. An operation past its bound no longer occupies it (R219). -/
def State.polled (s : State) (u : Fin 32) (c : InFlight) (fail : Bool) : State :=
  let put := fun (s : State) (x : Option InFlight) => s.modLun u fun l => { l with cur := x }
  if c.ignored then (if (s.lun u).resetPend then s else (put s none).nandSettle)
  else match c.phase with
    | .setting => (put s (some { c with phase := .page })).send u (c.op.cycles s.main.nfc true)
    | .restoring => put s (some { c with ready := true, phase := .restored })
    | _ => (put s (some { c with ready := true, fail := fail })).flrCheck

/-- STATUS_POLL (R197, R214): READ STATUS ENHANCED is sent to a busy LUN; the die shows ready, and whether it failed. -/
def execStatusPoll (u : Fin 32) (ready fail : Bool) (s : State) : Host.Outcome State Fault Refusal :=
  .next <| match (s.lun u).cur with
    | none => s
    | some c =>
      s.when (s.serving && !c.ready && !c.again) fun s =>
        (s.send u [.command 0x78, .row (s.main.nfc.opRow c.op)]).when ready fun s => s.polled u c fail

/-! ## Decoding (R205 to R209) -/

/-- The counters and the histogram changed. -/
def State.countNand (s : State) (m : Fin 7) : State := s.modNfc fun n => { n with counts := upd n.counts m (· + 1) }

/-- An uncorrectable codeword, or one with wrong metadata, captured: at once, or when its epoch commits (R205, R209, R222). -/
def State.captureUce (s : State) (u : Fin 32) (c : InFlight) (k : Fin 5) (mismatch : Bool) : State :=
  let n := s.main.nfc
  s.defer c.op.ctx c.op.spec (.uce (nandDetail u.val k.val (n.opRow c.op)) (c.uceInfo n mismatch))

/-- The read in flight on a LUN replaced. -/
def State.setRead (s : State) (u : Fin 32) (c : InFlight) : State := s.modLun u fun l => { l with cur := some c }

/-- A codeword decoded at a step of the ladder with a number of corrected bits (R205, R209). -/
def State.cwCorrected (s : State) (u : Fin 32) (c : InFlight) (k : Fin 5) (bits : Nat) : State :=
  let n := s.main.nfc
  let c' := { c with decoded := setBit c.decoded k.val true }
  let s := (s.countNand (n.stepCount c.ladder)).modNfc fun n => { n with hist := upd n.hist (n.bin bits) (· + 1) }
  if s.metaOk u.val (n.row c.op.block c.op.page) k.val c.op.profile.val then s.setRead u c'
  else ((s.countNand 5).captureUce u c k true).setRead u (c'.noteCw k)

/-- The default set sent at the end of a ladder that applied another (R208). -/
def State.restoreSet (s : State) (u : Fin 32) (c : InFlight) : State :=
  (s.setRead u { c with phase := .restoring, ready := false }).send u (setCycles s.main.nfc.cfg.active.retryDef)

/-- The step of the ladder is over where every wanted codeword has been tried: the next one sends its set and reads the page again;
behind the last one the codewords that still fail are uncorrectable. The default set is sent at the end (R208, R209). -/
def State.ladderStep (s : State) (u : Fin 32) : State :=
  match (s.lun u).cur with
  | none => s
  | some c =>
    let n := s.main.nfc
    let left := c.op.wanted.filter fun k => !c.decoded.getLsbD k.val
    let ends := fun (s : State) (c : InFlight) => if c.applied n then s.restoreSet u c else s.setRead u c
    if left = [] then ends s c
    else if !left.all (fun k => c.tried.getLsbD k.val) then s
    else if c.ladder < n.softCount + n.retryCount then
      (s.setRead u { c with ladder := c.ladder + 1, phase := .setting, tried := 0, ready := false, moved := false }).send u
        (setCycles (n.stepSet (c.ladder + 1)))
    else
      left.foldl (fun s k => (s.countNand 3).captureUce u c k false)
        (ends s { left.foldl InFlight.noteCw c with ladder := c.ladder + 1 })

/-- The transfer of the codewords that a read still wants begins (R197). -/
def State.beginMove (s : State) (u : Fin 32) (c : InFlight) : State :=
  let n := s.main.nfc
  let ks := (c.op.wanted.filter fun k => !c.decoded.getLsbD k.val).map Fin.val
  if c.moved then s
  else (s.setRead u { c with moved := true }).send u
    (transferCycles (n.opRow c.op) (profWords (n.prof c.op.profile.val)) ks)

/-- Whether a codeword of the read in flight is there to be decoded: the die is ready, its transfer has its turn, and this step of the
ladder has not tried it. Nothing of a stale read is seen (R284). -/
def State.decodeDue (s : State) (u : Fin 32) (c : InFlight) (k : Fin 5) : Bool :=
  c.op.kind == .read && c.phase == .page && c.ready && !c.ignored && !c.op.raw && !c.decodedAll s.main.nfc && c.op.wanted.contains k &&
    !c.decoded.getLsbD k.val && !c.tried.getLsbD k.val && !s.readStale c.op && s.mayMove u c

/-- One codeword decoded (R205, R207, R208, R209): an erased codeword is delivered as such; another is corrected, or fails at this
step of the ladder. -/
def State.decodeOne (s : State) (u : Fin 32) (c : InFlight) (k : Fin 5) (outcome : DecodeOutcome) : State :=
  if c.ladder = 0 && s.cwErased u.val (s.main.nfc.row c.op.block c.op.page) k.val c.op.profile.val then
    (s.countNand 4).setRead u { c with decoded := setBit c.decoded k.val true }
  else match outcome with
    | .corrected bits => s.cwCorrected u c k bits.toNat
    | .fails => s.setRead u { c with tried := setBit c.tried k.val true }

/-- CODEWORD_DECODE (R205, R207, R208, R209, R212). -/
def execCodewordDecode (u : Fin 32) (k : Fin 5) (outcome : DecodeOutcome) (s : State) : Host.Outcome State Fault Refusal :=
  .next <| match (s.lun u).cur with
    | none => s
    | some c =>
      s.when (s.serving && s.decodeDue u c k) fun s =>
        ((s.beginMove u c).decodeOne u { c with moved := true } k outcome).ladderStep u

/-! ## Ends (R213 to R216) -/

/-- Data of an operation written where its stream asked for it; data of an operation whose stream is gone, or whose
generation is stale, is dropped and counted (R219, R284, R285). -/
def State.nandData (s : State) (o : NandOp) (bs : List Byte) : State :=
  if s.readStale o then s.modCtx o.ctx fun x => { x with staleDrops := x.staleDrops + 1 }
  else
    let s := s.devWrite o.mem.toNat bs
    match o.owner with
    | .chan ch => s.modChan ch fun x => { x with bytes := x.bytes + BitVec.ofNat 64 bs.length }
    | _ => s

/-- An operation leaves its LUN with its outcome; of a multi-plane pair, the other plane's is next: a read's page stands in the die,
a program's or erase's status is yet to be read. -/
def State.endOp (s : State) (u : Fin 32) (c : InFlight) (f : Option (BitVec 16 × BitVec 32)) : State :=
  let next := c.pair.map fun p => ({ op := p, ready := p.kind == .read } : InFlight)
  ((s.modLun u fun l => { l with cur := next }).opEnded c.op f).nandSettle

/-- A page read comes to its end (R202, R208, R209): every wanted codeword has its outcome and the default set is back, or its data
is dropped. A raw page is transferred when the bus is its own. -/
def State.endRead (s : State) (u : Fin 32) (c : InFlight) : State :=
  let n := s.main.nfc
  let stale := s.readStale c.op
  if !stale && (!c.decodedAll n || (c.op.raw && !s.mayMove u c)) then s
  else if c.applied n && c.phase != .restored then s.restoreSet u c
  else ((s.nandData c.op (s.deliverPage u c)).nextStamp).endOp u c
    (c.uncorr.map fun k => (stEcc, nandDetail u.val k.val (n.opRow c.op)))

/-- NAND_OPERATION_END (R202, R209, R213, R214, R216). -/
def execNandOperationEnd (u : Fin 32) (data : List (BitVec 8)) (s : State) : Host.Outcome State Fault Refusal :=
  .next <| match (s.lun u).cur with
    | none => s
    | some c =>
      let o := c.op
      let detail := fun x => nandDetail u.val x (s.main.nfc.opRow o)
      s.when (s.serving && c.ready && !c.ignored) fun s =>
        match o.kind with
        | .read => s.endRead u c
        | .program | .erase =>
          if c.fail then (s.spoil u.val o).endOp u c (some (stBusError, detail (nandClass o.kind))) else s.endOp u c none
        | .setFeatures => (s.when (o.owner == .ctrl) fun s => s.setupDone u).endOp u c none
        | .getFeatures => (s.nandData o (padTo 4 data)).endOp u c none
        | .readParam =>
          if data = [] then s.endOp u c (some (stBusError, detail 3)) else (s.nandData o (padTo 256 data)).endOp u c none
        | .reset =>
          ((s.modLun u fun l => { l with setup := true }).modLun (lunMate u) fun l => { l with setup := true }).endOp u c none

/-- A RESET of a LUN's target is due at once (R215); the epoch that made the read speculative goes with it (R187). -/
def Lun.needReset (l : Lun) (o : NandOp) : Lun :=
  { l with resetPend := true, resetFor := if l.resetPend then (if o.spec.isNone then none else l.resetFor) else o.spec.map fun e => (o.ctx, e) }

/-- NAND_TIMEOUT (R215): the operation ends with TIMEOUT_NAND and its target waits for a RESET; a RESET that passes its own
timeout loses the target. -/
def execNandTimeout (u : Fin 32) (s : State) : Host.Outcome State Fault Refusal :=
  .next <| match (s.lun u).cur with
    | none => s
    | some c =>
      s.when (s.serving && !c.ready && !c.again) fun s =>
        if c.op.kind = .reset then (s.loseTarget u c.op).nandSettle
        else if c.ignored then s.modLun u fun l => l.needReset { c.op with spec := none }
        else
          let s := if c.op.writes then c.ops.foldl (fun s o => (s.suspect u o stTimeoutNand).spoil u.val o) s else s
          let s := s.modLun u fun l => { l.needReset c.op with cur := some { c with ignored := true } }
          (c.ops.foldl (fun s o =>
            s.opEnded o (some (stTimeoutNand, nandDetail u.val (nandClass o.kind) (s.main.nfc.opRow o)))) s).nandSettle

/-! ## The staged set (R204, R362) -/

/-- NFC_COMMIT (R204, R362): the set becomes pending; a profile that does not fit its page is made invalid. -/
def execNfcCommit (s : State) : Host.Outcome State Fault Refusal :=
  .next <| s.when s.serving fun s => s.modNfc fun n =>
    { n with cfg := { n.cfg with pending := some { n.cfg.staging with prof := Vector.ofFn fun i => n.fixProf n.cfg.staging.prof[i] } } }

/-- NFC_SET_ACTIVATE (R362): no command sequence and no ladder is in progress; a die that only programs or erases is not. -/
def execNfcSetActivate (s : State) : Host.Outcome State Fault Refusal :=
  .next <| s.when (s.serving && (List.finRange 32).all fun u =>
      match (s.lun u).cur with
      | some c => c.op.writes || c.ignored || c.again
      | none => true) fun s => s.modNfc fun n => { n with cfg := n.cfg.activate }

end Sys2Proof.Machine
end

