-- ==== Sys2Proof/Machine/Link.lean ====
section
/-!
DEFINITION. The Orokai Link's commands (chapter 12): what each message does where it arrives, flits, training, ports that go
down, and the staged routes and bindings.
-/

namespace Sys2Proof.Machine

/-! ## Messages for this chip (R265, R267) -/

/-- The context that holds a job with VALID set (R263). -/
def State.jobCtx (s : State) (job : BitVec 12) : Option (Fin 8) :=
  (List.finRange 8).find? fun c => (s.bound c).valid && (s.bound c).job == job

/-- A response to a message. -/
def State.reply (s : State) (m : Msg) (op : MsgOp) : Msg :=
  { op := op, src := s.chipId, dst := m.src, job := m.job, gen := m.gen, tag := m.tag, ch := m.ch }

/-- A refused WRITE or MARK_ADD: counted, flagged, and noted for the next FLUSH of its source chip and channel (R265). -/
def State.refuse (s : State) (src : Fin 8) (ch : Fin 16) (off : BitVec 28) : State :=
  (s.modLink fun l =>
    { l with cntRefused := l.cntRefused + 1,
             refusedNotes := if l.refusedNotes.any fun x => x.1 == src && x.2.1 == ch then l.refusedNotes
               else l.refusedNotes ++ [(src, ch, off)] }).linkEvent 8

/-- Whether the bytes of a WRITE or READ lie in a window that has the right (R265). -/
def Binding.allows (b : Binding) (m : Msg) (right : Nat) : Bool :=
  m.off.toNat + m.len.toNat + 1 ≤ b.bound.toNat && b.rights.getLsbD right

/-- WRITE at its target (R265). -/
def State.onWrite (s : State) (m : Msg) : State :=
  match s.jobCtx m.job with
  | some c =>
    let b := s.bound c
    if b.allows m 1 then s.spaceWrite .shm (b.base.toNat + m.off.toNat) (padTo (m.len.toNat + 1) m.data)
    else s.refuse m.src m.ch m.off
  | none => s.refuse m.src m.ch m.off

/-- READ at its target (R265). -/
def State.onRead (s : State) (m : Msg) : State :=
  match s.jobCtx m.job with
  | some c =>
    let b := s.bound c
    if b.allows m 0 then
      s.sendMsg { s.reply m .readResp with len := m.len, data := s.spaceRead .shm (b.base.toNat + m.off.toNat) (m.len.toNat + 1) }
    else s.sendMsg (s.reply m .errResp)
  | none => s.sendMsg (s.reply m .errResp)

/-- MARK_ADD at its target (R265, R267). -/
def State.onMarkAdd (s : State) (m : Msg) : State :=
  match s.jobCtx m.job with
  | some _ => s.addMark m.mark 1
  | none => s.refuse m.src m.ch m.off

/-- FLUSH at its target (R265, R267): acknowledged, with the first write that was refused since the last one, also where the
binding has fallen invalid since (chapter 12, worked example). DESIGN CHOICE (log entry 84): a FLUSH that is itself refused,
with no refused write to report, is answered with ERR_RESP. -/
def State.onFlush (s : State) (m : Msg) : State :=
  match s.main.link.refusedNotes.find? fun x => x.1 == m.src && x.2.1 == m.ch with
  | some note =>
    (s.modLink fun l => { l with refusedNotes := l.refusedNotes.erase note }).sendMsg
      { s.reply m .flushAck with refused := true, off := note.2.2 }
  | none => if (s.jobCtx m.job).isSome then s.sendMsg (s.reply m .flushAck) else s.sendMsg (s.reply m .errResp)

/-! ## Responses at the requester (R224, R266, R267, R284) -/

/-- A response of a revoked tag, or of a generation before the one that holds the tag now: dropped, and counted where the request
is remembered (R285). -/
def State.lostTag (s : State) (t : Fin 64) (gen : BitVec 8) : State :=
  match s.main.link.lost.find? fun x => x.1 == t && x.2.2 == gen with
  | some x => (s.modLink fun l => { l with lost := l.lost.erase x }).modCtx x.2.1 fun c => { c with staleDrops := c.staleDrops + 1 }
  | none => s

/-- Whether a channel waits for the response of a tag: of a READ in flight, or of its FLUSH. -/
def Active.awaits (a : Active) (t : Fin 64) : Bool := a.tag == some t || a.reads.any fun r => r.tag == some t

/-- A response of a reserved tag: the tag falls free; one of a stale generation is dropped and counted, and one that its channel
no longer waits for is dropped. A response that does not carry the generation of the tag's request is not the tag's. -/
def State.onTag (s : State) (t : Fin 64) (gen : BitVec 8) (f : State → TagUse → Active → State) : State :=
  match s.main.link.tags[t] with
  | none => s.lostTag t gen
  | some u =>
    if gen != u.gen then s.lostTag t gen
    else
      let s := s.setTag t none
      if u.gen != (s.ctx u.ctx).gen then s.modCtx u.ctx fun x => { x with staleDrops := x.staleDrops + 1 }
      else match (s.chan u.ch).cur with
        | some a => if (s.chan u.ch).state == .running && a.awaits t then f s u a else s
        | none => s

/-- The response of a READ put in its place in the stream (R262, R266). -/
def setReply (t : Fin 64) (data : List Byte) : List TrvRead → List TrvRead
  | [] => []
  | r :: rs =>
    if r.tag = some t then { r with tag := none, data := some (padTo r.len data) } :: rs else r :: setReply t data rs

/-- READ_RESP (R266): the data takes its place in the stream. -/
def State.onReadResp (s : State) (m : Msg) : State :=
  s.onTag m.tag m.gen fun s u a =>
    if u.isFlush then s
    else s.modChan u.ch fun x =>
      { x with retries := 0 }.withCur (Active.takeReplies a.reads.length { a with reads := setReply m.tag m.data a.reads })

/-- A READ whose attempt failed: it has no tag any more, and after the last retry no further attempt (R245). -/
def loseReply (t : Fin 64) (dead : Bool) : List TrvRead → List TrvRead
  | [] => []
  | r :: rs => if r.tag = some t then { r with tag := none, dead := dead } :: rs else r :: loseReply t dead rs

/-- An attempt of a peer access failed (R245, R266): it is made again, and after the last retry the channel halts once the stream
before it is written (R246). -/
def State.tagFails (t : Fin 64) (s : State) (u : TagUse) (a : Active) : State :=
  if u.isFlush then
    (s.modChan u.ch fun x => x.withCur { a with tag := none }).failAccess u.ch 1 a.dst a.dstPeer
  else
    let dead := decide (s.main.trvRetry.toNat ≤ (s.chan u.ch).retries)
    s.modChan u.ch fun x =>
      { x with retries := if dead then x.retries else x.retries + 1 }.withCur { a with reads := loseReply t dead a.reads }

/-- ERR_RESP (R266): a bus error of the access. -/
def State.onErrResp (s : State) (m : Msg) : State := s.onTag m.tag m.gen (State.tagFails m.tag)

/-- FLUSH_ACK (R267): the descriptor's writes are applied; or, with REFUSED, the chain halts. -/
def State.onFlushAck (s : State) (m : Msg) : State :=
  s.onTag m.tag m.gen fun s u a =>
    if !u.isFlush then s
    else if m.refused then
      s.chanHalt u.ch stBusError (haltDetail u.ch 1 (s.chan u.ch).starter.station 0) (some (errAddrOf m.off.toNat a.dstPeer))
    else s.modChan u.ch fun x => x.withCur { a with tag := none, done := true, flushing := false }

/-! ## Control messages (R254, R269) -/

/-- OKL_ABORT_LOG (chapter 12, Registers). -/
def abortWord (m : Msg) (hit : Bool) : BitVec 25 :=
  BitVec.ofNat 25 (m.job.toNat + 4096 * m.origin.val + 65536 * m.aseq.toNat) ||| flag 25 24 hit

/-- ABORT (R268, R269). -/
def State.onAbort (s : State) (p : Fin 2) (m : Msg) : State :=
  if m.origin == s.chipId || s.main.link.seen.any fun x => x == (m.origin, m.aseq) then s
  else
    let hit := (s.jobCtx m.job).filter fun c => (s.ctx c).reset.isNone
    let s := (s.modLink fun l =>
      { l with abortLog := abortWord m hit.isSome,
               seen := (m.origin, m.aseq) :: l.seen.filter fun x => x.1 != m.origin }).linkEvent 4
    let s := s.sendOn (otherPort p) m
    match hit with
    | some c => s.triggerReset c 2
    | none => s

/-- HELLO (R254): the port is up, or stays down where the neighbour has this chip's own ID. -/
def State.onHello (s : State) (p : Fin 2) (m : Msg) : State :=
  if (s.port p).state = 1 && (s.port p).trained then
    if m.src = s.chipId then
      (s.modPort p fun x => { x.restart with state := 0, trained := false, cause := 5, idConflict := true }).linkEvent 16
    else s.modPort p fun x => { x with state := 2, neighbour := m.src, idConflict := false }
  else s

/-! ## Arrival (R256, R260) -/

/-- A message that arrived at a port: consumed, forwarded, or counted as unreachable (R260). -/
def State.arrive (s : State) (p : Fin 2) (m : Msg) : State :=
  match m.op with
  | .abort => s.onAbort p m
  | .hello => s.onHello p m
  | _ =>
    if m.dst != s.chipId then
      match s.routeOf m.dst with
      | some r => s.sendOn r m
      | none => s.modPort p fun x => { x with cntBad := x.cntBad + 1 }
    else match m.op with
      | .write => s.onWrite m
      | .read => s.onRead m
      | .markAdd => s.onMarkAdd m
      | .flush => s.onFlush m
      | .readResp => s.onReadResp m
      | .flushAck => s.onFlushAck m
      | .errResp => s.onErrResp m
      | .abort | .hello => s

/-- What waits for the link goes on. -/
def State.linkSettle (s : State) : State := s.peerSteps.chansSettle

/-- A message command: a message of one operation that arrives, whole, at a port that is up. -/
def State.message (s : State) (p : Fin 2) (m : Msg) (op : MsgOp) : State :=
  s.when (s.stationsOn && (s.port p).state = 2) fun s => (s.arrive p { m with op := op }).linkSettle

/-- HELLO (R254). -/
def execHello (p : Fin 2) (m : Msg) (s : State) : Host.Outcome State Fault Refusal :=
  .next (s.when s.stationsOn fun s => (s.onHello p m).linkSettle)
/-- WRITE (R260, R265). -/
def execWrite (p : Fin 2) (m : Msg) (s : State) : Host.Outcome State Fault Refusal := .next (s.message p m .write)
/-- READ (R260, R265). -/
def execRead (p : Fin 2) (m : Msg) (s : State) : Host.Outcome State Fault Refusal := .next (s.message p m .read)
/-- MARK_ADD (R260, R267); the message has no CH field, and counts as channel 0. -/
def execMarkAdd (p : Fin 2) (m : Msg) (s : State) : Host.Outcome State Fault Refusal :=
  .next (s.message p { m with ch := 0 } .markAdd)
/-- FLUSH (R260, R267). -/
def execFlush (p : Fin 2) (m : Msg) (s : State) : Host.Outcome State Fault Refusal := .next (s.message p m .flush)
/-- READ_RESP (R266). -/
def execReadResp (p : Fin 2) (m : Msg) (s : State) : Host.Outcome State Fault Refusal := .next (s.message p m .readResp)
/-- FLUSH_ACK (R267). -/
def execFlushAck (p : Fin 2) (m : Msg) (s : State) : Host.Outcome State Fault Refusal := .next (s.message p m .flushAck)
/-- ERR_RESP (R266). -/
def execErrResp (p : Fin 2) (m : Msg) (s : State) : Host.Outcome State Fault Refusal := .next (s.message p m .errResp)
/-- ABORT (R269). -/
def execAbort (p : Fin 2) (m : Msg) (s : State) : Host.Outcome State Fault Refusal := .next (s.message p m .abort)

/-- RESPONSE_TIMEOUT (R266): a response that did not arrive is a bus error of the access. -/
def execResponseTimeout (tag : Fin 64) (s : State) : Host.Outcome State Fault Refusal :=
  .next <| s.when s.stationsOn fun s =>
    match s.main.link.tags[tag] with
    | none => s
    | some u =>
      let s := s.setTag tag none
      match (s.chan u.ch).cur with
      | some a =>
        if (s.chan u.ch).state == .running && a.awaits tag then (State.tagFails tag s u a).linkSettle else s.linkSettle
      | none => s.linkSettle

/-! ## Flits (R255 to R259) -/

/-- A message as a flit stream brings it: MARK_ADD counts as channel 0, and FLUSH, which carries no CH, takes the oldest
note of its source chip. -/
def State.fromWire (s : State) (m : Msg) : Msg :=
  match m.op with
  | .markAdd => { m with ch := 0 }
  | .flush => { m with ch := ((s.main.link.refusedNotes.find? fun x => x.1 == m.src).map fun x => x.2.1).getD 0 }
  | _ => m

/-- The bytes of a message that a port completed: a message, or dropped and counted (R256). -/
def State.arriveBytes (s : State) (p : Fin 2) (bs : List Byte) : State :=
  match msgOf bs with
  | some m => s.arrive p (s.fromWire m)
  | none => s.modPort p fun x => { x with cntBad := x.cntBad + 1 }

/-- A port that received 8 NAKs without an advance goes down (R258). -/
def State.checkNaks (s : State) (p : Fin 2) : State := if 8 ≤ (s.port p).naks then s.portDown p 1 else s

/-- A flit of a message received in order (R256, R259, R260, R262): a first flit settles the message's way; a flit that continues
nothing is dropped. What is consumed here frees its slots when it is whole; a forwarded flit frees its own when it leaves. -/
def State.takeBody (s : State) (p : Fin 2) (vc : Nat) (som : Bool) (body : List Byte) : State :=
  let s := s.modPort p Port.inOrder
  let now := if som then some (s.rxStart vc body)
    else ((s.port p).rx vc).map fun r =>
      { r with bytes := if r.way = .here then r.bytes ++ body else [], left := r.left - 1, held := r.held + 1 }
  match now with
  | none => s.modPort p fun x => x.freeSlots vc 1
  | some r =>
    let s := s.modPort p fun x => x.setRx vc (if r.left = 0 then none else some r)
    match r.way with
    | .drop => s.modPort p fun x => { x.freeSlots vc 1 with cntBad := if som then x.cntBad + 1 else x.cntBad }
    | .forward q =>
      if (s.port q).state = 2 then (s.modPort q fun x => x.forwarded vc p ⟨som, word 448 body⟩ r.left).pumpAll q
      else s.modPort p fun x => x.freeSlots vc 1
    | .here =>
      if r.left = 0 then (s.modPort p fun x => x.freeSlots vc r.held).arriveBytes p (r.bytes.take (msgLength r.bytes)) else s

/-- A flit received in order with a good CRC: ACK and credits are applied, a NAK is counted and answered, and what it carries is
taken (R255, R257, R259). -/
def State.takeFlit (s : State) (p : Fin 2) (bs : List Byte) : State :=
  let b2 := leAt bs 2 1
  let b3 := leAt bs 3 1
  let s := s.modPort p fun x =>
    { (if b2 / 4 % 2 = 1 then x.nakSeen (bs.getD 1 0) else x.ack (bs.getD 1 0)).takeCredits (b3 % 4) (b3 / 4) with nakSent := false }
  let s := if b2 % 4 = 3 then s else s.takeBody p (b2 % 4) (b2 / 8 % 2 = 1) ((bs.drop 4).take 56)
  (s.pumpAll p).checkNaks p

/-- FLIT (R255, R256, R257, R260): one that fails its CRC or is out of order is discarded, and NAKed once. -/
def execFlit (p : Fin 2) (f : BitVec 512) (s : State) : Host.Outcome State Fault Refusal :=
  .next <| s.when (s.stationsOn && ((s.port p).state = 2 || ((s.port p).state = 1 && (s.port p).trained))) fun s =>
    let bs := toBytes f 64
    if crc32 (bs.take 60) != word 32 (bs.drop 60) then
      s.modPort p fun x => { (if x.nakSent then x else x.discard) with cntCrc := x.cntCrc + 1 }
    else if bs.getD 0 0 != (s.port p).rxSeq then s.modPort p fun x => if x.nakSent then x else x.discard
    else (s.takeFlit p bs).linkSettle

/-- NAK (R257, R258). -/
def execNak (p : Fin 2) (ack : BitVec 8) (s : State) : Host.Outcome State Fault Refusal :=
  .next <| s.when (s.stationsOn && (s.port p).state != 0) fun s =>
    (((s.modPort p fun x => x.nakSeen ack).pumpAll p).checkNaks p).linkSettle

/-- ACK_INTERVAL (R257): an ACK of what was received is sent, in an idle flit. -/
def execAckInterval (p : Fin 2) (s : State) : Host.Outcome State Fault Refusal :=
  .next <| s.when (s.stationsOn && (s.port p).state != 0) fun s =>
    s.modPort p fun x => x.idleFlit false

/-! ## Ports (R254, R258) -/

/-- LINK_SILENCE (R258). -/
def execLinkSilence (p : Fin 2) (s : State) : Host.Outcome State Fault Refusal :=
  .next <| s.when (s.stationsOn && ((s.port p).state = 2 || (s.port p).trained)) fun s => (s.portDown p 2).linkSettle

/-- A port begins to train (R254). -/
def Port.train (p : Port) : Port := { p.restart with state := 1, trained := false }

/-- RETRAIN (R254): an enabled port trains. -/
def execRetrain (p : Fin 2) (s : State) : Host.Outcome State Fault Refusal :=
  .next <| s.when (s.stationsOn && (s.port p).enable) fun s => (s.modPort p Port.train).cutFrom p

/-- PORT_DISABLE (R258): ENABLE cleared. -/
def execPortDisable (p : Fin 2) (s : State) : Host.Outcome State Fault Refusal :=
  .next <| s.when s.serving fun s => ((s.modPort p fun x => { x with enable := false }).portDown p 4).linkSettle

/-- LINK_TRAINING_END (R254, R258): a width, and HELLO is sent; or the port is down. -/
def execLinkTrainingEnd (p : Fin 2) (width : Option (Fin 3)) (s : State) : Host.Outcome State Fault Refusal :=
  .next <| s.when (s.stationsOn && (s.port p).state = 1 && !(s.port p).trained) fun s =>
    match width with
    | some w =>
      (s.modPort p fun x => { x with trained := true, width := BitVec.ofNat 2 w.val }).queueMsg p
        { op := .hello, src := s.chipId, dst := s.chipId }
    | none => (s.portDown p 3).linkSettle

/-! ## Staged sets (R262, R263) -/

/-- OKL_COMMIT (R262): a message whose first flit has not arrived takes the new routes; one already started keeps its own. -/
def execOklCommit (s : State) : Host.Outcome State Fault Refusal :=
  .next <| s.when s.serving fun s => s.modLink fun l => { l with route := l.route.commit.activate }

/-- OKL_CTX_COMMIT (R263). -/
def execOklCtxCommit (c : Fin 8) (s : State) : Host.Outcome State Fault Refusal :=
  .next <| s.when s.serving fun s => (s.noteWaits c).modBind c fun b => { b with set := b.set.commit }

/-- Whether a window has one of the faults of R263. -/
def State.badWindow (s : State) (b : Binding) : Bool :=
  let a := b.base.toNat
  let n := b.bound.toNat
  a % 64 != 0 || n % 64 != 0 || n = 0 || decide (0x10000000 < a + n) || (s.main.shm.split && !oneGroup a n) || !s.shmPresent a n

/-- BINDING_ACTIVATE (R263). -/
def execBindingActivate (c : Fin 8) (s : State) : Host.Outcome State Fault Refusal :=
  .next <| match (s.main.link.binds[c]).set.pending with
    | none => s
    | some b =>
      s.when (s.serving && !s.ctxRuns c) fun s =>
        let bad := s.badWindow b
        let conflict := (List.finRange 8).any fun k => k != c && (s.bound k).valid && (s.bound k).job == b.job
        State.noticeCheck <| s.modBind c fun x =>
          { set := { x.set with active := { b with valid := b.valid && !bad && !conflict }, pending := none },
            badBind := x.badBind || bad, bindConflict := x.bindConflict || conflict }

end Sys2Proof.Machine
end

