-- ==== Sys2Proof/Machine/Contexts.lean ====
section
/-!
DEFINITION. The commands of contexts and recovery (chapter 13), of parcel-table commits (R89), of the shared-memory mode
(R83), and the registers that clear counters.
-/

namespace Sys2Proof.Machine

/-! ## Context resets -/

/-- CTX_RESET (R273, R288, R289): GO triggers a reset that counts toward escalation. -/
def execCtxReset (c : Fin 8) (go : Bool) (s : State) : Host.Outcome State Fault Refusal :=
  .next <| s.when (s.serving && go) fun s => (s.driverReset c).noticeCheck

/-- CONTEXT_RESET_SEQUENCE (R274, R275): the steps of a context whose turn it is go on. -/
def execContextResetSequence (c : Fin 8) (s : State) : Host.Outcome State Fault Refusal :=
  .next <| s.when s.serving fun s =>
    match s.resetTurn c with
    | some r => s.resetSteps c r
    | none => s

/-- SAMPLE_TIMEOUT (R283): the sample is abandoned without its header, and the sequence goes on at step 4. -/
def execSampleTimeout (c : Fin 8) (s : State) : Host.Outcome State Fault Refusal :=
  .next <| match s.resetTurn c with
    | none => s
    | some r => s.abandonSample c r

/-- ACCESS_FAIL (R245, R283): an attempt failed; after TRV_RETRY retries the requester ends with BUS_ERROR. A sample of a context
reset is abandoned. -/
def execAccessFail (who : Requester) (s : State) : Host.Outcome State Fault Refusal :=
  .next <| s.when s.serving fun s =>
    match who with
    | .chan ch => (((s.until fun s => (s.access ch).any s.accessFails).chanFail ch).chansSettle.until (State.noDead ch)).chansSettle
    | .programmer k => s.programmerFail k
    | .setParcels q => s.setParcelsFail q
    | .tables q => s.tablesFail q
    | .attest q => s.attestFail q
    | .sample c =>
      match s.resetTurn c with
      | some r => s.abandonSample c r
      | none => s

/-- REVOCATION (R219, R286): the drain bound of step 4, 5 or 6 expires, what is still held is taken, and the sequence goes
on. -/
def execRevocation (c : Fin 8) (s : State) : Host.Outcome State Fault Refusal :=
  .next <| match s.resetTurn c with
    | none => s
    | some r =>
      s.when s.serving fun s =>
        match (s.ctx c).step with
        | 4 => (s.revokeStations c).resetFrom5 c r
        | 5 => (s.revokeChans c).resetFrom6 c r
        | 6 => (((s.writesOf c).foldl (fun s u => s.giveUp u (resetStatus r.cause)) s).stopProgramming c).finishReset c r
        | _ => s

/-- CTX_ESC_COMMIT (R291): the staged pair becomes active at once. -/
def execCtxEscCommit (s : State) : Host.Outcome State Fault Refusal :=
  .next <| s.when s.serving fun s => s.modEsc fun e =>
    { e with limit := e.limit.commit.activate, window := e.window.commit.activate }

/-! ## Parcel tables (R85, R89) -/

/-- CTX_PT_COMMIT (R10, R89). -/
def execCtxPtCommit (c : Fin 8) (s : State) : Host.Outcome State Fault Refusal :=
  .next <| s.when s.serving fun s => (s.noteWaits c).modCtx c fun x => { x with table := x.table.commit }

/-- PARCEL_TABLE_ACTIVATE (R85, R89): no job of the context runs; entries that break R85 are left invalid. -/
def execParcelTableActivate (c : Fin 8) (s : State) : Host.Outcome State Fault Refusal :=
  .next <| match (s.ctx c).table.pending with
    | none => s
    | some t =>
      s.when (s.serving && !s.ctxRuns c) fun s =>
        let r := s.checkTable t
        s.modCtx c fun x =>
          { x with table := { x.table with active := r.1, pending := none }, badEntry := x.badEntry || r.2 }

/-! ## The mode of shared memory (R83) -/

/-- Whether a port holds messages or parts of messages. -/
def Port.busy (p : Port) : Bool :=
  !(p.outCtl.isEmpty && p.outRsp.isEmpty && p.outReq.isEmpty && p.rxCtl.isNone && p.rxReq.isNone && p.rxRsp.isNone)

/-- Whether a link transfer is in progress: a message is being sent or received, or a response is awaited. -/
def State.linkBusy (s : State) : Bool :=
  (List.finRange 2).any (fun p => (s.port p).busy) || (List.finRange 64).any fun t => (s.main.link.tags[t]).isSome

/-- Whether SHM_MODE may be written (R83). -/
def State.shmIdle (s : State) : Bool :=
  s.queuesIdle && !s.chansBusy && !s.nandBusy && !s.progBusy && !s.linkBusy

/-- SHM_MODE (R83, R264): an accepted write clears VALID of every binding, and a change of mode leaves the whole of shared
memory undefined. -/
def State.writeShmMode (s : State) (split : Bool) : State :=
  if s.shmIdle && (split || s.otp.shmGroups == 7) then
    let s := s.modLink fun l =>
      { l with binds := Vector.ofFn fun c =>
          { l.binds[c] with set := { l.binds[c].set with active := { l.binds[c].set.active with valid := false } } } }
    if split = s.main.shm.split then s
    else (s.modShm fun m => { m with split := split, mem := { stamp := s.stamp } }).nextStamp
  else s.modShm fun m => { m with modeBusy := true }

/-- SHM_MODE (R83). -/
def execShmMode (split : Bool) (s : State) : Host.Outcome State Fault Refusal :=
  .next <| s.when s.serving fun s => s.writeShmMode split

/-! ## Registers that clear counters -/

/-- SHM_CNT_CLEAR (R82). -/
def execShmCntClear (s : State) : Host.Outcome State Fault Refusal :=
  .next <| s.when s.serving fun s => s.modShm fun m => { m with conflicts := Vector.replicate 64 0 }

/-- STN_CNT_CLEAR (R99): the conflict and scoreboard counters and the high-water mark. -/
def execStnCntClear (n : Fin 24) (s : State) : Host.Outcome State Fault Refusal :=
  .next <| s.stnWrite n fun s => s.modStation n fun t =>
    { t with conflicts := Vector.replicate 60 0, sbWait := 0, sbFull := 0, boardMax := 0 }

/-- STN_EXEC_CLEAR (R108): STN_RETIRED to STN_SYNC_WAIT. -/
def execStnExecClear (n : Fin 24) (s : State) : Host.Outcome State Fault Refusal :=
  .next <| s.stnWrite n fun s => s.modStation n fun t =>
    { t with retired := 0, busy := 0, regWait := 0, queueFull := 0, syncWait := 0 }

/-- NFC_CNT_CLEAR (R209). -/
def execNfcCntClear (s : State) : Host.Outcome State Fault Refusal :=
  .next <| s.when s.serving fun s => s.modNfc fun n =>
    { n with counts := Vector.replicate 7 0, hist := Vector.replicate 16 0 }

/-- CTX_SPEC_CLEAR (R192): the five speculation counters of a context. -/
def execCtxSpecClear (c : Fin 8) (s : State) : Host.Outcome State Fault Refusal :=
  .next <| s.when s.serving fun s => s.modCtx c fun x =>
    { x with suppressed := 0, dropped := 0, commits := 0, discards := 0, cbFull := 0 }

end Sys2Proof.Machine
end

