-- ==== Sys2Proof/Machine/SerialOps.lean ====
section
/-!
DEFINITION. The two UARTs and LIN frame mode: what a finished character does (R320, R322, R324), protected identifiers and
checksums (R328, R330), the end of a frame (R334), and entry to Hold (R325).
-/

namespace Sys2Proof.Machine

/-! ## Characters -/

/-- Whether a UART is in frame mode, which only SER1 has (R327). -/
def State.frameMode (s : State) (u : Fin 2) : Bool := u == 1 && (s.main.uarts[u]).cfg.active.linEn

/-- Whether the serial lines are connected: the UARTs run, and no pad-hold latch holds the balls (R325, R326). -/
def State.serialOn (s : State) : Bool := s.stationsOn && !s.aon.padHeld

/-- Error flags set: a marked flag that is set again loses its mark (R324). -/
def Uart.setFlags (x : Uart) (f : BitVec 5) : Uart := { x with flags := x.flags ||| f, marks := x.marks &&& ~~~f }

/-- The value of a bit: the majority of its samples (R319). -/
def sampleValue (b : Samples) : Bool := (b.s7 && b.s8) || (b.s7 && b.s9) || (b.s8 && b.s9)
/-- Whether the samples of a bit disagree (R319). -/
def samplesNoisy (b : Samples) : Bool := b.s7 != b.s8 || b.s8 != b.s9
/-- Whether every sample of a bit reads low (R320). -/
def samplesLow (b : Samples) : Bool := !b.s7 && !b.s8 && !b.s9

/-- Whether a start bit is accepted as the start of a character, or of a false start: the line was high for 16 samples (R319). -/
def startSeen (b : StartBit) : Bool := 16 ≤ b.high

/-- The data bits that the format has (R317). -/
def Uart.dataSamples (x : Uart) (c : RxChar) : List Samples := c.data.toList.take (5 + x.cfg.active.dbits.toNat)

/-- Whether the format has a parity bit (R317). -/
def Uart.hasParity (x : Uart) : Bool := x.cfg.active.parity == 1 || x.cfg.active.parity == 2

/-- The data bits of a character, right-aligned (R317, R320). -/
def Uart.dataBits (x : Uart) (c : RxChar) : BitVec 8 :=
  ((x.dataSamples c).map sampleValue).zipIdx.foldl (fun v p => v ||| flag 8 p.2 p.1) 0

/-- Whether a parity bit matches the configured parity (R317, R320). -/
def Uart.parityOk (x : Uart) (c : RxChar) : Bool :=
  let odd := popCount (x.dataBits c) % 2 == 1
  if x.cfg.active.parity = 1 then sampleValue c.parity == odd
  else if x.cfg.active.parity = 2 then sampleValue c.parity != odd else true

/-- The bits of a character after its start bit that the receiver looks at. -/
def Uart.bitsSeen (x : Uart) (c : RxChar) : List Samples :=
  x.dataSamples c ++ (if x.hasParity then [c.parity] else []) ++ [c.stop]

/-- The flags of a finished character: FE 0, PE 1, NOISE 3, BRK 4 (R319, R320). -/
def Uart.charFlags (x : Uart) (c : RxChar) : BitVec 5 :=
  flag 5 0 (!sampleValue c.stop) ||| flag 5 1 (!x.parityOk c) |||
    flag 5 3 ((c.start.samples :: x.bitsSeen c).any samplesNoisy) ||| flag 5 4 ((x.bitsSeen c).all samplesLow)

/-- A finished character (R320, R322): with the holding register full it is discarded, and only OE is set. -/
def Uart.finish (x : Uart) (c : RxChar) : Uart :=
  if x.rxFull then x.setFlags 4 else { x.setFlags (x.charFlags c) with rxHold := x.dataBits c, rxFull := true }

/-- The bits of a character as a UART sends them: start bit, data bits from the least significant, parity bit, stop bits (R317). -/
def Uart.charBits (x : Uart) (b : BitVec 8) : List Bool :=
  let data := (List.range (5 + x.cfg.active.dbits.toNat)).map fun i => b.getLsbD i
  let odd := data.countP id % 2 == 1
  [false] ++ data ++ (if x.hasParity then [if x.cfg.active.parity = 1 then odd else !odd] else []) ++
    List.replicate (if x.cfg.active.stop2 then 2 else 1) true

/-- SERn_STAT (chapter 15, Registers). -/
def Uart.stat (x : Uart) : BitVec 32 :=
  flag 32 0 x.rxFull ||| flag 32 1 x.txHold.isNone ||| flag 32 2 (x.txHold.isNone && x.txShift.isNone) ||| x.flags.setWidth 32 <<< 3 |||
    flag 32 8 x.txLost ||| flag 32 9 x.lpLost ||| flag 32 10 x.cfg.pending.isSome

/-! ## Frames -/

/-- The protected identifier of an identifier (R328). -/
def pidOf (id : BitVec 6) : BitVec 8 :=
  let b := fun i => id.getLsbD i
  id.setWidth 8 ||| flag 8 6 ((b 0 ^^ b 1) ^^ (b 2 ^^ b 4)) ||| flag 8 7 (!((b 1 ^^ b 3) ^^ (b 4 ^^ b 5)))

/-- The sum with end-around carry (R330). -/
def linSum (sum : Nat) : List Byte → Nat
  | [] => sum
  | b :: t => linSum (if 255 < sum + b.toNat then sum + b.toNat - 255 else sum + b.toNat) t

/-- The checksum of a frame (R330): identifiers 0x3C and 0x3D always use the classic one. -/
def linChecksum (id : BitVec 6) (enhanced : Bool) (pid : BitVec 8) (data : List Byte) : BitVec 8 :=
  let start := if enhanced && id != 0x3C && id != 0x3D then [pid] else []
  BitVec.ofNat 8 (255 - linSum 0 (start ++ data))

/-- The bits of bytes as 8-N-1 characters (R328). -/
def lineBits (bs : List Byte) : List Bool :=
  bs.flatMap fun b => [false] ++ (List.range 8).map (fun i => b.getLsbD i) ++ [true]

/-- Bits of a break and of a delimiter (chapter 15, Registers). -/
def SerCfg.breakBits (c : SerCfg) : Nat := 13 + c.linBreak.toNat
/-- Bits of a delimiter. -/
def SerCfg.delimBits (c : SerCfg) : Nat := 1 + c.linDelim.toNat

/-- The header of a frame as a commander sends it: break, delimiter, sync, PID (R328). -/
def SerCfg.headerBits (c : SerCfg) (id : BitVec 6) : List Bool :=
  List.replicate c.breakBits false ++ List.replicate c.delimBits true ++ lineBits [0x55, pidOf id]

/-- LEN of an identifier's table entry (R329). -/
def Lin.len (l : Lin) : Nat := field (l.tab.getD l.id.toNat 8) 3 0

/-- DIR of the frame's table entry: 0 ignore, 1 publish, 2 subscribe (R329). -/
def Lin.dir (l : Lin) : Nat := field (l.tab.getD l.id.toNat 8) 5 4

/-- CHK of an identifier's table entry (R329). -/
def Lin.enhanced (l : Lin) : Bool := bit (l.tab.getD l.id.toNat 8) 6

/-- The response that a publisher sends: the captured bytes 0 to N - 1 and the checksum (R328 to R330). -/
def Lin.published (l : Lin) : List Byte :=
  let data := (toBytes l.sending 8).take l.len
  data ++ [linChecksum l.id l.enhanced l.pidByte data]

/-- Whether a frame is in progress (R334). -/
def Lin.inFrame (l : Lin) : Bool := 1 ≤ l.state.toNat && l.state.toNat ≤ 5

/-- The end of a frame (R334). -/
def Lin.endFrame (l : Lin) (result : BitVec 4) : Lin :=
  { l with state := 0, out := [], clocks := 0, result := result, lastId := l.id, done := true, err := l.err || result != 0,
           cntOk := if result = 0 then l.cntOk + 1 else l.cntOk, cntErr := if result = 0 then l.cntErr else l.cntErr + 1 }

/-- SER1_LIN_STAT (chapter 15, Registers). -/
def Lin.stat (l : Lin) : BitVec 32 :=
  l.state.setWidth 32 ||| l.lastId.setWidth 32 <<< 8 ||| l.result.setWidth 32 <<< 16 ||| flag 32 24 l.done ||| flag 32 25 l.err |||
    flag 32 26 l.wakeSeen ||| flag 32 27 l.hdrLost ||| flag 32 28 l.noise

/-! ## Hold (R325) -/

/-- A UART on entry to Hold: what it was sending or receiving, and its transmit holding register, are discarded. -/
def Uart.hold (x : Uart) (receiving : Bool) : Uart :=
  { x with txHold := none, txShift := none, lpLost := x.lpLost || x.txHold.isSome || x.txShift.isSome || receiving }

/-- Whether a UART's receiver can be within a character: it is on, and its line is connected. -/
def State.receives (s : State) (u : Fin 2) : Bool :=
  s.serialOn && ((s.main.uarts[u]).cfg.active.rxen || s.frameMode u)

/-- The serial ports on entry to Hold: a frame in progress ends with ABORTED, and a wake pulse stops. -/
def State.serialHold (s : State) : State :=
  (s.modMain fun m =>
    { m with uarts := Vector.ofFn fun u => (m.uarts[u]).hold (s.receives u && Config.receiving s.stamp u.val) }).modLin fun l =>
    if l.inFrame then { l with noise := l.noise || Config.lineNoise s.stamp }.endFrame 9 else { l with state := 0 }

/-! ## The header's fields (R334) -/

/-- STATE in a header after a peripheral clock (R318, R334): a commander's follows its own bits; a responder's follows the line. -/
def Lin.headerClock (l : Lin) (c : SerCfg) (moves : Bool) : Lin :=
  if l.state = 0 || 4 < l.state.toNat then l
  else if c.linRole then
    let t := l.clocks + 1
    let past := fun (bits : Nat) => bits * c.divisor.toNat ≤ 16 * t
    { l with clocks := t,
             state := if past (c.breakBits + c.delimBits + 10) then 4
                      else if past (c.breakBits + c.delimBits) then 3 else if past c.breakBits then 2 else 1 }
  else if moves && l.state.toNat < 4 then { l with state := l.state + 1 } else l

end Sys2Proof.Machine
end

