-- ==== Sys2Proof/Machine/HoldOps.lean ====
section
/-!
DEFINITION. Hold: entry (R292, R313), the drain of a forced Hold and its POWER_ABORT (R297, R316), the wake (R298), and
Dormant entry (R296).
-/

namespace Sys2Proof.Machine

/-! ## Hold -/

/-- Every station off: what its memory and its registers held is gone, and each starts with undefined contents (R292,
R298). -/
def State.freshStations (s : State) : State :=
  let k := s.stamp
  { s with stamp := k + 216 }.modMain fun m => { m with stations := Vector.ofFn fun n => Station.fresh (k + 9 * n.val) }

/-- What the NAND PHYs lose: an operation whose results were ignored is forgotten; at the wake the controller resets and sets up every
present target before it serves any request (R292; chapter 10, Collisions). -/
def State.nandOff (s : State) : State :=
  s.modNfc fun n => { n with luns := Vector.ofFn fun u =>
    { n.luns[u] with cur := none, resetPend := n.present.getLsbD u.val && u.val / 4 % 2 == 0, resetFor := none, resetWait := false,
                     setup := true } }

/-- The device enters Hold (R292, R313): the held pads are captured, the UARTs stop (R325), stations and PHYs are off, and the link ports are
down (R270, R315). -/
def State.enterHold (s : State) : State :=
  let s := (s.serialHold.modAon fun a => a.capture s.stamp).modPwr fun p =>
    { p with state := .hold, notice := false, wakeCause := false }
  ((s.freshStations.nandOff).portDown 0 0).portDown 1 0

/-- The wake from Hold (R298): enabled ports train, stations start undefined, jobs may start. -/
def State.wakeHold (s : State) : State :=
  let s := s.cancelNotice.freshStations
  let s := s.modPwr fun p => { p with state := .run, wakeCause := false }
  let s := s.modLink fun l =>
    { l with ports := Vector.ofFn fun p => if l.ports[p].enable then l.ports[p].train else l.ports[p] }
  (s.powerEvent 0x01).pumpNand.chanStreams.chansSettle

/-- A wake event of Hold that is no doorbell (R295, R297); outside Hold, what a forced Hold held back begins. -/
def State.forceEnds (s : State) : State :=
  if s.main.pwr.forcing then s
  else if s.main.pwr.state == .hold then (s.modPwr fun p => { p with wakeCause := true }).cancelNotice
  else s.pumpNand.chanStreams.chansSettle

/-! ## The drain (R316) -/

/-- Whether a device address lies in a domain that a forced Hold powers down: station memory, and under D3hot the host window
(R292, R316). -/
def State.downAddr (s : State) (a : Nat) : Bool :=
  if inHostWindow a then s.main.pwr.d3hot else 0x100000000 ≤ a

/-- Whether a job is at work on a domain that is powered down: a program, array work, NAND_IO, or a parcel read or a report that lies
there. -/
def State.draining (s : State) (j : Job) : Bool :=
  (j.phase == .started || j.phase == .running) &&
    (j.cmd == 1 || j.cmd == 2 || j.cmd == 3 || (j.cmd == 9 && s.downAddr j.spSource) || (j.cmd == 8 && s.downAddr (j.le 48 5)))

/-- Whether a running chain's transfer touches a domain that is powered down: NAND, a peer, or an address in such a domain. -/
def State.chanDrains (s : State) (ch : Fin 16) : Bool :=
  let x := s.chan ch
  x.state == .running &&
    match x.cur with
    | none => s.downAddr x.descAddr.toNat
    | some a =>
      a.kind == 4 || a.srcPeer.isSome || a.dstPeer.isSome || s.downAddr a.src || s.downAddr a.dst ||
        ((a.kind == 2 || a.kind == 3) && s.downAddr a.index)

/-- Whether work that R316 names is left: jobs, chains, NAND operations, array programming. -/
def State.workLeft (s : State) : Bool :=
  (List.finRange 16).any (fun q => (s.job q).any s.draining) || (List.finRange 16).any s.chanDrains ||
    (List.finRange 32).any (fun u => !(s.lun u).queue.isEmpty || (s.lun u).cur.any fun c => !c.ignored) || s.progBusy

/-- Whether a job has ended whose record could be formed and has not been. -/
def State.recordLeft (s : State) : Bool :=
  (List.finRange 16).any fun q => (s.job q).any fun j => j.phase == .ended && !j.doomed && (s.ctx j.ctx).room

/-- Whether a forced Hold may look at the device's work: no context reset runs (chapter 14, Collisions). -/
def State.mayDrain (s : State) : Bool :=
  s.serving && s.main.pwr.forcing && s.main.pwr.state != .hold && s.main.resetOrder.isEmpty

/-- The device enters the forced Hold once it has drained (R297). -/
def State.forcedHold (s : State) : State := if s.workLeft || s.recordLeft then s else s.enterHold

/-- One job ended by the drain's bound (R316). A program's stations stop; a program that faulted keeps its fault's status
(R119). -/
def State.abortJob (s : State) (q : Fin 16) : State :=
  match s.job q with
  | none => s
  | some j =>
    if !s.draining j || j.doomed then s
    else if j.cmd = 1 && j.phase == .running then
      (if j.faulted then s
       else s.modJob q fun j => { j with status := stPowerAbort, detail := j.stations.setWidth 32, faulted := true }).stopJob q j.order
    else if j.cmd = 1 then
      (s.modMain fun m => { m with stations := Vector.ofFn fun n =>
        if m.stations[n].claim = some q then { m.stations[n] with claim := none } else m.stations[n] }).setEnd q stPowerAbort
        (j.stationMask.setWidth 32)
    else if j.cmd = 3 && j.phase == .running then s
    else
      let mine := fun (w : SigWork) => w == .attest q j.order
      (s.modIdk fun i => { i with sigQueue := i.sigQueue.filter fun w => !mine w, sigBusy := i.sigBusy.filter fun w => !mine w }).setEnd q
        stPowerAbort 0

/-- One chain ended by the bound (R246, R316). -/
def State.abortChain (s : State) (ch : Fin 16) : State :=
  if s.chanDrains ch then
    s.chanHalt ch stPowerAbort (haltDetail ch 4 (s.chan ch).starter.station 0) none
  else s

/-- The operations of one LUN ended by the bound (R213, R217, R316). -/
def State.abortLun (s : State) (u : Fin 32) : State :=
  let l := s.lun u
  let outcome := fun (o : NandOp) => some (stPowerAbort, nandDetail u.val (nandClass o.kind) (s.main.nfc.opRow o))
  let s := match l.cur with
    | some c =>
      if c.ignored then s
      else
        let s := if c.op.writes then c.ops.foldl (fun (s : State) o => (s.suspect u o stPowerAbort).spoil u.val o) s else s
        c.ops.foldl (fun s o => s.opEnded o (outcome o)) (s.modLun u fun l => { l with cur := none })
    | none => s
  l.queue.foldl (fun s o => s.opEnded o (outcome o)) (s.modLun u fun l => { l with queue := [] })

/-- What a stream had not queued yet fails with it. -/
def NandStream.abort (t : NandStream) (n : Nfc) : NandStream :=
  if t.next < t.count then
    let o := t.opAt n
    let u := t.lunAt t.next
    { t.note ⟨t.next, stPowerAbort, nandDetail u.val (nandClass t.kind) (n.opRow o)⟩ with next := t.count }
  else t

/-- Every NAND operation ended by the bound. -/
def State.abortNand (s : State) : State :=
  ((List.finRange 32).foldl State.abortLun (s.modNfc fun n => { n with streams := n.streams.map fun t => t.abort n })).pumpNand

/-- Array programming ended by the bound (R316). -/
def State.abortProgs (s : State) : State :=
  ((List.finRange 4).foldl (fun s k =>
    match s.main.progs[k] with
    | some w => (if w.programming then s.modNv w.station w.array fun v => { v with state := 0 } else s).setProg k none
    | none => s) s).modMain fun m => { m with progWait := [] }

/-- DRAIN_ABORT (R316): the unfinished work ends with POWER_ABORT, records are formed, and the device enters Hold as soon as
instructions that have issued are done (R116). -/
def State.drainAbort (s : State) : State :=
  let any := s.workLeft
  let s := (List.finRange 16).foldl State.abortJob s
  let s := ((List.finRange 16).foldl State.abortChain s).abortNand.abortProgs.settleAll
  let s := (List.finRange 16).foldl State.jobEnd s
  (if any then s.powerEvent 0x08 else s).forcedHold

/-! ## Dormant (R296, R347) -/

/-- The main domain powers down into Dormant. -/
def State.enterDormant (s : State) : State :=
  let s := (s.fbEntry 0 0x060 0).cutWork
  { s with aon := { (s.aon.capture s.stamp) with pwrEn := false }, phase := .dormant }.freshMain

end Sys2Proof.Machine
end

