-- ==== Sys2Proof/Machine/Power.lean ====
section
/-!
DEFINITION. The commands of clocks and power states: the station divider (R28 to R33), the idle states (R292 to R299),
forced Hold (R297, R316), Dormant (R296), and the pad-hold latches (R313, R314).
-/

namespace Sys2Proof.Machine

/-! ## The station divider -/

/-- The minimum VCORE of a divider, in units of 5 mV (R28). -/
def minVcore (div : BitVec 2) : Nat := [160, 140, 124, 110].getD div.toNat 110

/-- PWR_CLK_CTRL (R29, R32): the request is refused below the divider's minimum VCORE, and otherwise pending. -/
def State.writeDiv (s : State) (div : BitVec 2) : State :=
  s.modPwr fun p =>
    if p.vcoreMv.toNat < minVcore div then { p with refused := true }
    else { p with div := div, switching := true, vcoreForce := false }

/-- PWR_CLK_CTRL (R29), with the VCORE that the monitor measures. -/
def execPwrClkCtrl (div : BitVec 2) (vcore : BitVec 8) (s : State) : Host.Outcome State Fault Refusal :=
  .next <| s.when s.running fun s => (s.modPwr fun p => { p with vcoreMv := vcore }).writeDiv div

/-- Whether an array conversion runs on any station (R30). -/
def State.converting (s : State) : Bool := (List.finRange 24).any fun n => (s.station n).arrQ.any fun i => !i.convs.isEmpty

/-- DIVIDER_SWITCH (R30, R31): running conversions have ended; the divider of R31 takes effect. -/
def execDividerSwitch (s : State) : Host.Outcome State Fault Refusal :=
  .next <| s.when (s.running && s.main.pwr.switching && !s.converting) fun s => s.modPwr fun p =>
    { p with effDiv := p.target, switching := false }

/-- VCORE_FORCE (R31, R32, R354): VCORE is more than 20 mV below the minimum of the active divider. -/
def execVcoreForce (vcore : BitVec 8) (s : State) : Host.Outcome State Fault Refusal :=
  .next <| s.when s.running fun s =>
    let s := s.modPwr fun p => { p with vcoreMv := vcore }
    if vcore.toNat + 4 < minVcore s.main.pwr.effDiv then
      (s.fbEntry 0 0x003 (BitVec.ofNat 64 (vcore.toNat + 256 * s.main.pwr.effDiv.toNat))).modPwr fun p =>
        { p with vcoreForce := true }.retarget
    else s

/-! ## Trim and Hold (R293 to R299) -/

/-- TRIM_ENTRY (R294, R295). -/
def execTrimEntry (s : State) : Host.Outcome State Fault Refusal :=
  .next <| s.when (s.running && s.main.pwr.state == .run && s.trimIdle && s.main.pwr.idleTrim != 0) fun s =>
    s.modPwr fun p => { p with state := .trim }

/-- HOLD_ENTRY (R294, R295). -/
def execHoldEntry (s : State) : Host.Outcome State Fault Refusal :=
  .next <| s.when (s.main.pwr.state != .hold && s.holdIdle && s.main.pwr.idleHold != 0) State.enterHold

/-- FORCED_HOLD (R297): running work has drained. -/
def execForcedHold (s : State) : Host.Outcome State Fault Refusal := .next (s.when s.mayDrain State.forcedHold)

/-- PWR_FORCE (R297): ignored while OUT_OF_SERVICE; the end of a forced Hold wakes the device. -/
def State.writeForce (s : State) (hold : Bool) : State :=
  if s.main.glb.outOfService || s.main.pwr.force = hold then s
  else (s.modPwr fun p => { p with force := hold }).forceEnds

/-- PWR_FORCE.HOLD = 1 (R297). -/
def execPwrForceHoldSet (s : State) : Host.Outcome State Fault Refusal := .next (s.when s.running fun s => s.writeForce true)
/-- PWR_FORCE.HOLD = 0 (R297). -/
def execPwrForceHoldClear (s : State) : Host.Outcome State Fault Refusal := .next (s.when s.running fun s => s.writeForce false)

/-- DRAIN_ABORT (R316). -/
def execDrainAbort (s : State) : Host.Outcome State Fault Refusal := .next (s.when s.mayDrain State.drainAbort)

/-- HOLD_WAKE (R298): a wake event in a Hold that is not forced. -/
def execHoldWake (s : State) : Host.Outcome State Fault Refusal :=
  .next <| s.when (s.serving && s.main.pwr.state == .hold && !s.main.pwr.forcing) State.wakeHold

/-- D3HOT (R297). -/
def execD3hot (s : State) : Host.Outcome State Fault Refusal :=
  .next <| s.when s.running fun s => s.modPwr fun p => { p with d3hot := true }

/-- RETURN_TO_D0 (R297, R316): records that D3hot held back are written, and a D3hot Hold ends. -/
def execReturnToD0 (s : State) : Host.Outcome State Fault Refusal :=
  .next <| s.when (s.running && s.main.pwr.d3hot) fun s =>
    ((List.finRange 16).foldl State.drainHeld (s.modPwr fun p => { p with d3hot := false })).forceEnds

/-! ## Dormant (R296) -/

/-- DORMANT_NOTICE (R294, R296): the Dormant timer has expired in Hold. -/
def execDormantNotice (s : State) : Host.Outcome State Fault Refusal :=
  .next <| s.when (s.dormantIdle && s.main.pwr.state == .hold && s.main.pwr.idleDormant != 0 && !s.main.pwr.notice &&
      !s.main.pwr.wakeCause) fun s => (s.modPwr fun p => { p with notice := true }).powerEvent 0x02

/-- A write of 1 to DORMANT_NOTICE: the flag is cleared and entry is cancelled (R296). -/
def State.noticeWrite (s : State) : State := (s.modPwr fun p => { p with evt := p.evt &&& 0x1D }).cancelNotice

/-- DORMANT_NOTICE_CANCEL (R296). -/
def execDormantNoticeCancel (s : State) : Host.Outcome State Fault Refusal := .next (s.when s.running State.noticeWrite)

/-- DORMANT_ENTRY (R296): the notice has ended; the device powers down, unless entry is cancelled. -/
def execDormantEntry (s : State) : Host.Outcome State Fault Refusal :=
  .next <| s.when s.main.pwr.notice fun s =>
    if s.dormantIdle && !s.main.pwr.wakeCause then s.enterDormant else s.cancelNotice

/-! ## Pads (R313, R314) -/

/-- The pad-hold latches released: each held ball is its block's again (R314). -/
def State.releasePads (s : State) : State := s.modAon fun a => { a with padHeld := false, padZ := false }

/-- PWR_PAD_RELEASE (R314). -/
def execPwrPadRelease (go : Bool) (s : State) : Host.Outcome State Fault Refusal :=
  .next (s.when (s.running && go) State.releasePads)

/-- PCIE_LINK_L0 (R302): a link that trains reaches L0, and WAKE_OUT_N is released. -/
def execPcieLinkL0 (s : State) : Host.Outcome State Fault Refusal :=
  .next ((s.when (s.main.pcie.link == .training) fun s => s.setLink .up).modAon fun a => { a with wakeOut := false })

/-- WAKE_OUT_N_TIMEOUT (R302): 100 ms have passed, and WAKE_OUT_N is released. -/
def execWakeOutNTimeout (s : State) : Host.Outcome State Fault Refusal := .next (s.modAon fun a => { a with wakeOut := false })

end Sys2Proof.Machine
end

