-- ==== Sys2Proof/Machine/Boot.lean ====
section
/-!
DEFINITION. The commands of resets and boot (chapter 2; R300 to R303, R309, R369, R381): each reset kind, the straps, the
root PLL, the boot image over PCI Express, and the firmware's start.
-/

namespace Sys2Proof.Machine

/-! ## Resets -/

/-- COLD (R34, R35): the AON domain itself resets; the straps are to be latched again. -/
def execCold (s : State) : Host.Outcome State Fault Refusal := .next { s.deviceReset .cold with phase := .strapWait }

/-- BOR_LP (R34, R305): the AON regulator is overloaded in low-power mode, which is used in Dormant only. -/
def execBorLp (s : State) : Host.Outcome State Fault Refusal :=
  .next <| s.when (s.phase == .dormant) fun s => { s.deviceReset .borLp with phase := .strapWait }

/-- BOR_VSYS (R309): the main domain is reset and powered down. A dip before the straps latch only delays them (R374). -/
def execBorVsys (s : State) : Host.Outcome State Fault Refusal :=
  .next <| s.when (s.phase != .borHeld && s.phase != .strapWait) fun s =>
    let s := s.deviceReset .borVsys
    { s with phase := .borHeld, aon := { s.aon with pwrEn := false, wakeOut := false, supplyTries := 0 } }

/-- BOR_VSYS_RELEASE (R300, R309). -/
def execBorVsysRelease (boot : BootInputs) (s : State) : Host.Outcome State Fault Refusal :=
  .next (s.when (s.phase == .borHeld) fun s => s.wakeSequence boot)

/-- STRAP_LATCH (R37, R300): the straps are latched, and the wake sequence begins. -/
def execStrapLatch (straps : BitVec 7) (boot : BootInputs) (s : State) : Host.Outcome State Fault Refusal :=
  .next <| s.when (s.phase == .strapWait) fun s =>
    (s.modAon fun a => { a with bootSel := straps.extractLsb' 0 2, linkId := Fin.ofNat 8 (field straps 4 2),
                                mgtAddr := straps.extractLsb' 5 2 }).wakeSequence boot

/-- SUPPLY_RETRY (R301): PWR_EN_OUT has been low for 10 ms. -/
def execSupplyRetry (boot : BootInputs) (s : State) : Host.Outcome State Fault Refusal :=
  .next (s.when (s.phase == .supplyWait) fun s => s.wakeSequence boot)

/-- DORMANT_WAKE (R34, R300, R335, R340): the matcher knows the port's own address only. -/
def execDormantWake (w : BusWake) (s : State) : Host.Outcome State Fault Refusal :=
  .next (s.when (s.phase == .dormant && w.bus == s.aon.mgtBus) fun s => (s.deviceReset .dormantWake).wakeSequence w.boot)

/-- Whether the main domain is held for a reset under way, before its boot ROM has started, so that PERST_N is a further cause
(R34). -/
def Phase.held : Phase → Bool
  | .strapWait | .borHeld | .supplyWait | .pllWait | .dftHeld => true
  | _ => false

/-- Whether the main domain is powered and out of reset, or stopped for want of its PLL, so that PERST_N resets it (R26,
R303). -/
def Phase.restarts : Phase → Bool
  | .bootPcie | .bootFw | .bootFailed | .serving | .pllNever | .pllLost => true
  | _ => false

/-- PERST (R34, R36, R381): no effect in Dormant; before the boot ROM starts it is a further cause of the reset under way and holds
the ROM back. -/
def execPerst (s : State) : Host.Outcome State Fault Refusal :=
  .next <|
    if s.perstLow then s
    else if s.phase.restarts then { s.deviceReset .perst with perstLow := true, phase := .inReset }
    else if s.phase.held then { s with perstLow := true, aon := s.aon.alsoCause .perst }
    else { s with perstLow := true }

/-- PERST_N_RELEASE (R303, R381): the boot ROM starts; a PLL that had stopped must lock again (R26). -/
def execPerstNRelease (boot : BootInputs) (s : State) : Host.Outcome State Fault Refusal :=
  .next <|
    let s := { s with perstLow := false }
    if s.phase == .inReset then (if boot.pllOk then s.startMain boot else { s with phase := .pllWait }) else s

/-- FLR (R36, R268): ABORT is sent for every bound job; the main domain resets once no NAND program or erase is in
flight. -/
def execFlr (boot : BootInputs) (s : State) : Host.Outcome State Fault Refusal :=
  .next <| s.when (s.running && s.flrWait.isNone) fun s =>
    let s := if s.stationsOn then (List.finRange 8).foldl (fun s c =>
        if (s.bound c).valid then s.sendAbort (s.bound c).job [0, 1] else s) s else s
    { s with flrWait := some boot }.flrCheck

/-- FLR_NAND_WAIT (R36): the wait reaches its bound; what is still in flight is given up, and the main domain resets. -/
def execFlrNandWait (s : State) : Host.Outcome State Fault Refusal :=
  .next <| match s.flrWait with
    | none => s
    | some _ =>
      ((List.finRange 32).foldl (fun s u => if (s.lun u).writing then s.giveUp u stTimeoutNand else s) s).flrCheck

/-- DFT_EN (R369): the main domain is held in reset. -/
def execDftEn (s : State) : Host.Outcome State Fault Refusal :=
  .next <|
    let s := { s with dftHigh := true }
    match s.phase with
    | .bootPcie | .bootFw | .bootFailed | .serving | .inReset =>
      let s := s.cutWork
      { s with phase := .dftHeld, aon := { (s.aon.capture s.stamp) with faultN := s.aon.faultN && s.aon.bootBad } }.freshMain
    | _ => s

/-- DFT_EN_LOW (R369). -/
def execDftEnLow (boot : BootInputs) (s : State) : Host.Outcome State Fault Refusal :=
  .next <|
    let s := { s with dftHigh := false }
    if s.phase == .dftHeld then s.startMain boot else s

/-! ## The root PLL (R26) -/

/-- PLL_UNLOCK (R26): every clock of the main domain stops. -/
def execPllUnlock (s : State) : Host.Outcome State Fault Refusal :=
  .next <| s.when (s.running || s.phase == .inReset || s.phase == .dftHeld) fun s =>
    (({ s with phase := .pllLost }.setLink .down).assertFault.fbEntry 0 0x002 1).flush 0x002

/-- PLL_NO_LOCK (R26): the PLL has not locked within 200 us; BOOT_FAIL follows in the field book. -/
def execPllNoLock (s : State) : Host.Outcome State Fault Refusal :=
  .next <| s.when (s.phase == .pllWait) fun s =>
    (((({ s with phase := .pllNever }.setLink .down).modAon fun a => { a with bootBad := true }).assertFault.fbEntry 0 0x002
      0).fbEntry 0 0x010 0x0800).flush 0x002

/-! ## Boot images and the firmware (R39, R40, R344) -/

/-- The outcome of a PCI Express image (R39). -/
def State.imageOutcome (s : State) (len : Nat) (reply : HostReply) : BitVec 4 :=
  if !imageLenOk len then 4
  else match reply with
    | .busError => 6
    | .data bs =>
      let img := padTo len bs
      if !imageHeaderOk len img then 4 else if s.imageSigned len img then 1 else 3

/-- GLB_BOOT_GO (R38, R39, R345): at any stage but "wait for PCI Express image" it is ignored. -/
def State.bootGo (s : State) (reply : HostReply) : State :=
  if s.phase == .bootPcie then
    let len := s.main.glb.bootLen.toNat
    let o := s.imageOutcome len reply
    let s := s.modGlb fun g => { g with bootLog := (g.bootLog &&& 0x0FFFF) ||| BitVec.ofNat 20 (65536 * o.toNat) }
    match reply with
    | .data bs =>
      if o = 1 then s.handOver (padTo len bs)
      else s.modGlb fun g => { g with bootErr := 6 }
    | .busError => s.modGlb fun g => { g with bootErr := 6 }
  else s

/-- GLB_BOOT_GO (R39), with what the host's memory answers. -/
def execGlbBootGo (reply : HostReply) (s : State) : Host.Outcome State Fault Refusal := .next (s.bootGo reply)

/-- FIRMWARE_START (R40). -/
def execFirmwareStart (found : Discovery) (s : State) : Host.Outcome State Fault Refusal :=
  .next (s.when (s.phase == .bootFw) fun s => s.firmwareStart found)

/-- FW_START_TIMEOUT (R40, R41). -/
def execFwStartTimeout (s : State) : Host.Outcome State Fault Refusal :=
  .next (s.when (s.phase == .bootFw) fun s => s.bootFail 6 0x07)

end Sys2Proof.Machine
end

