-- ==== Sys2Proof/Machine/Supply.lean ====
section
/-!
DEFINITION. The commands of the supply monitor (R306, R307), the charge counter (R311, R312) and the field book (R355,
R356).
-/

namespace Sys2Proof.Machine

/-! ## VSYS warning (R307) -/

/-- The warning level in mV (R306, PWR_VSYS_WARN). -/
def Aon.warnLevel (a : Aon) : Nat := 2900 + 50 * a.vsysWarn.toNat

/-- Whether the warning comparator runs (R306, R310): the AON domain works and the device is neither in Dormant nor below the reset level. -/
def Phase.compares : Phase → Bool
  | .strapWait | .borHeld | .dormant => false
  | _ => true

/-- SUPPLY_WARN (R306, R307, R310, R354): VSYS falls below the warning level, in a reset or a boot too. During the hold-off a new flush
starts only where none runs. -/
def execSupplyWarn (vsys : BitVec 13) (s : State) : Host.Outcome State Fault Refusal :=
  .next <| s.when (s.phase.compares && !s.aon.warn && vsys.toNat < s.aon.warnLevel) fun s =>
    let again := s.aon.holdoff
    let s := s.modAon fun a => { a with warn := true, dip := true, holdoff := false }
    let s := (s.modSup fun x => { x with vsys := vsys }).raiseIf s.main.pwr.supEn 41
    let s := s.fbEntry 0 0x020 (BitVec.ofNat 64 (vsys.toNat + 65536 * s.aon.vsysWarn.toNat))
    let s := if again && s.aon.flushing.isSome then s else s.flush 0x020
    (s.modPwr fun p => { p with dipForce := true }.retarget).noticeCheck

/-- WARNING_RECOVERY (R306, R307): VSYS rises above the recovery level, 50 mV above the warning level. -/
def execWarningRecovery (vsys : BitVec 13) (s : State) : Host.Outcome State Fault Refusal :=
  .next <| s.when (s.phase.compares && s.aon.warn && s.aon.warnLevel + 50 < vsys.toNat) fun s =>
    (s.modAon fun a => { a with warn := false, holdoff := true }).modSup fun x => { x with vsys := vsys }

/-- HOLDOFF_END (R31, R307). -/
def execHoldoffEnd (s : State) : Host.Outcome State Fault Refusal :=
  .next <| s.when s.aon.holdoff fun s =>
    (s.modAon fun a => { a with holdoff := false }).modPwr fun p => { p with dipForce := false }.retarget

/-! ## The charge counter (R311, R312) -/

/-- SUP_CHARGE takes a value; a fall from above the empty level to it or below is noted (R312). -/
def State.setCharge (s : State) (v : BitVec 64) : State :=
  let x := s.main.sup
  let s := s.modSup fun x => { x with charge := v }
  if x.emptyLevel.toInt < x.charge.toInt && v.toInt ≤ x.emptyLevel.toInt then
    (s.modSup fun x => { x with chargeEmpty := true, capCharge := v, capVsys := x.vsys, capTime := s.time }).raiseIf x.irqEn 42
  else s

/-- A sample clamped to 16 bits (R311). -/
def clampSense (x : Int) : Int := if x < -32768 then -32768 else if 32767 < x then 32767 else x

/-- CHARGE_SAMPLE (R311). -/
def execChargeSample (sense : Int) (vsys : BitVec 13) (s : State) : Host.Outcome State Fault Refusal :=
  .next <| s.when (s.running && s.main.sup.en) fun s =>
    let c := clampSense sense
    let s := s.modSup fun x => { x with vsys := vsys, sense := BitVec.ofInt 16 c, adcSat := x.adcSat || c != sense }
    s.setCharge (s.main.sup.charge - BitVec.ofInt 64 c)

/-- SUP_CHARGE (R7, R311): only a 64-bit write sets it. -/
def State.writeCharge (s : State) (w : W64) : State :=
  match w with
  | .both v => s.setCharge v
  | _ => s

/-- SUP_CHARGE (R311). -/
def execSupCharge (w : W64) (s : State) : Host.Outcome State Fault Refusal := .next (s.when s.serving fun s => s.writeCharge w)

/-! ## The field book (R308, R355, R356) -/

/-- FIELD_BOOK_FLUSH_END (R356): the slot holds the entries, and DONE; a pending flush starts. -/
def execFieldBookFlushEnd (s : State) : Host.Outcome State Fault Refusal :=
  .next <| match s.aon.flushing with
    | none => s
    | some f =>
      let t := { s with slots := s.slots.set f.slot f.bytes,
                        aon := { s.aon with flushing := none, flushPend := none, seq := f.seq, lastSlot := f.slot } }
      match s.aon.flushPend with
      | some k => t.flushStart k
      | none => t

/-- FBK_FLUSH (R356). -/
def execFbkFlush (s : State) : Host.Outcome State Fault Refusal :=
  .next (s.when s.serving fun s => (s.flush 0x0FF).noticeCheck)

/-- FBK_DRV_LOG (R355): the staged data is committed and one entry is written with it. -/
def State.driverLog (s : State) (code : BitVec 8) : State :=
  let s := s.modMain fun m => { m with fbkDrv := m.fbkDrv.commit.activate }
  s.fbEntry 7 (0xE00 + code.toNat) s.main.fbkDrv.active

/-- FBK_DRV_LOG (R355). -/
def execFbkDrvLog (code : BitVec 8) (s : State) : Host.Outcome State Fault Refusal :=
  .next (s.when s.serving fun s => s.driverLog code)

end Sys2Proof.Machine
end

