-- ==== Sys2Proof/Machine/Identity.lean ====
section
/-!
DEFINITION. The commands of the identity block: the product maker's key (R346 to R348) and verify requests (R349, R352).
-/

namespace Sys2Proof.Machine

/-- The bytes of a public key as the registers hold it (R343, R346). -/
def keyBytes (k : BitVec 512) : List Byte := toBytes k 64

/-- IDK_PMK_BURN (R346): the burn of the active key's hash starts, or is refused. -/
def State.burn (s : State) (v : BitVec 32) : State :=
  let i := s.main.idk
  if s.otp.pmkState != 0 || i.pmkKey.active == 0 || i.burnBusy || v != 0x00005A5A then
    s.modIdk fun i => { i with burnRefused := true }
  else s.modIdk fun i => { i with burnBusy := true, burnHash := word 256 (sha256 (keyBytes i.pmkKey.active)) }

/-- IDK_PMK_BURN (R346). -/
def execIdkPmkBurn (v : BitVec 32) (s : State) : Host.Outcome State Fault Refusal := .next (s.when s.serving fun s => s.burn v)

/-- PMK_BURN_END (R346, R354): PMK_HASH holds the hash of the key that was active when the burn began, its valid bit last. -/
def execPmkBurnEnd (s : State) : Host.Outcome State Fault Refusal :=
  .next <| s.when (s.serving && s.main.idk.burnBusy) fun s =>
    ({ s with otp := { s.otp with pmkHash := s.main.idk.burnHash, pmkState := 1 } }.modIdk
      fun i => { i with burnBusy := false }).fbEntry 6 0x071 1

/-- Whether a region-table copy's signature verifies with the maker's key (R221, R348). -/
def tableSigned (key : BitVec 512) (t : List Byte) : Bool :=
  let k := keyBytes key
  ecdsaVerify (leAt k 0 32) (leAt k 32 32) (leAt t 4032 32) (leAt t 4064 32) (sha256 (padTo 4032 t))

/-- RT_STAT and IDK_RT_HASH of a commit (R348): the copy chosen at start-up, then the other one, where it was readable. The bytes are
those read at start-up, not the pages as they are now: the spec leaves that open, the model's choice (log entry 78). -/
def State.tableOutcome (s : State) (key : BitVec 512) (loaded : Bool) : BitVec 3 × BitVec 256 :=
  let n := s.main.nfc
  let chosen := if n.rtChosen then n.rt1 else n.rt0
  let other := if n.rtChosen then n.rt0 else n.rt1
  let hash := fun t => word 256 (sha256 (padTo 4096 t))
  if !loaded then (4, s.main.idk.rtHash)
  else if n.rtBad then (3, s.main.idk.rtHash)
  else match chosen with
    | none => (3, s.main.idk.rtHash)
    | some t =>
      if tableSigned key t then (1, hash t)
      else match other with
        | some u => if tableSigned key u then (1, hash u) else (2, hash t)
        | none => (2, hash t)

/-- IDK_COMMIT (R346, R348): the key is active at once, and is checked. -/
def State.commitKey (s : State) : State :=
  let s := s.modIdk fun i => { i with pmkKey := i.pmkKey.commit.activate }
  let key := s.main.idk.pmkKey.active
  let ok := s.otp.pmkState == 1 && word 256 (sha256 (keyBytes key)) == s.otp.pmkHash
  let r := s.tableOutcome key ok
  (s.modIdk fun i => { i with keyLoaded := ok, keyBad := i.keyBad || !ok, rtStat := r.1, rtHash := r.2 }).fbEntry 6 0x070
    (r.1.setWidth 64)

/-- IDK_COMMIT (R348). -/
def execIdkCommit (s : State) : Host.Outcome State Fault Refusal := .next (s.when s.serving State.commitKey)

/-- IDK_VFY_GO (R349, R352): the request joins the signature engine's queue with the key as it is now; while one is busy it is
refused. -/
def State.verifyGo (s : State) : State :=
  s.modIdk fun i =>
    if i.vfyBusy then { i with vfyRefused := true }
    else
      { i with vfyBusy := true,
               sigQueue := i.sigQueue ++ [.verify ((i.vfyReq &&& 0xFFFFFFFFC0).setWidth 40) i.pmkKey.active i.keyLoaded] }

/-- IDK_VFY_GO (R349). -/
def execIdkVfyGo (s : State) : Host.Outcome State Fault Refusal := .next (s.when s.serving State.verifyGo)

/-- n bytes that the identity block reads: of shared memory, or what the host answered; none where the read fails. -/
def State.idkRead (s : State) (a n : Nat) (reply : HostReply) : Option (List Byte) :=
  match s.place a n, reply with
  | some (.shm k), _ => some (s.main.shm.mem.readBytes k n)
  | some (.host _), .data bs => some (padTo n bs)
  | _, _ => none

/-- Bytes that the identity block writes: to shared memory or the host window, nowhere else. -/
def State.idkWrite (s : State) (a : Nat) (bs : List Byte) : State :=
  match s.place a bs.length with
  | some (.st _ _) => s
  | _ => s.devWrite a bs

/-- What a verify request writes back (R349): DIGEST, STATUS and REASON. Where a read fails, DIGEST and REASON are left open. -/
def State.verifyResult (s : State) (key : BitVec 512) (loaded : Bool) (r : List Byte) (img : HostReply) : List Byte :=
  match s.idkRead (leAt r 0 5) (leAt r 8 4) img with
  | none => (List.range 32).map (Config.freeByte s.stamp) ++ toBytes stBusError 2 ++ [Config.freeByte s.stamp 32]
  | some bs =>
    let h := sha256 bs
    let k := keyBytes key
    let good := loaded && ecdsaVerify (leAt k 0 32) (leAt k 32 32) (leAt r 16 32) (leAt r 48 32) h
    h ++ toBytes (if good then stOk else stSignatureFail) 2 ++ [if loaded then 0 else 1]

/-- VERIFY_END (R349): the request and its image are read and checked, and the outcome is written back. -/
def execVerifyEnd (req img : HostReply) (s : State) : Host.Outcome State Fault Refusal :=
  .next <| match s.main.idk.sigBusy with
    | some (.verify a key loaded) =>
      s.when s.serving fun s =>
        let out := match s.idkRead a.toNat 128 req with
          | some r => s.verifyResult key loaded r img
          | none => (List.range 32).map (Config.freeByte s.stamp) ++ toBytes stBusError 2 ++ [Config.freeByte s.stamp 32]
        ((s.idkWrite (a.toNat + 80) out).nextStamp).modIdk fun i => { i with vfyBusy := false, sigBusy := none }
    | _ => s

end Sys2Proof.Machine
end

