-- ==== Sys2Proof/Machine/Serial.lean ====
section
/-!
DEFINITION. The commands of the two UARTs (R317 to R326) and of LIN frame mode (R327 to R334).
-/

namespace Sys2Proof.Machine

/-! ## The UARTs -/

/-- A byte for the transmit holding register (R321, R327). -/
def State.serialWrite (s : State) (u : Fin 2) (b : BitVec 8) : State :=
  let lost := fun (x : Uart) => { x with txLost := true }
  if s.frameMode u then s.modUart u lost
  else s.modUart u fun x =>
    if !x.cfg.active.txen then x else if x.txHold.isSome then lost x else { x with txHold := some b }

/-- SERN_DATA_WRITE (R321). -/
def execSernDataWrite (u : Fin 2) (b : BitVec 8) (s : State) : Host.Outcome State Fault Refusal :=
  .next (s.when s.serving fun s => s.serialWrite u b)

/-- SERN_DATA_READ (R324, R327): the holding register is returned, RXFULL and every marked flag are cleared. -/
def execSernDataRead (u : Fin 2) (s : State) : Host.Outcome State Fault Refusal :=
  .next <|
    if !s.serving || s.frameMode u then { s with readData := zeros 4 }
    else
      let x := s.main.uarts[u]
      { s with readData := x.rxHold :: zeros 3 }.modUart u fun x =>
        { x with rxFull := false, flags := x.flags &&& ~~~x.marks, marks := 0 }

/-- SERN_STAT_READ (R324): the flags that the read returns are marked. -/
def execSernStatRead (u : Fin 2) (s : State) : Host.Outcome State Fault Refusal :=
  .next <|
    if !s.serving then { s with readData := zeros 4 }
    else { s with readData := toBytes (s.main.uarts[u]).stat 4 }.modUart u fun x => { x with marks := x.marks ||| x.flags }

/-- SERN_COMMIT (R362). -/
def execSernCommit (u : Fin 2) (s : State) : Host.Outcome State Fault Refusal :=
  .next <| s.when s.serving fun s => s.modUart u fun x => { x with cfg := x.cfg.commit }

/-- SER_SET_ACTIVATE (R362): the transmitter is idle and no frame is in progress. -/
def execSerSetActivate (u : Fin 2) (s : State) : Host.Outcome State Fault Refusal :=
  .next <| s.when (s.serving && (s.main.uarts[u]).txShift.isNone && (u == 0 || s.main.lin.state == 0)) fun s =>
    s.modUart u fun x => { x with cfg := x.cfg.activate }

/-- CHARACTER_START (R321): the shifter falls idle, and takes the held byte, unless a committed set waits (R362). -/
def execCharacterStart (u : Fin 2) (s : State) : Host.Outcome State Fault Refusal :=
  .next <| s.when (s.serialOn && !s.frameMode u) fun s => s.modUart u fun x =>
    if x.cfg.pending.isSome then { x with txShift := none } else { x with txShift := x.txHold.map x.charBits, txHold := none }

/-- CHARACTER_RECEIVED (R319, R320, R322): a start bit whose majority is low, after 16 high samples. -/
def execCharacterReceived (u : Fin 2) (c : RxChar) (s : State) : Host.Outcome State Fault Refusal :=
  .next <| s.when (s.serialOn && !s.frameMode u && (s.main.uarts[u]).cfg.active.rxen && startSeen c.start &&
      !sampleValue c.start.samples) fun s => s.modUart u fun x => x.finish c

/-- FALSE_START (R319, R327): a start bit whose majority is high; only NOISE may be set, in frame mode that of the frame. -/
def execFalseStart (u : Fin 2) (start : StartBit) (s : State) : Host.Outcome State Fault Refusal :=
  .next <| s.when (s.serialOn && startSeen start && sampleValue start.samples && samplesNoisy start.samples) fun s =>
    if s.frameMode u then s.modLin fun l => { l with noise := l.noise || l.inFrame }
    else if (s.main.uarts[u]).cfg.active.rxen then s.modUart u fun x => x.setFlags 8
    else s

/-! ## Frames (R331 to R334) -/

/-- The configuration that SER1 works with. -/
def State.lin (s : State) : SerCfg := (s.main.uarts[1]).cfg.active

/-- SER1_LIN_HDR (R331): with GO, a commander begins a frame while STATE is IDLE; a write in any other STATE is discarded and sets
HDR_LOST. No frame begins while a committed set waits (R362). -/
def State.linHeader (s : State) (id : BitVec 6) (go : Bool) : State :=
  if s.main.lin.state != 0 then s.modLin fun l => { l with hdrLost := true }
  else if go && s.lin.linEn && s.lin.linRole && s.stationsOn && (s.main.uarts[1]).cfg.pending.isNone then
    s.modLin fun l => { l with state := 1, id := id, out := s.lin.headerBits id, clocks := 0 }
  else s

/-- SER1_LIN_HDR (R331). -/
def execSer1LinHdr (id : BitVec 6) (go : Bool) (s : State) : Host.Outcome State Fault Refusal :=
  .next (s.when s.serving fun s => s.linHeader id go)

/-- SER1_LIN_WAKE (R334): the pulse lasts 250 to 5,000 us. -/
def State.linWake (s : State) (us : BitVec 13) : State :=
  if s.lin.linEn && s.main.lin.state = 0 && s.stationsOn then
    s.modLin fun l => { l with state := 6, wakeUs := if us.toNat < 250 then 250 else if 5000 < us.toNat then 5000 else us }
  else s

/-- SER1_LIN_WAKE (R334). -/
def execSer1LinWake (us : BitVec 13) (go : Bool) (s : State) : Host.Outcome State Fault Refusal :=
  .next (s.when (s.serving && go) fun s => s.linWake us)

/-- WAKE_PULSE_END (R334). -/
def execWakePulseEnd (s : State) : Host.Outcome State Fault Refusal :=
  .next <| s.when (s.serving && s.main.lin.state == 6) fun s => s.modLin fun l => { l with state := 0 }

/-- Whether SER1 takes part in frames on its line. -/
def State.linOn (s : State) : Bool := s.serialOn && s.lin.linEn

/-- BREAK (R332): a responder's frame in progress ends with ABORTED, and a new one begins. Its identifier is open until the
PID. -/
def execBreakSeen (s : State) : Host.Outcome State Fault Refusal :=
  .next <| s.when (s.linOn && !s.lin.linRole && s.main.lin.state != 6) fun s =>
    let s := s.modLin fun l => if l.inFrame then { l with noise := l.noise || Config.lineNoise s.stamp }.endFrame 9 else l
    if (s.main.uarts[1]).cfg.pending.isSome then s
    else (s.modLin fun l => { l with state := 1, id := (Config.freeByte s.stamp 0).setWidth 6 }).nextStamp

/-- Whether a measured divisor lies within 14 % of the configured one (R332). -/
def adaptOk (divisor d : Nat) : Bool := 100 * d ≤ 114 * divisor && 86 * divisor ≤ 100 * d

/-- A PID accepted (R329, R331): the table entry of the identifier decides what follows; what is published is captured. -/
def Lin.accept (l : Lin) (id : BitVec 6) : Lin :=
  let l := { l with id := id, pidByte := pidOf id, sending := l.buf.getD id.toNat 0, state := 5 }
  if l.dir = 0 then l.endFrame 0 else { l with out := if l.dir = 1 then lineBits l.published else [] }

/-- PID (R329, R331, R332): a commander's own PID is out; a responder checks sync and parity. -/
def execPid (h : LinHeader) (s : State) : Host.Outcome State Fault Refusal :=
  .next <| s.when (s.linOn && s.main.lin.inFrame && s.main.lin.state != 5) fun s => s.modLin fun l =>
    let l := { l with noise := l.noise || h.noise }
    let id : BitVec 6 := h.pid.setWidth 6
    let d := 2 * h.t8.toNat
    if s.lin.linRole then l.accept l.id
    else if s.lin.linAdapt && !adaptOk s.lin.divisor.toNat d then l.endFrame 4
    else if !s.lin.linAdapt && !h.syncOk then l.endFrame 4
    else
      let l := if s.lin.linAdapt then { l with meas := BitVec.ofNat 24 d } else l
      if h.pid = pidOf id then l.accept id else { l with id := id }.endFrame 3

/-- How a response ends (R329, R330, R331, R333). -/
def Lin.response (l : Lin) (commander : Bool) (e : FrameEvent) : Lin :=
  match e with
  | .bitError noise =>
    if commander && (l.state != 5 || l.dir = 1) then { l with noise := l.noise || noise }.endFrame 1 else l
  | .published noise => if l.state = 5 && l.dir = 1 then { l with noise := l.noise || noise }.endFrame 0 else l
  | .received bytes checksum framing noise =>
    if l.state = 5 && l.dir = 2 then
      let l := { l with noise := l.noise || noise }
      let data := padTo l.len bytes
      if framing then l.endFrame 8
      else if checksum != linChecksum l.id l.enhanced l.pidByte data then l.endFrame 2
      else
        let put := fun (old : BitVec 64) => word 64 (data ++ (toBytes old 8).drop l.len)
        { l with buf := upd l.buf (Fin.ofNat 64 l.id.toNat) put }.endFrame 0
    else l

/-- FRAME_END (R334). -/
def execFrameEnd (e : FrameEvent) (s : State) : Host.Outcome State Fault Refusal :=
  .next <| s.when (s.linOn && s.main.lin.inFrame) fun s => s.modLin fun l => l.response s.lin.linRole e

/-- HDR_TIMEOUT (R333). -/
def execHdrTimeout (s : State) : Host.Outcome State Fault Refusal :=
  .next <| s.when (s.linOn && s.main.lin.inFrame && s.main.lin.state != 5) fun s =>
    (s.modLin fun l => { l with noise := l.noise || Config.lineNoise s.stamp }.endFrame 5).nextStamp

/-- NO_RESPONSE (R333): a subscribed response has not finished; some bytes of it may have come. -/
def execNoResponse (r : PartResponse) (s : State) : Host.Outcome State Fault Refusal :=
  .next <| s.when (s.linOn && s.main.lin.state == 5 && s.main.lin.dir == 2 && r.received.val ≤ s.main.lin.len) fun s =>
    s.modLin fun l => { l with noise := l.noise || r.noise }.endFrame (if r.received = 0 then 6 else 7)

/-- WAKE_SEEN (R334). -/
def execWakeSeen (s : State) : Host.Outcome State Fault Refusal :=
  .next <| s.when s.linOn fun s => s.modLin fun l => { l with wakeSeen := true }

end Sys2Proof.Machine
end

