-- ==== Sys2Proof/Machine/Balls.lean ====
section
/-!
DEFINITION. The balls (R46, R313, R314, R326, R366, R368, R370): what each group shows outside. These are views of the state.
-/

namespace Sys2Proof.Machine

/-- What a ball group does (R314, R370). -/
inductive BallState where
  | highZ | driven | held | input | released | low | high | idle | training | active | lowPower
  | port | matcher | oscillating | stopped | sampled | disconnected | ignored
  deriving DecidableEq, Repr

/-- Whether the pads float: the latches were cleared and nothing has been released since (R313, R370). -/
def Aon.floats (a : Aon) : Bool := a.padHeld && a.padZ

/-- GPIO[7:0] and SERn_RX are inputs (R368); held balls keep what was captured. -/
def State.gpioBalls (s : State) : BallState := if s.aon.floats then .highZ else if s.aon.padHeld then .held else .input

/-- The level that the blocks behind SERn_RX see while the latches hold (R326). -/
def State.rxHeld (s : State) (u : Fin 2) : Option Bool := if s.aon.padHeld && !s.aon.padZ then some (s.aon.padRx.getLsbD u.val) else none

/-- What UART u's transmitter puts out, in the order of the line (R317, R328, R334): the character or the frame being sent, a wake pulse,
or the idle level. -/
def State.txLine (s : State) (u : Fin 2) : List Bool :=
  if s.frameMode u then
    (if s.main.lin.state = 6 then [false] else if s.main.lin.out.isEmpty then [true] else s.main.lin.out)
  else ((s.main.uarts[u]).txShift).getD [true]

/-- SERn_TX (R313, R314, R326): floating, held high, or what the transmitter puts out. -/
def State.txBall (s : State) (u : Fin 2) : Option (List Bool) :=
  if s.aon.floats then none else if s.aon.padHeld then some [true] else some (s.txLine u)

/-- FAULT_N (R41, R46, R313): open-drain; low where the AON domain asserts it, or where it was captured low. -/
def Aon.faultBall (a : Aon) : BallState := if a.faultN || (a.padHeld && !a.padZ && a.padFault) then .low else .released
/-- WAKE_OUT_N (R302, R313). -/
def Aon.wakeBall (a : Aon) : BallState := if a.wakeOut || (a.padHeld && !a.padZ && a.padWake) then .low else .released
/-- SDA and SCL (R314, R340, R370): the management port, or the address matcher in Dormant. -/
def State.mgtBalls (s : State) : BallState :=
  match s.phase with
  | .strapWait => .released
  | .dormant => .matcher
  | _ => .port
/-- XIN and XOUT (R370). -/
def State.clockBalls (s : State) : BallState := if s.phase == .dormant then .stopped else .oscillating
/-- The straps (R37, R367, R370). -/
def State.strapBalls (s : State) : BallState := if s.phase == .strapWait then .sampled else .disconnected
/-- PERST_N (R36, R370). -/
def State.perstBall (s : State) : BallState := if s.phase == .strapWait || s.phase == .dormant then .ignored else .input
/-- CLKREQ_N (R370): open-drain. -/
def State.clkreqBall (s : State) : BallState :=
  match s.phase with
  | .serving | .bootPcie | .bootFw | .bootFailed => .driven
  | _ => .released
/-- PWR_EN_OUT (R300, R314). -/
def Aon.pwrEnBall (a : Aon) : BallState := if a.pwrEn then .high else .low

/-- The NAND balls, but for WP_N (R46, R314, R370). -/
def State.nandBalls (s : State) : BallState :=
  match s.phase with
  | .serving => if s.main.pwr.state == .hold then .highZ else .driven
  | .bootPcie | .bootFw => .driven
  | _ => .highZ

/-- WP_N of a channel (R218): high impedance with the other balls, else as the controller drives it. -/
def State.wpBall (s : State) (ch : Fin 4) : BallState :=
  if s.nandBalls == .highZ then .highZ else if s.wpHigh ch then .high else .low

/-- The Orokai Link balls (R254, R314, R370). -/
def State.linkBalls (s : State) : BallState := if s.serving && s.main.pwr.state != .hold then .driven else .highZ

/-- The PCI Express lanes (R46, R314, R370). -/
def State.pcieBalls (s : State) : BallState :=
  match s.phase with
  | .serving => if s.main.pcie.link == .down then .idle else if s.main.pwr.state == .hold then .lowPower else
      if s.main.pcie.link == .training then .training else .active
  | .bootPcie | .bootFw | .bootFailed => if s.main.pcie.link == .up then .active else .training
  | .inReset => .idle
  | _ => .highZ

end Sys2Proof.Machine
end

