-- ==== Sys2Proof/Machine/Cert.lean ====
section
/-!
DEFINITION. The device certificate (R342): an X.509 v3 certificate in DER, built from what OTP holds.
-/

namespace Sys2Proof.Machine

/-- The length octets of DER, for lengths below 65,536. -/
def derLen (n : Nat) : List Byte :=
  if n < 128 then [BitVec.ofNat 8 n]
  else if n < 256 then [0x81, BitVec.ofNat 8 n] else [0x82, BitVec.ofNat 8 (n / 256), BitVec.ofNat 8 n]

/-- One element: tag, length, contents. -/
def der (tag : Byte) (bs : List Byte) : List Byte := tag :: derLen bs.length ++ bs

/-- An INTEGER that is not negative, in the fewest octets. -/
def derInt (x : Nat) : List Byte :=
  let bs := (be32 x).dropWhile fun b => b == 0
  der 0x02 (if bs.head?.all fun b => b.getLsbD 7 then 0 :: bs else bs)

/-- AlgorithmIdentifier ecdsa-with-SHA256. -/
def derEcdsaSha256 : List Byte := der 0x30 (der 0x06 [0x2A, 0x86, 0x48, 0xCE, 0x3D, 0x04, 0x03, 0x02])

/-- The 16 uppercase hexadecimal digits of IDK_SERIAL. -/
def serialDigits (serial : BitVec 64) : List Byte :=
  (List.range 16).map fun i =>
    let d := serial.toNat / 16 ^ (15 - i) % 16
    BitVec.ofNat 8 (if d < 10 then 48 + d else 55 + d)

/-- A subject Name with one attribute, serialNumber. -/
def derSubject (serial : BitVec 64) : List Byte :=
  der 0x30 (der 0x31 (der 0x30 (der 0x06 [0x55, 0x04, 0x05] ++ der 0x13 (serialDigits serial))))

/-- The unit's public key (R342). -/
def Otp.publicKey (o : Otp) : Nat × Nat := (ecMul o.unitKey.toNat p256g).getD (0, 0)

/-- SubjectPublicKeyInfo: id-ecPublicKey on prime256v1, an uncompressed point. -/
def derKeyInfo (k : Nat × Nat) : List Byte :=
  der 0x30 (der 0x30 (der 0x06 [0x2A, 0x86, 0x48, 0xCE, 0x3D, 0x02, 0x01] ++
    der 0x06 [0x2A, 0x86, 0x48, 0xCE, 0x3D, 0x03, 0x01, 0x07]) ++ der 0x03 ([0x00, 0x04] ++ be32 k.1 ++ be32 k.2))

/-- notAfter 99991231235959Z. -/
def derNotAfter : List Byte :=
  der 0x18 [0x39, 0x39, 0x39, 0x39, 0x31, 0x32, 0x33, 0x31, 0x32, 0x33, 0x35, 0x39, 0x35, 0x39, 0x5A]

/-- Extensions: keyUsage, critical, with digitalSignature. -/
def derExtensions : List Byte :=
  der 0xA3 (der 0x30 (der 0x30 (der 0x06 [0x55, 0x1D, 0x0F] ++ der 0x01 [0xFF] ++ der 0x04 (der 0x03 [0x07, 0x80]))))

/-- The certificate that OTP holds (R342). -/
def Otp.certBytes (o : Otp) : List Byte :=
  let c := o.cert
  let body := der 0xA0 (derInt 2) ++ derInt c.serial ++ derEcdsaSha256 ++ c.issuer ++ der 0x30 (c.notBefore ++ derNotAfter) ++
    derSubject o.serial ++ derKeyInfo o.publicKey ++ derExtensions
  der 0x30 (der 0x30 body ++ derEcdsaSha256 ++
    der 0x03 (0x00 :: der 0x30 (derInt c.sigR.toNat ++ derInt c.sigS.toNat)))

end Sys2Proof.Machine
end

