-- ==== Sys2Proof/Machine/RegViews.lean ====
section
/-!
DEFINITION. What every BAR0 register reads as: the layouts of the "Registers" sections of the chapters and of chapter 17
(R359 to R363), worked out from State. A staged register shows its active value (R12), a write-only one zero (R8), and an
offset that holds no register zero (R5).
-/

namespace Sys2Proof.Machine

/-- What stands at a BAR0 offset: nothing, a 32-bit register, a 64-bit register, or a 64-bit RS register (R13, R14). -/
inductive RegVal where
  | absent
  | r32 (v : BitVec 32)
  | r64 (v : BitVec 64)
  | rs (v : BitVec 64)
  deriving DecidableEq, Repr

/-- A number as a 32-bit register's value. -/
def r32n (n : Nat) : RegVal := .r32 (BitVec.ofNat 32 n)

/-- A Bool as a bit of weight 2^i. -/
def bitN (i : Nat) (b : Bool) : Nat := if b then 2 ^ i else 0

/-- Word k of a register of 8 words (R359). -/
def word32Of {w : Nat} (x : BitVec w) (k : Nat) : RegVal := .r32 (x.extractLsb' (32 * k) 32)

/-- Four bytes of a window of bytes that ends in zeros. -/
def windowWord (bs : List Byte) (off : Nat) : RegVal := r32n (leAt bs off 4)

/-! ## GLB_ (chapter 2) -/

/-- GLB_STATUS. -/
def Glb.status (g : Glb) : Nat :=
  bitN 0 g.ready + bitN 1 g.booting + bitN 2 g.bootFailed + bitN 3 g.outOfService + bitN 4 g.earlyDoorbell +
    bitN 5 g.hostwinBusy + g.bootStage.toNat * 2 ^ 8 + g.bootErr.toNat * 2 ^ 16

/-- GLB_STATION_INFO: the number of usable stations, and the quads that have one (R1, R44). -/
def Otp.stationInfo (o : Otp) : Nat :=
  popCount o.stationMap +
    ((List.range 6).map fun q => bitN (8 + q) (decide (o.stationMap.extractLsb' (4 * q) 4 ≠ 0))).foldl (· + ·) 0

/-- GLB_RST_CAUSE (R34, R35). -/
def Aon.rstCause (a : Aon) : Nat := a.cause.toNat + a.history.toNat * 2 ^ 16

/-- GLB_STRAPS (R37). -/
def Aon.straps (a : Aon) : Nat := a.bootSel.toNat + a.linkId.val * 4 + a.mgtAddr.toNat * 32

/-- The GLB_ block. -/
def State.glbView (s : State) (off : Nat) : RegVal :=
  let g := s.main.glb
  match off with
  | 0x00 => .r32 0x4C4724B0
  | 0x08 => r32n g.status
  | 0x10 => r32n s.otp.stationMap.toNat
  | 0x14 => r32n s.otp.stationInfo
  | 0x18 => r32n s.otp.shmGroups.toNat
  | 0x20 => r32n s.aon.rstCause
  | 0x24 => r32n s.aon.rstCount.toNat
  | 0x28 => r32n s.aon.straps
  | 0x30 => r32n g.bootLog.toNat
  | 0x38 => .r64 g.bootAddr
  | 0x40 => .r32 g.bootLen
  | 0x50 => .r64 g.hostwin
  | _ => .absent

/-! ## HQ_ (chapter 3) -/

/-- HQ_q_CFG. -/
def QueueCfg.word (c : QueueCfg) : Nat := bitN 0 c.enable + c.ctx.val * 16 + c.prio.toNat * 2 ^ 8 + bitN 12 c.nosnoop

/-- A LOG2 field as it reads: values outside 4 to 12 read as 4 (R52). -/
def logShown (x : BitVec 4) : Nat := if 4 ≤ x.toNat && x.toNat ≤ 12 then x.toNat else 4

/-- Whether a job of a queue runs, or waits on a mark (HQ_q_STAT.RUNNING). -/
def State.queueRuns (s : State) (q : Fin 16) : Bool :=
  match s.job q with
  | some j => j.phase != .taken || !s.markOk j
  | none => false

/-- HQ_q_STAT. -/
def State.queueStat (s : State) (q : Fin 16) : Nat :=
  let x := s.queue q
  bitN 0 (s.queueRuns q) + bitN 1 x.cfg.pending.isSome + bitN 2 x.halted + bitN 3 (!x.hold.isEmpty && !x.room) +
    bitN 8 x.fetchErr + bitN 9 x.badDoorbell + bitN 10 x.dbInReset

/-- The HQ_ block. -/
def State.hqView (s : State) (off : Nat) : RegVal :=
  if off < 0x1000 then
    let q := Fin.ofNat 16 (off / 0x100)
    let x := s.queue q
    match off % 0x100 with
    | 0x00 => r32n x.cfg.active.word
    | 0x08 => .r64 x.cfg.active.sqBase
    | 0x10 => .r64 x.cfg.active.cqBase
    | 0x18 => r32n (logShown x.cfg.active.sqLog2 + logShown x.cfg.active.cqLog2 * 2 ^ 8)
    | 0x28 => r32n (x.sqHead.toNat + x.cqWrite.toNat * 2 ^ 16 + bitN 31 x.phase)
    | 0x2C => r32n (x.sqTail.toNat + x.cqHead.toNat * 2 ^ 16)
    | 0x30 => r32n (s.queueStat q)
    | 0x38 => .rs x.jobsDone
    | _ => .absent
  else if off < 0x1200 && off % 8 = 0 then .r64 (s.main.marks.getD ((off - 0x1000) / 8) 0)
  else .absent

/-! ## CTX_ (chapters 4, 9 and 13) -/

/-- CTX_c_RST_STAT. -/
def Ctx.rstStat (x : Ctx) : Nat :=
  bitN 0 x.reset.isSome + bitN 1 x.waiting + x.step.val * 16 + x.cause.toNat * 2 ^ 8 + bitN 16 x.done + bitN 17 x.sampleErr +
    bitN 18 x.sampleCut + bitN 19 x.revoked

/-- The recovery registers of a context. -/
def Ctx.recovery (x : Ctx) (off : Nat) : RegVal :=
  match off with
  | 0x04 => r32n x.rstStat
  | 0x08 => r32n x.gen.toNat
  | 0x10 => .rs x.progress
  | 0x18 => .rs x.lastAct
  | 0x20 => .rs x.staleDrops
  | 0x28 => .rs x.resets
  | 0x30 => .r64 x.sampleAddr
  | 0x38 => r32n (bitN 0 x.sampleEn)
  | 0x3C => .r32 x.sampleSel
  | 0x40 => r32n (bitN 0 x.revTrv + bitN 1 x.revSb + bitN 2 x.revLink + x.revChannels.toNat * 2 ^ 16)
  | 0x48 => .r32 x.rstTime
  | _ => .absent

/-- An entry of a parcel table (R84). -/
def Parcel.view (p : Parcel) (off : Nat) : RegVal :=
  match off with
  | 0x0 => r32n p.base.toNat
  | 0x4 => r32n p.bound.toNat
  | 0x8 => r32n (p.space.toNat + p.rights.toNat * 2 ^ 8)
  | _ => .absent

/-- The speculation registers of a context (chapter 9). -/
def State.specView (s : State) (c : Fin 8) (off : Nat) : RegVal :=
  let x := s.ctx c
  match off with
  | 0x00 => .r64 (s.specWord c none)
  | 0x08 => .rs x.suppressed
  | 0x10 => .rs x.dropped
  | 0x18 => .rs x.commits
  | 0x20 => .rs x.discards
  | 0x28 => .rs x.cbFull
  | _ => .absent

/-- The CTX_ block. -/
def State.ctxView (s : State) (off : Nat) : RegVal :=
  if off < 0x400 then (s.ctx (Fin.ofNat 8 (off / 0x80))).recovery (off % 0x80)
  else if off = 0x1000 then r32n s.main.esc.limit.active.toNat
  else if off = 0x1004 then r32n s.main.esc.window.active.toNat
  else if off = 0x100C then r32n (s.main.esc.count.toNat + s.main.esc.lastCtx.val * 2 ^ 8)
  else if off = 0x1010 then .rs s.main.esc.time
  else if 0x8000 ≤ off && off < 0xA000 then
    let c := Fin.ofNat 8 ((off - 0x8000) / 0x400)
    ((s.ctx c).table.active.getD ((off / 0x20) % 32) {}).view (off % 0x20)
  else if 0xA020 ≤ off && off < 0xA040 && off % 4 = 0 then
    let x := s.ctx (Fin.ofNat 8 ((off - 0xA020) / 4))
    r32n (bitN 0 x.table.pending.isSome + bitN 1 x.badEntry)
  else if 0xB000 ≤ off && off < 0xB200 then s.specView (Fin.ofNat 8 ((off - 0xB000) / 0x40)) (off % 0x40)
  else .absent

/-! ## PWR_, IRQ_, SUP_ and TCK_ (chapters 2, 11, 14 and 17) -/

/-- The code of a power state (PWR_STATE, MGT_STATE). -/
def PState.code : PState → Nat
  | .run => 0
  | .trim => 1
  | .hold => 2

/-- PWR_SUP_STAT (R307, R308). -/
def Aon.supStat (a : Aon) : Nat := bitN 0 a.warn + bitN 1 a.dip + bitN 2 a.flushing.isSome + bitN 3 a.holdoff

/-- PWR_CLK_STAT (R30 to R32). -/
def Power.clkStat (p : Power) : Nat :=
  p.effDiv.toNat + bitN 2 p.switching + bitN 3 p.refused + bitN 4 p.dipForce + bitN 5 p.vcoreForce + p.vcoreMv.toNat * 2 ^ 8

/-- The PWR_ block. -/
def State.pwrView (s : State) (off : Nat) : RegVal :=
  let p := s.main.pwr
  match off with
  | 0x00 => r32n (p.state.code + bitN 4 p.forcing)
  | 0x04 => r32n p.idleTrim.toNat
  | 0x08 => r32n p.idleHold.toNat
  | 0x0C => r32n p.idleDormant.toNat
  | 0x10 => r32n (bitN 0 p.force)
  | 0x14 => r32n p.drainWait.toNat
  | 0x1C => r32n (bitN 0 s.aon.padHeld)
  | 0x20 => r32n p.evt.toNat
  | 0x24 => r32n p.evtEn.toNat
  | 0x30 => r32n s.aon.vsysWarn.toNat
  | 0x34 => r32n s.aon.supStat
  | 0x38 => r32n (bitN 0 p.supEn)
  | 0x40 => r32n p.div.toNat
  | 0x44 => r32n p.clkStat
  | _ => .absent

/-- The IRQ_ block (R361). -/
def State.irqView (s : State) (off : Nat) : RegVal := if off = 0 then .r64 s.main.msix.pba else .absent

/-- The SUP_ block. -/
def State.supView (s : State) (off : Nat) : RegVal :=
  let x := s.main.sup
  match off with
  | 0x00 => r32n (bitN 0 x.en)
  | 0x04 => r32n x.sense.toNat
  | 0x08 => .rs x.charge
  | 0x10 => .r64 x.emptyLevel
  | 0x18 => r32n x.vsys.toNat
  | 0x1C => r32n (bitN 0 x.chargeEmpty + bitN 1 x.adcSat)
  | 0x20 => r32n (bitN 0 x.irqEn)
  | 0x28 => .r64 x.capCharge
  | 0x30 => r32n x.capVsys.toNat
  | 0x38 => .r64 x.capTime
  | _ => .absent

/-- The TCK_ block (R27, R252). -/
def State.tckView (s : State) (off : Nat) : RegVal :=
  if off = 0 then .rs s.main.time
  else if 0x100 ≤ off && off < 0x140 then
    let g := s.main.gens[Fin.ofNat 4 ((off - 0x100) / 0x10)]
    match off % 0x10 with
    | 0x0 => .r32 g.period.active
    | 0x4 => .r32 g.phase.active
    | 0x8 => r32n (bitN 0 g.en)
    | _ => .absent
  else .absent

/-! ## TRV_ (chapter 11) -/

/-- TRV_CHn_CFG. -/
def Chan.cfgWord (x : Chan) : Nat :=
  x.trig.toNat + x.tsel.val * 4 + x.tch.val * 16 + x.prio.toNat * 2 ^ 8 + x.crcSel.toNat * 2 ^ 10 + bitN 12 x.rearm

/-- TRV_CHn_FMT. -/
def Fmt.word (f : Fmt) : Nat := bitN 0 f.pack + bitN 1 f.sign + f.srcW.toNat * 4 + f.dstW.toNat * 32

/-- The code of a channel's state (TRV_CHn_STAT.STATE). -/
def ChanState.code : ChanState → Nat
  | .idle => 0
  | .armed => 1
  | .running => 2
  | .halted => 3

/-- TRV_CHn_STAT. -/
def State.chanStat (s : State) (ch : Fin 16) : Nat :=
  let x := s.chan ch
  x.state.code + bitN 3 x.paused + bitN 4 (x.pendKick.isSome || x.classify.isSome || s.heldKick ch) + bitN 5 x.spec.isSome +
    x.pendCount.toNat * 2 ^ 8 + x.lastStatus.toNat * 2 ^ 16

/-- TRV_CHn_FLAGS. -/
def Chan.flags (x : Chan) : Nat := bitN 0 x.overrun + bitN 1 x.ownerBusy + bitN 2 x.cancelled + bitN 3 x.cancelRefused

/-- The registers of one channel. -/
def State.chanView (s : State) (ch : Fin 16) (off : Nat) : RegVal :=
  let x := s.chan ch
  match off with
  | 0x00 => r32n (bitN 1 x.pause)
  | 0x04 => r32n x.cfgWord
  | 0x08 => r32n x.fmt.active.word
  | 0x10 => r32n (x.ownCtx.val + bitN 7 x.ownValid + x.gen.toNat * 2 ^ 8)
  | 0x18 => .r64 x.head
  | 0x20 => r32n (x.kickOffset.toNat * 8 + x.kickStation.toNat * 2 ^ 24 + bitN 31 x.kickEn)
  | 0x24 => r32n (s.chanStat ch)
  | 0x28 => r32n x.flags
  | 0x30 => .r64 (x.src.setWidth 64)
  | 0x38 => .r64 (x.dst.setWidth 64)
  | 0x40 => .r64 (BitVec.ofNat 64 (x.posBytes.toNat + x.posUnits.toNat * 2 ^ 32))
  | 0x48 => .r64 (BitVec.ofNat 64 (x.descAddr.toNat + x.descCount.toNat * 2 ^ 40))
  | 0x50 => .r32 x.crcShown
  | 0x58 => .r64 (x.errAddr.setWidth 64)
  | 0x60 => .r32 x.errDetail
  | 0x68 => .rs x.bytes
  | _ => .absent

/-- The TRV_ block. -/
def State.trvView (s : State) (off : Nat) : RegVal :=
  if off < 0x800 then s.chanView (Fin.ofNat 16 (off / 0x80)) (off % 0x80)
  else match off with
    | 0x800 => r32n s.main.trvRetry.toNat
    | 0x804 => r32n s.main.chainLimit.toNat
    | 0x808 => r32n s.main.trvIrqMask.toNat
    | 0x810 => .r64 (s.main.laErrAddr.setWidth 64)
    | _ => .absent

/-! ## NFC_ (chapter 10) -/

/-- NFC_BUSY. -/
def Nfc.busyMask (n : Nfc) : Nat := ((List.finRange 32).map fun u => bitN u.val (n.luns[u]).cur.isSome).foldl (· + ·) 0

/-- The NFC_ block. -/
def State.nfcView (s : State) (off : Nat) : RegVal :=
  let n := s.main.nfc
  let c := n.cfg.active
  if 0x50 ≤ off && off < 0x68 then (if off % 8 = 0 then .r64 (c.soft.getD ((off - 0x50) / 8) 0) else .absent)
  else if 0x80 ≤ off && off < 0x100 then (if off % 8 = 0 then .r64 (c.retry.getD ((off - 0x80) / 8) 0) else .absent)
  else if 0x100 ≤ off && off < 0x180 then (if off % 8 = 0 then .r64 (c.prof.getD ((off - 0x100) / 8) 0) else .absent)
  else if 0x200 ≤ off && off < 0x238 then (if off % 8 = 0 then .rs (n.counts.getD ((off - 0x200) / 8) 0) else .absent)
  else if 0x300 ≤ off && off < 0x380 then (if off % 8 = 0 then .rs (n.hist.getD ((off - 0x300) / 8) 0) else .absent)
  else match off with
    | 0x00 => r32n (bitN 0 n.ready + bitN 1 n.rtBad + bitN 2 n.cfg.pending.isSome)
    | 0x04 => .r32 n.present
    | 0x08 => r32n n.chMode.toNat
    | 0x0C => r32n n.busyMask
    | 0x10 => r32n (n.main.toNat + bitN 2 n.planes + n.spare.toNat * 16 + n.pageBits.toNat * 2 ^ 16)
    | 0x14 => r32n (n.ppb.toNat + n.blocks.toNat * 2 ^ 16)
    | 0x18 => r32n (bitN 0 n.bootWrite)
    | 0x20 => .r32 c.tim0
    | 0x24 => .r32 c.tim1
    | 0x30 => .r32 c.to0
    | 0x34 => .r32 c.to1
    | 0x38 => r32n c.resetWait.toNat
    | 0x40 => .r32 c.ladder
    | 0x48 => .r64 c.retryDef
    | 0x380 => r32n (if n.histWidth = 0 then 1 else n.histWidth.toNat)
    | 0x390 => .r32 n.uceLoc
    | 0x394 => r32n n.uceInfo.toNat
    | 0x3A0 => r32n n.irqStat.toNat
    | 0x3A4 => r32n n.irqEn.toNat
    | _ => .absent

/-! ## OKL_ (chapter 12) -/

/-- OKL_Pp_STAT. -/
def Port.stat (p : Port) : Nat :=
  p.state.toNat + p.width.toNat * 4 + bitN 4 p.idConflict + p.neighbour.val * 2 ^ 8 + p.cause.toNat * 2 ^ 16

/-- The registers of one port. -/
def Port.view (p : Port) (off : Nat) : RegVal :=
  match off with
  | 0x00 => r32n (bitN 0 p.enable)
  | 0x04 => r32n p.stat
  | 0x08 => .rs p.cntCrc
  | 0x10 => .rs p.cntReplay
  | 0x18 => .rs p.cntBad
  | 0x20 => .rs p.flitsTx
  | 0x28 => .rs p.flitsRx
  | _ => .absent

/-- The binding registers of one context. -/
def BindRegs.view (b : BindRegs) (off : Nat) : RegVal :=
  let a := b.set.active
  match off with
  | 0x00 => r32n (a.job.toNat + bitN 15 a.valid)
  | 0x04 => r32n a.base.toNat
  | 0x08 => r32n a.bound.toNat
  | 0x0C => r32n a.rights.toNat
  | 0x14 => r32n (bitN 0 b.set.pending.isSome + bitN 1 b.badBind + bitN 2 b.bindConflict)
  | _ => .absent

/-- The OKL_ block. -/
def State.oklView (s : State) (off : Nat) : RegVal :=
  let l := s.main.link
  if 0x40 ≤ off && off < 0xC0 then (l.ports[Fin.ofNat 2 ((off - 0x40) / 0x40)]).view ((off - 0x40) % 0x40)
  else if 0x100 ≤ off && off < 0x200 then (l.binds[Fin.ofNat 8 ((off - 0x100) / 0x20)]).view (off % 0x20)
  else match off with
    | 0x00 => r32n s.aon.linkId.val
    | 0x08 => r32n l.route.active.toNat
    | 0x10 => r32n l.irqStat.toNat
    | 0x14 => r32n l.irqEn.toNat
    | 0x18 => r32n l.abortLog.toNat
    | 0x20 => .rs l.cntRefused
    | _ => .absent

/-! ## SER_ and MGT_ (chapter 15) -/

/-- SERn_CFG. -/
def SerCfg.word (c : SerCfg) : Nat :=
  c.dbits.toNat + c.parity.toNat * 4 + bitN 4 c.stop2 + bitN 5 c.rxen + bitN 6 c.txen

/-- SER1_LIN_CTRL. -/
def SerCfg.linWord (c : SerCfg) : Nat :=
  bitN 0 c.linEn + bitN 1 c.linRole + bitN 2 c.linAdapt + c.linBreak.toNat * 16 + c.linDelim.toNat * 2 ^ 8

/-- The SER_ block. -/
def State.serView (s : State) (off : Nat) : RegVal :=
  let l := s.main.lin
  if off < 0x200 then
    let u := Fin.ofNat 2 (off / 0x100)
    let x := s.main.uarts[u]
    match off % 0x100 with
    | 0x00 => r32n (if s.frameMode u then 0 else x.rxHold.toNat)
    | 0x04 => .r32 x.stat
    | 0x08 => r32n x.cfg.active.word
    | 0x0C => r32n x.cfg.active.divisor.toNat
    | _ => .absent
  else if 0x300 ≤ off && off < 0x400 then (if off % 4 = 0 then r32n (l.tab.getD ((off - 0x300) / 4) 0).toNat else .absent)
  else if 0x400 ≤ off && off < 0x600 then (if off % 8 = 0 then .r64 (l.buf.getD ((off - 0x400) / 8) 0) else .absent)
  else match off with
    | 0x200 => r32n s.lin.linWord
    | 0x208 => .r32 l.stat
    | 0x20C => r32n l.meas.toNat
    | 0x220 => .rs l.cntOk
    | 0x228 => .rs l.cntErr
    | _ => .absent

/-- MGT_STAT (R335, R338). -/
def State.mgtView (s : State) (off : Nat) : RegVal :=
  if off = 0 then r32n (0x48 + s.aon.mgtAddr.toNat + bitN 8 s.aon.mgmt.timeout) else .absent

/-! ## IDK_ and FBK_ (chapter 16) -/

/-- IDK_STAT. -/
def State.idkStat (s : State) : Nat :=
  let i := s.main.idk
  s.otp.pmkState.toNat + bitN 2 i.keyLoaded + i.rtStat.toNat * 8 + bitN 8 i.burnBusy + bitN 9 i.burnRefused + bitN 10 i.keyBad +
    bitN 11 i.vfyBusy + bitN 12 i.vfyRefused

/-- The IDK_ block. -/
def State.idkView (s : State) (off : Nat) : RegVal :=
  let i := s.main.idk
  if 0x40 ≤ off && off < 0x80 then word32Of i.pmkKey.active ((off - 0x40) / 4)
  else if 0x80 ≤ off && off < 0xA0 then word32Of s.otp.vendorHash ((off - 0x80) / 4)
  else if 0xA0 ≤ off && off < 0xC0 then word32Of s.otp.pmkHash ((off - 0xA0) / 4)
  else if 0xC0 ≤ off && off < 0xE0 then word32Of i.fwHash ((off - 0xC0) / 4)
  else if 0xE0 ≤ off && off < 0x100 then word32Of i.rtHash ((off - 0xE0) / 4)
  else if 0x1000 ≤ off && off < 0x1400 then windowWord s.otp.certBytes (off - 0x1000)
  else if 0x2000 ≤ off && off < 0x2400 then windowWord s.otp.datumBytes (off - 0x2000)
  else match off with
    | 0x00 => .r64 s.otp.serial
    | 0x08 => r32n s.idkStat
    | 0x10 => r32n s.otp.certBytes.length
    | 0x18 => .r64 i.vfyReq
    | _ => .absent

/-- The FBK_ block (R355 to R358). The ring and the slot are windows of 16-byte entries. -/
def State.fbkView (s : State) (off : Nat) : RegVal :=
  let a := s.aon
  if 0x1000 ≤ off && off < 0x3000 then word32Of (a.ring.getD ((off - 0x1000) / 16) 0) (off % 16 / 4)
  else if 0x3000 ≤ off && off < 0x4000 then windowWord s.slots[a.slotSel] (off - 0x3000)
  else match off with
    | 0x00 => r32n a.fbHead.val
    | 0x04 => r32n (bitN 0 a.flushing.isSome + bitN 1 a.flushPend.isSome + a.lastSlot.val * 16)
    | 0x0C => r32n a.slotSel.val
    | 0x10 => .r64 s.main.fbkDrv.active
    | 0x20 => .r32 a.seq
    | _ => .absent

/-! ## STN_ and SHM_ (chapters 4, 5, 7 and 8) -/

/-- STN_STAT. -/
def Station.statWord (t : Station) : Nat :=
  if t.running then
    1 + bitN 1 t.markWait.isSome + bitN 2 t.barWait.isSome + bitN 3 t.stopping + t.ctx.val * 16 + t.queue.val * 2 ^ 8
  else 0

/-- STN_FAULT_STAT. -/
def Station.faultWord (t : Station) : Nat :=
  t.faultStatus.toNat + bitN 16 t.faultValid + bitN 17 t.faultSecondary + bitN 18 t.faultSpec

/-- STN_ARR_STAT_a. -/
def State.arrStat (s : State) (n : Fin 24) (a : Fin 32) : Nat :=
  let v := s.arrayNv n a
  v.state.toNat + bitN 2 ((s.station n).convertsNow a) + bitN 3 v.worn + bitN 4 v.degraded + v.failCells.toNat * 2 ^ 16 +
    v.cycles.toNat * 2 ^ 32 + v.maxIter.toNat * 2 ^ 56

/-- STN_SB_USED. -/
def Station.sbUsed (t : Station) : Nat := t.board.length + t.boardMax * 2 ^ 8

/-- The block of one station. -/
def State.stnView (s : State) (n : Fin 24) (off : Nat) : RegVal :=
  let t := s.station n
  if 0x1000 ≤ off && off < 0x1300 then
    (if off % 8 = 0 && off % 0x40 < 0x28 then .rs (t.conflicts.getD ((off - 0x1000) / 0x40 * 5 + off % 0x40 / 8) 0) else .absent)
  else if 0x2000 ≤ off && off < 0x2040 then r32n (t.ppset.getD ((off - 0x2000) / 4) 0).toNat
  else if 0x2100 ≤ off && off < 0x2200 then
    (if off % 8 = 0 then .r64 (BitVec.ofNat 64 (s.arrStat n (Fin.ofNat 32 ((off - 0x2100) / 8)))) else .absent)
  else if 0x2200 ≤ off && off < 0x2280 then r32n (t.arrays[Fin.ofNat 32 ((off - 0x2200) / 4)]).zp.toNat
  else if 0x8000 ≤ off && off < 0x10000 then
    .r32 ((t.arrays[Fin.ofNat 32 ((off - 0x8000) / 0x400)]).entry (off % 0x400 / 4))
  else match off with
    | 0x00 => r32n t.statWord
    | 0x08 => .r64 (t.pcWord.setWidth 64)
    | 0x10 => r32n t.faultWord
    | 0x18 => .r64 (t.faultPc.setWidth 64)
    | 0x20 => .r64 t.faultInstr
    | 0x28 => .r32 t.faultDetail
    | 0x30 => .rs t.retired
    | 0x38 => .rs t.busy
    | 0x40 => .rs t.regWait
    | 0x48 => .rs t.queueFull
    | 0x50 => .rs t.syncWait
    | 0x1400 => .rs t.sbWait
    | 0x1408 => .rs t.sbFull
    | 0x1410 => r32n t.sbUsed
    | 0x1418 => r32n t.accStat.toNat
    | 0x2304 => r32n (bitN 0 t.benchBusy + bitN 1 t.benchDone + bitN 2 t.benchRefused + t.benchArray.val * 2 ^ 8)
    | 0x2308 => .r64 t.benchRes
    | 0x2400 => r32n t.qntStat.toNat
    | _ => .absent

/-- The SHM_ block. -/
def State.shmView (s : State) (off : Nat) : RegVal :=
  let m := s.main.shm
  if off = 0 then r32n (bitN 0 m.split)
  else if off = 8 then r32n (bitN 0 m.modeBusy)
  else if 0x100 ≤ off && off < 0x300 && off % 8 = 0 then .rs (m.conflicts.getD ((off - 0x100) / 8) 0)
  else .absent

/-! ## BAR0 -/

/-- The station whose block holds an offset. -/
def stnOf (a : Nat) : Option (Fin 24) :=
  if h : (a - 0x100000) / 0x10000 < 24 then if 0x100000 ≤ a then some ⟨(a - 0x100000) / 0x10000, h⟩ else none else none

/-- What stands at a BAR0 offset once READY is 1 (R359). -/
def State.bar0 (s : State) (a : Nat) : RegVal :=
  match stnOf a with
  | some n => s.stnView n (a % 0x10000)
  | none =>
    match a / 0x10000 with
    | 0x00 => s.glbView (a % 0x10000)
    | 0x01 => s.hqView (a % 0x10000)
    | 0x02 => s.ctxView (a % 0x10000)
    | 0x03 => s.pwrView (a % 0x10000)
    | 0x04 => s.irqView (a % 0x10000)
    | 0x05 => s.trvView (a % 0x10000)
    | 0x06 => s.nfcView (a % 0x10000)
    | 0x07 => s.oklView (a % 0x10000)
    | 0x08 => s.serView (a % 0x10000)
    | 0x09 => s.mgtView (a % 0x10000)
    | 0x0A => s.idkView (a % 0x10000)
    | 0x0B => s.fbkView (a % 0x10000)
    | 0x0C => s.supView (a % 0x10000)
    | 0x0D => s.tckView (a % 0x10000)
    | 0x40 => s.shmView (a % 0x10000)
    | _ => .absent

/-- Whether the block of an offset answers: GLB_, PWR_ and TCK_ while the main domain runs, the rest from READY on (R42);
an absent station's, and every station's in Hold, never (R44, R299). -/
def State.answers (s : State) (a : Nat) : Bool :=
  match stnOf a with
  | some n => s.stationsOn && s.present n
  | none => s.serving || (s.running && (a / 0x10000 == 0 || a / 0x10000 == 3 || a / 0x10000 == 0x0D))

/-- What stands at a BAR0 offset as a read finds it. -/
def State.reg (s : State) (a : Nat) : RegVal := if s.answers a then s.bar0 a else .absent

/-- The 64-bit register whose low word stands at an offset that is a multiple of 8. -/
def State.wide (s : State) (a : Nat) : Option (BitVec 64) :=
  if a % 8 = 0 then
    match s.reg a with
    | .r64 v => some v
    | .rs v => some v
    | _ => none
  else none

/-- The 32-bit word at an offset that is a multiple of 4, live (R5, R6). -/
def State.liveWord (s : State) (a : Nat) : BitVec 32 :=
  match s.wide (a / 8 * 8) with
  | some v => v.extractLsb' (32 * (a % 8 / 4)) 32
  | none =>
    match s.reg a with
    | .r32 v => v
    | _ => 0

end Sys2Proof.Machine
end

