-- ==== Sys2Proof/Machine/Pcie.lean ====
section
/-!
DEFINITION. The PCI Express function beside BAR0 (R47, R48, R53, R75): the bytes of a host request, the configuration space,
the MSI-X table and Pending Bit Array of BAR2, and the doorbell pages of BAR4.
-/

namespace Sys2Proof.Machine

/-- The state after another command's effect. -/
def State.act (s : State) (f : State → Host.Outcome State Fault Refusal) : State :=
  match f s with
  | .next t => t
  | _ => s

/-! ## Requests -/

/-- The byte of a request that lies at an offset, where its byte enable is set. -/
def reqByte (off : Nat) (lanes : List (Option Byte)) (a : Nat) : Option Byte := if off ≤ a then (lanes[a - off]?).join else none

/-- The doubleword of a request at an offset, where all its byte enables are set (R6). -/
def reqWord (off : Nat) (lanes : List (Option Byte)) (a : Nat) : Option (BitVec 32) :=
  match reqByte off lanes a, reqByte off lanes (a + 1), reqByte off lanes (a + 2), reqByte off lanes (a + 3) with
  | some b0, some b1, some b2, some b3 => some (b3 ++ b2 ++ b1 ++ b0)
  | _, _, _, _ => none

/-- Whether a request has a byte enabled in the doubleword at an offset. -/
def reqTouches (off : Nat) (lanes : List (Option Byte)) (a : Nat) : Bool :=
  (List.range 4).any fun i => (reqByte off lanes (a + i)).isSome

/-- A doubleword with the enabled bytes of a request in place of its own. -/
def reqMerge (off : Nat) (lanes : List (Option Byte)) (a : Nat) (old : BitVec 32) : BitVec 32 :=
  let b := fun i => (reqByte off lanes (a + i)).getD (byteOf old i)
  b 3 ++ b 2 ++ b 1 ++ b 0

/-- The offsets, multiples of g and ascending, of the groups of g bytes that n bytes from an offset reach into (R6). -/
def groupsOf (g off n : Nat) : List Nat :=
  let first := off / g
  (List.range ((off + n + g - 1) / g - first)).map fun i => (first + i) * g

/-! ## Configuration space (R47, R48) -/

/-- The address bits that a BAR keeps: 16 MiB, 4 KiB and 64 KiB (R48). -/
def barMask (i : Fin 3) : BitVec 64 := #[0xFFFFFFFFFF000000, 0xFFFFFFFFFFFFF000, 0xFFFFFFFFFFFF0000].getD i.val 0

/-- A BAR as it reads: 64-bit, memory, not prefetchable (R48). -/
def Pcie.bar (x : Pcie) (i : Fin 3) : BitVec 64 := (x.bars[i] &&& barMask i) ||| 4

/-- The bits of Command that a host may set: memory space, bus master, parity response, SERR and INTx disable. -/
def commandMask : BitVec 16 := 0x0546

/-- A doubleword of the header: the device, revision and class of R47, the BARs of R48, Interrupt Pin 0. Doublewords that the
spec gives no value (the vendor, the subsystem, the pointer to the capabilities) are free. -/
def Pcie.header (x : Pcie) (i : Nat) : BitVec 32 :=
  match i with
  | 0 => (0x0024 : BitVec 16) ++ (Config.configWord 0).extractLsb' 0 16
  | 1 => (0x0010 : BitVec 16) ++ x.command
  | 2 => 0x120000B0
  | 4 => (x.bar 0).extractLsb' 0 32
  | 5 => (x.bar 0).extractLsb' 32 32
  | 6 => (x.bar 1).extractLsb' 0 32
  | 7 => (x.bar 1).extractLsb' 32 32
  | 8 => (x.bar 2).extractLsb' 0 32
  | 9 => (x.bar 2).extractLsb' 32 32
  | 11 => Config.configWord 11
  | 13 => Config.configWord 13
  | 15 => x.intLine.setWidth 32
  | _ => 0

/-- The control word of MSI-X: 64 vectors, the function mask and Enable (R47, R75). -/
def Msix.control (x : Msix) : Nat := 63 + bitN 14 x.functionMask + bitN 15 x.enable

/-- A doubleword of the configuration space. -/
def State.configWord (s : State) (r : CfgReg) (i : Nat) : BitVec 32 :=
  match r with
  | .header => s.main.pcie.header i
  | .deviceControl => if i = 0 then s.main.pcie.devCtl.setWidth 32 else 0
  | .msixControl => if i = 0 then BitVec.ofNat 32 s.main.msix.control else 0
  | .powerState => if i = 0 then (if s.main.pwr.d3hot then 3 else 0) else 0

/-- A byte of the configuration space. Requests are answered from the start of the boot ROM on (R42). -/
def State.configByte (s : State) (r : CfgReg) (a : Nat) : Byte := if s.running then byteOf (s.configWord r (a / 4)) (a % 4) else 0

/-- One half of a BAR written. -/
def Pcie.setBar (x : Pcie) (i : Fin 3) (w : W64) : Pcie := { x with bars := x.bars.set i (applyW64 x.bars[i] w &&& barMask i) }

/-- A doubleword of the header written. -/
def Pcie.writeHeader (x : Pcie) (i : Nat) (v : BitVec 32) : Pcie :=
  match i with
  | 1 => { x with command := v.extractLsb' 0 16 &&& commandMask }
  | 4 => x.setBar 0 (.low v)
  | 5 => x.setBar 0 (.high v)
  | 6 => x.setBar 1 (.low v)
  | 7 => x.setBar 1 (.high v)
  | 8 => x.setBar 2 (.low v)
  | 9 => x.setBar 2 (.high v)
  | 15 => { x with intLine := v.extractLsb' 0 8 }
  | _ => x

/-- The bits of Device Control that a host may set. Relaxed Ordering Enable reads 0 (R50); a Function Level Reset is the command
FLR. -/
def devCtlMask : BitVec 16 := 0x78EF

/-- The power state written: 3 is D3hot, 0 is D0 (R47, R297). -/
def State.writePowerState (s : State) (v : BitVec 32) : State :=
  if v.extractLsb' 0 2 = 3 then s.act execD3hot else if v.extractLsb' 0 2 = 0 then s.act execReturnToD0 else s

/-- A doubleword of the configuration space written. -/
def State.configPut (s : State) (r : CfgReg) (i : Nat) (v : BitVec 32) : State :=
  match r with
  | .header => s.modPcie fun x => x.writeHeader i v
  | .deviceControl => if i = 0 then s.modPcie fun x => { x with devCtl := v.extractLsb' 0 16 &&& devCtlMask } else s
  | .msixControl => if i = 0 then s.hostMsix fun x => { x with functionMask := bit v 14, enable := bit v 15 } else s
  | .powerState => if i = 0 then s.writePowerState v else s

/-- A configuration write (R47): the enabled bytes of each doubleword. -/
def State.configWrite (s : State) (r : CfgReg) (off : Nat) (lanes : List (Option Byte)) : State :=
  if !s.running then s
  else (groupsOf 4 off lanes.length).foldl (fun s a =>
    if reqTouches off lanes a then s.configPut r (a / 4) (reqMerge off lanes a (s.configWord r (a / 4))) else s) s

/-- The largest payload of a write that the function sends, and the largest read that it asks for, in bytes (R47). -/
def Pcie.maxPayload (x : Pcie) : Nat := min 256 (128 * 2 ^ (x.devCtl.extractLsb' 5 3).toNat)
/-- The largest read request. -/
def Pcie.maxRead (x : Pcie) : Nat := min 512 (128 * 2 ^ (x.devCtl.extractLsb' 12 3).toNat)

/-! ## BAR2: the MSI-X table and the Pending Bit Array (R48, R75) -/

/-- A doubleword of BAR2. -/
def State.msixWord (s : State) (a : Nat) : BitVec 32 :=
  let x := s.main.msix
  if h : a / 16 < 64 then
    let v : Fin 64 := ⟨a / 16, h⟩
    match a % 16 / 4 with
    | 0 => x.addr[v].extractLsb' 0 32
    | 1 => x.addr[v].extractLsb' 32 32
    | 2 => x.data[v]
    | _ => flag 32 0 (bit x.mask v.val)
  else if a = 0x800 then x.pba.extractLsb' 0 32
  else if a = 0x804 then x.pba.extractLsb' 32 32
  else 0

/-- A byte of BAR2. -/
def State.msixByte (s : State) (a : Nat) : Byte := if s.running then byteOf (s.msixWord (a / 4 * 4)) (a % 4) else 0

/-- A doubleword of a vector's table entry written. -/
def Msix.putWord (x : Msix) (v : Fin 64) (k : Nat) (w : BitVec 32) : Msix :=
  match k with
  | 0 => { x with addr := x.addr.set v (applyW64 x.addr[v] (.low w)) }
  | 1 => { x with addr := x.addr.set v (applyW64 x.addr[v] (.high w)) }
  | 2 => { x with data := x.data.set v w }
  | _ => { x with mask := setBit x.mask v.val (bit w 0) }

/-- A write to BAR2: each doubleword whose byte enables are all set. The Pending Bit Array takes none. -/
def State.msixPageWrite (s : State) (off : Nat) (lanes : List (Option Byte)) : State :=
  if !s.running then s
  else (groupsOf 4 off lanes.length).foldl (fun s a =>
    match reqWord off lanes a with
    | some w => if h : a / 16 < 64 then s.hostMsix fun x => x.putWord ⟨a / 16, h⟩ (a % 16 / 4) w else s
    | none => s) s

/-! ## BAR4: the doorbells (R48, R53) -/

/-- A doubleword of a request to BAR4. At offset 0 of a queue's page it is SQ_TAIL, at 4 CQ_HEAD; elsewhere, and where only some
of its byte enables are set, it is discarded and sets BAD_DOORBELL. -/
def State.doorbellPut (off : Nat) (lanes : List (Option Byte)) (s : State) (a : Nat) : State :=
  let q := Fin.ofNat 16 (a / 0x1000)
  match reqWord off lanes a with
  | some v =>
    if a % 0x1000 = 0 then s.act (execSqTail q v)
    else if a % 0x1000 = 4 then s.act (execCqHead q v)
    else s.doorbell fun s => s.badDoorbell q
  | none => if reqTouches off lanes a then s.doorbell fun s => s.badDoorbell q else s

/-- A write to BAR4, within its 64 KiB. -/
def State.doorbellPageWrite (s : State) (off : Nat) (lanes : List (Option Byte)) : State :=
  ((groupsOf 4 off lanes.length).filter fun a => a < 0x10000).foldl (State.doorbellPut off lanes) s

end Sys2Proof.Machine
end

