-- ==== Sys2Proof/Machine/RegOps.lean ====
section
/-!
DEFINITION. REGISTER_WRITE, LOW_WORD_READ and FIELD_BOOK_ENTRY_READ: how a host request is taken apart (R6, R7, R13 to R15,
R48, R358), and what a write does to every register (R8). A register whose write is a command of its own acts as that command
does.
-/

namespace Sys2Proof.Machine

/-- Flags cleared where a write holds 1 (R8, W1C): bits lo and up of the written word. -/
def w1c {w : Nat} (old : BitVec w) (v : BitVec 32) (lo : Nat) : BitVec w := old &&& ~~~(v.extractLsb' lo w)

/-- A flag after a W1C write of bit i. -/
def w1cBit (old : Bool) (v : BitVec 32) (i : Nat) : Bool := old && !bit v i

/-- Field of a written word. -/
def fld (v : BitVec 32) (lo w : Nat) : BitVec w := v.extractLsb' lo w

/-! ## GLB_, HQ_ and CTX_ -/

/-- A 32-bit write in the GLB_ block. `reply` is what host memory answers to the load that GLB_BOOT_GO starts (R39). -/
def State.glbWrite (s : State) (reply : HostReply) (off : Nat) (v : BitVec 32) : State :=
  match off with
  | 0x44 => s.act (execGlbBootGo reply)
  | 0x08 => s.modGlb fun g =>
      { g with earlyDoorbell := w1cBit g.earlyDoorbell v 4, hostwinBusy := w1cBit g.hostwinBusy v 5 }
  | 0x20 => s.modAon fun a => { a with history := w1c a.history v 16 }
  | 0x40 => s.modGlb fun g => { g with bootLen := v }
  | _ => s

/-- A write of the staging copy of a queue's configuration. -/
def State.stageQueue (s : State) (q : Fin 16) (f : QueueCfg → QueueCfg) : State :=
  s.modQueue q fun x => { x with cfg := x.cfg.stage f }

/-- A 32-bit write in the HQ_ block (R76). -/
def State.hqWrite (s : State) (off : Nat) (v : BitVec 32) : State :=
  if 0x1000 ≤ off then s
  else
    let q := Fin.ofNat 16 (off / 0x100)
    match off % 0x100 with
    | 0x00 => s.stageQueue q fun c =>
        { c with enable := bit v 0, ctx := (fld v 4 3).toFin, prio := fld v 8 2, nosnoop := bit v 12 }
    | 0x18 => s.stageQueue q fun c => { c with sqLog2 := fld v 0 4, cqLog2 := fld v 8 4 }
    | 0x20 => s.act (execHqCommit q)
    | 0x30 => s.modQueue q fun x =>
        { x with fetchErr := w1cBit x.fetchErr v 8, badDoorbell := w1cBit x.badDoorbell v 9,
                 dbInReset := w1cBit x.dbInReset v 10 }
    | _ => s

/-- A write of an entry in the staging copy of a parcel table. -/
def State.stageParcel (s : State) (c : Fin 8) (i : Fin 32) (f : Parcel → Parcel) : State :=
  s.modCtx c fun x => { x with table := x.table.stage fun t => upd t i f }

/-- LIMIT and SECONDS as they are stored (R291). -/
def escWindow (v : BitVec 10) : BitVec 10 := if v = 0 then 1 else if 600 < v.toNat then 600 else v

/-- A 32-bit write in the CTX_ block. Reserved bits of PT_BASE and PT_BOUND are dropped (R5); bit 6 of PT_ATTR's RIGHTS is kept,
so that the check of R85 finds it. Which of the two holds there the spec does not say: the model's choice (log entry 75). -/
def State.ctxWrite (s : State) (off : Nat) (v : BitVec 32) : State :=
  if off < 0x400 then
    let c := Fin.ofNat 8 (off / 0x80)
    match off % 0x80 with
    | 0x00 => s.act (execCtxReset c (bit v 0))
    | 0x04 => s.modCtx c fun x =>
        { x with done := w1cBit x.done v 16, sampleErr := w1cBit x.sampleErr v 17, sampleCut := w1cBit x.sampleCut v 18,
                 revoked := w1cBit x.revoked v 19 }
    | 0x38 => s.modCtx c fun x => { x with sampleEn := bit v 0 }
    | 0x3C => s.modCtx c fun x => { x with sampleSel := v }
    | _ => s
  else if off = 0x1000 then s.modEsc fun e => { e with limit := e.limit.stage fun _ => if fld v 0 4 = 0 then 1 else fld v 0 4 }
  else if off = 0x1004 then s.modEsc fun e => { e with window := e.window.stage fun _ => escWindow (fld v 0 10) }
  else if off = 0x1008 then s.act execCtxEscCommit
  else if 0x8000 ≤ off && off < 0xA000 then
    let c := Fin.ofNat 8 ((off - 0x8000) / 0x400)
    let i := Fin.ofNat 32 (off / 0x20)
    match off % 0x20 with
    | 0x0 => s.stageParcel c i fun p => { p with base := fld v 0 28 }
    | 0x4 => s.stageParcel c i fun p => { p with bound := fld v 0 29 }
    | 0x8 => s.stageParcel c i fun p => { p with space := fld v 0 8, rights := fld v 8 8 }
    | _ => s
  else if 0xA000 ≤ off && off < 0xA020 then s.act (execCtxPtCommit (Fin.ofNat 8 ((off - 0xA000) / 4)))
  else if 0xA020 ≤ off && off < 0xA040 then
    s.modCtx (Fin.ofNat 8 ((off - 0xA020) / 4)) fun x => { x with badEntry := w1cBit x.badEntry v 1 }
  else if 0xB000 ≤ off && off < 0xB200 && off % 0x40 = 0x30 then s.act (execCtxSpecClear (Fin.ofNat 8 ((off - 0xB000) / 0x40)))
  else s

/-! ## PWR_, SUP_ and TCK_ -/

/-- PWR_EVT_EN written; a set flag that it newly enables raises vector 40. -/
def State.writeEvtEn (s : State) (en : BitVec 5) : State :=
  let new := s.main.pwr.evt &&& en &&& ~~~s.main.pwr.evtEn
  (s.modPwr fun p => { p with evtEn := en }).raiseIf (new != 0) 40

/-- PWR_VSYS_WARN as it is stored: above 10, 10. -/
def warnLevel (v : BitVec 4) : BitVec 4 := if 10 < v.toNat then 10 else v

/-- A write of PWR_VSYS_WARN, through either port. -/
def State.writeVsysWarn (s : State) (v : BitVec 4) : State := s.modAon fun a => { a with vsysWarn := warnLevel v }

/-- A 32-bit write in the PWR_ block. -/
def State.pwrWrite (s : State) (off : Nat) (v : BitVec 32) : State :=
  match off with
  | 0x04 => s.modPwr fun p => { p with idleTrim := fld v 0 16 }
  | 0x08 => s.modPwr fun p => { p with idleHold := fld v 0 16 }
  | 0x0C => s.modPwr fun p => { p with idleDormant := fld v 0 16 }
  | 0x10 => s.writeForce (bit v 0)
  | 0x14 => s.modPwr fun p => { p with drainWait := fld v 0 16 }
  | 0x18 => s.act (execPwrPadRelease (bit v 0))
  | 0x20 =>
    let s := s.modPwr fun p => { p with evt := w1c p.evt (setBit v 1 false) 0 }
    if bit v 1 then s.noticeWrite else s
  | 0x24 => s.writeEvtEn (fld v 0 5)
  | 0x30 => s.writeVsysWarn (fld v 0 4)
  | 0x34 => s.modAon fun a => { a with dip := w1cBit a.dip v 1 }
  | 0x38 => s.modPwr fun p => { p with supEn := bit v 0 }
  | 0x40 => s.writeDiv (fld v 0 2)
  | 0x44 => s.modPwr fun p => { p with refused := w1cBit p.refused v 3 }
  | _ => s

/-- A 32-bit write in the SUP_ block. -/
def State.supWrite (s : State) (off : Nat) (v : BitVec 32) : State :=
  match off with
  | 0x00 => s.modSup fun x => { x with en := bit v 0 }
  | 0x1C => s.modSup fun x => { x with chargeEmpty := w1cBit x.chargeEmpty v 0, adcSat := w1cBit x.adcSat v 1 }
  | 0x20 => s.modSup fun x => { x with irqEn := bit v 0 }
  | _ => s

/-- A tick generator changed. -/
def State.modGen (s : State) (g : Fin 4) (f : TickGen → TickGen) : State :=
  s.modMain fun m => { m with gens := upd m.gens g f }

/-- TCK_GENg_CTRL written: a generator that stops adopts its pending pair at once (R252). -/
def TickGen.enable (x : TickGen) (en : Bool) : TickGen :=
  if en then { x with en := true } else { en := false, period := x.period.activate, phase := x.phase.activate }

/-- A 32-bit write in the TCK_ block. -/
def State.tckWrite (s : State) (off : Nat) (v : BitVec 32) : State :=
  if 0x100 ≤ off && off < 0x140 then
    let g := Fin.ofNat 4 ((off - 0x100) / 0x10)
    match off % 0x10 with
    | 0x0 => s.modGen g fun x => { x with period := x.period.stage fun _ => if v.toNat < 16 then 16 else v }
    | 0x4 => s.modGen g fun x => { x with phase := x.phase.stage fun _ => v }
    | 0x8 => s.modGen g fun x => x.enable (bit v 0)
    | _ => s
  else if off = 0x180 then s.act execTckCommit
  else s

/-! ## TRV_ -/

/-- A code of 2 bits of which 3 is stored as 0. -/
def not3 (x : BitVec 2) : BitVec 2 := if x = 3 then 0 else x

/-- A width code as it is stored: 5 to 7 as 0 (R237). -/
def widthCode (x : BitVec 3) : BitVec 3 := if 5 ≤ x.toNat then 0 else x

/-- TRV_CHAIN_LIMIT as it is stored (R232): 0 and values above 0x10_0000 as 0x10_0000. -/
def chainLimitOf (v : BitVec 32) : BitVec 21 :=
  let x : BitVec 21 := fld v 0 21
  if x = 0 || 0x100000 < x.toNat then 0x100000 else x

/-- TRV_CHn_CTRL written: PAUSE takes its value, then START, then CANCEL (R226, R241 to R243). -/
def State.writeChanCtrl (s : State) (ch : Fin 16) (v : BitVec 32) : State :=
  let s := if bit v 1 && !(s.chan ch).pause then s.act (execTrvPause ch)
    else if !bit v 1 && (s.chan ch).pause then s.act (execTrvResume ch) else s
  let s := if bit v 0 then s.act (execTrvStart ch) else s
  if bit v 2 then s.act (execTrvCancel ch) else s

/-- A 32-bit write of a channel's register. -/
def State.chanWrite (s : State) (ch : Fin 16) (off : Nat) (v : BitVec 32) : State :=
  match off with
  | 0x00 => s.writeChanCtrl ch v
  | 0x04 => s.modChan ch fun x =>
      { x with trig := not3 (fld v 0 2), tsel := (fld v 2 2).toFin, tch := (fld v 4 4).toFin, prio := fld v 8 2,
               crcSel := not3 (fld v 10 2), rearm := bit v 12 }
  | 0x08 => s.modChan ch fun x =>
      { x with fmt := x.fmt.stage fun _ =>
          { pack := bit v 0, sign := bit v 1, srcW := widthCode (fld v 2 3), dstW := widthCode (fld v 5 3) } }
  | 0x0C => s.act (execTrvChnCommit ch)
  | 0x10 => s.act (execTrvChnOwner ch (fld v 0 3).toFin (bit v 7))
  | 0x20 => s.modChan ch fun x => { x with kickOffset := fld v 3 16, kickStation := fld v 24 5, kickEn := bit v 31 }
  | 0x28 => s.modChan ch fun x =>
      { x with overrun := w1cBit x.overrun v 0, ownerBusy := w1cBit x.ownerBusy v 1, cancelled := w1cBit x.cancelled v 2,
               cancelRefused := w1cBit x.cancelRefused v 3 }
  | _ => s

/-- A 32-bit write in the TRV_ block. -/
def State.trvWrite (s : State) (off : Nat) (v : BitVec 32) : State :=
  if off < 0x800 then s.chanWrite (Fin.ofNat 16 (off / 0x80)) (off % 0x80) v
  else match off with
    | 0x800 => s.modMain fun m => { m with trvRetry := fld v 0 3 }
    | 0x804 => s.modMain fun m => { m with chainLimit := chainLimitOf v }
    | 0x808 => s.modMain fun m => { m with trvIrqMask := fld v 0 16 }
    | _ => s

/-! ## NFC_ -/

/-- A write of the staging copy of the NFC_ set. -/
def State.stageNfc (s : State) (f : NfcCfg → NfcCfg) : State := s.modNfc fun n => { n with cfg := n.cfg.stage f }

/-- NFC_IRQ_EN written; a set flag that it newly enables raises vector 45. -/
def State.writeNfcEn (s : State) (en : BitVec 3) : State :=
  let new := s.main.nfc.irqStat &&& en &&& ~~~s.main.nfc.irqEn
  (s.modNfc fun n => { n with irqEn := en }).raiseIf (new != 0) 45

/-- A 32-bit write in the NFC_ block. -/
def State.nfcWrite (s : State) (off : Nat) (v : BitVec 32) : State :=
  match off with
  | 0x18 => s.modNfc fun n => { n with bootWrite := bit v 0 }
  | 0x20 => s.stageNfc fun c => { c with tim0 := v }
  | 0x24 => s.stageNfc fun c => { c with tim1 := v &&& 0x00FFFFFF }
  | 0x30 => s.stageNfc fun c => { c with to0 := v }
  | 0x34 => s.stageNfc fun c => { c with to1 := v }
  | 0x38 => s.stageNfc fun c => { c with resetWait := fld v 0 16 }
  | 0x40 => s.stageNfc fun c => { c with ladder := v &&& 0x00FF01F3 }
  | 0x180 => s.act execNfcCommit
  | 0x380 => s.modNfc fun n => { n with histWidth := fld v 0 6 }
  | 0x3A0 => s.modNfc fun n => { n with irqStat := w1c n.irqStat v 0 }
  | 0x3A4 => s.writeNfcEn (fld v 0 3)
  | 0x3B0 => s.act execNfcCntClear
  | _ => s

/-! ## OKL_ -/

/-- OKL_ROUTE as it is stored: 3 as 0 for each chip. -/
def routeWord (v : BitVec 32) : BitVec 16 :=
  BitVec.ofNat 16 (((List.range 8).map fun c => (not3 (fld v (2 * c) 2)).toNat * 4 ^ c).foldl (· + ·) 0)

/-- OKL_IRQ_EN written; a set flag that it newly enables raises vector 43. -/
def State.writeOklEn (s : State) (en : BitVec 5) : State :=
  let new := s.main.link.irqStat &&& en &&& ~~~s.main.link.irqEn
  (s.modLink fun l => { l with irqEn := en }).raiseIf (new != 0) 43

/-- OKL_Pp_CTRL written: ENABLE set or cleared (R254, R258), then RETRAIN. -/
def State.writePortCtrl (s : State) (p : Fin 2) (v : BitVec 32) : State :=
  let s := if bit v 0 then s.modPort p fun x => { x with enable := true }
    else if (s.port p).enable then s.act (execPortDisable p) else s
  if bit v 1 then s.act (execRetrain p) else s

/-- A write of the staging copy of a binding. -/
def State.stageBind (s : State) (c : Fin 8) (f : Binding → Binding) : State :=
  s.modBind c fun b => { b with set := b.set.stage f }

/-- A 32-bit write of a context's binding registers. -/
def State.bindWrite (s : State) (c : Fin 8) (off : Nat) (v : BitVec 32) : State :=
  match off with
  | 0x00 => s.stageBind c fun b => { b with job := fld v 0 12, valid := bit v 15 }
  | 0x04 => s.stageBind c fun b => { b with base := fld v 0 28 }
  | 0x08 => s.stageBind c fun b => { b with bound := fld v 0 29 }
  | 0x0C => s.stageBind c fun b => { b with rights := fld v 0 2 }
  | 0x10 => s.act (execOklCtxCommit c)
  | 0x14 => s.modBind c fun b => { b with badBind := w1cBit b.badBind v 1, bindConflict := w1cBit b.bindConflict v 2 }
  | _ => s

/-- A 32-bit write in the OKL_ block. -/
def State.oklWrite (s : State) (off : Nat) (v : BitVec 32) : State :=
  if 0x100 ≤ off && off < 0x200 then s.bindWrite (Fin.ofNat 8 ((off - 0x100) / 0x20)) (off % 0x20) v
  else match off with
    | 0x08 => s.modLink fun l => { l with route := l.route.stage fun _ => routeWord v }
    | 0x0C => s.act execOklCommit
    | 0x10 => s.modLink fun l => { l with irqStat := w1c l.irqStat v 0 }
    | 0x14 => s.writeOklEn (fld v 0 5)
    | 0x40 => s.writePortCtrl 0 v
    | 0x80 => s.writePortCtrl 1 v
    | _ => s

/-! ## SER_, MGT_, IDK_ and FBK_ -/

/-- A write of the staging copy of a UART's configuration. -/
def State.stageSer (s : State) (u : Fin 2) (f : SerCfg → SerCfg) : State :=
  s.modUart u fun x => { x with cfg := x.cfg.stage f }

/-- A table entry of LIN as it is stored (R329): LEN 0 as 1 and above 8 as 8, DIR 3 as 0. -/
def linEntry (v : BitVec 32) : BitVec 7 :=
  let n := field v 3 0
  BitVec.ofNat 7 ((if n = 0 then 1 else if 8 < n then 8 else n) + (not3 (fld v 4 2)).toNat * 16 + bitN 6 (bit v 6))

/-- A 32-bit write in the SER_ block. -/
def State.serWrite (s : State) (off : Nat) (v : BitVec 32) : State :=
  if off < 0x200 then
    let u := Fin.ofNat 2 (off / 0x100)
    match off % 0x100 with
    | 0x00 => s.act (execSernDataWrite u (fld v 0 8))
    | 0x04 => s.modUart u fun x => { x with txLost := w1cBit x.txLost v 8, lpLost := w1cBit x.lpLost v 9 }
    | 0x08 => s.stageSer u fun c =>
        { c with dbits := fld v 0 2, parity := not3 (fld v 2 2), stop2 := bit v 4, rxen := bit v 5, txen := bit v 6 }
    | 0x0C => s.stageSer u fun c => { c with divisor := if field v 23 0 < 533 then 533 else fld v 0 24 }
    | 0x10 => s.act (execSernCommit u)
    | _ => s
  else if 0x300 ≤ off && off < 0x400 then
    s.modLin fun l => { l with tab := l.tab.set (Fin.ofNat 64 ((off - 0x300) / 4)) (linEntry v) }
  else match off with
    | 0x200 => s.stageSer 1 fun c =>
        { c with linEn := bit v 0, linRole := bit v 1, linAdapt := bit v 2,
                 linBreak := if 7 < field v 7 4 then 7 else fld v 4 4, linDelim := fld v 8 2 }
    | 0x204 => s.act (execSer1LinHdr (fld v 0 6) (bit v 8))
    | 0x208 => s.modLin fun l =>
        { l with done := w1cBit l.done v 24, err := w1cBit l.err v 25, wakeSeen := w1cBit l.wakeSeen v 26,
                 hdrLost := w1cBit l.hdrLost v 27, noise := w1cBit l.noise v 28 }
    | 0x210 => s.act (execSer1LinWake (fld v 0 13) (bit v 15))
    | _ => s

/-- A 32-bit write in the MGT_ block (R338). -/
def State.mgtStatWrite (s : State) (off : Nat) (v : BitVec 32) : State :=
  if off = 0 then s.modMgmt fun m => { m with timeout := w1cBit m.timeout v 8 } else s

/-- Word k of a key replaced. -/
def putWord (x : BitVec 512) (k : Nat) (v : BitVec 32) : BitVec 512 :=
  (x &&& ~~~((0xFFFFFFFF : BitVec 512) <<< (32 * k))) ||| (v.setWidth 512 <<< (32 * k))

/-- A 32-bit write in the IDK_ block (R346 to R349). -/
def State.idkRegWrite (s : State) (off : Nat) (v : BitVec 32) : State :=
  if 0x40 ≤ off && off < 0x80 then
    s.modIdk fun i => { i with pmkKey := i.pmkKey.stage fun k => putWord k ((off - 0x40) / 4) v }
  else match off with
    | 0x08 => s.modIdk fun i =>
        { i with burnRefused := w1cBit i.burnRefused v 9, keyBad := w1cBit i.keyBad v 10, vfyRefused := w1cBit i.vfyRefused v 12 }
    | 0x0C => s.act (execIdkPmkBurn v)
    | 0x20 => s.act execIdkVfyGo
    | 0x24 => s.act execIdkCommit
    | _ => s

/-- FBK_SLOT_SEL written, through either port (R358). -/
def State.writeSlotSel (s : State) (v : BitVec 4) : State := s.modAon fun a => { a with slotSel := v.toFin }

/-- A 32-bit write in the FBK_ block. -/
def State.fbkWrite (s : State) (off : Nat) (v : BitVec 32) : State :=
  match off with
  | 0x08 => s.act execFbkFlush
  | 0x0C => s.writeSlotSel (fld v 0 4)
  | 0x18 => s.act (execFbkDrvLog (fld v 0 8))
  | _ => s

/-! ## STN_ and SHM_ -/

/-- The fault record of a station cleared. -/
def Station.clearFault (t : Station) : Station :=
  { t with faultStatus := 0, faultValid := false, faultSecondary := false, faultSpec := false, faultPc := 0, faultInstr := 0,
           faultDetail := 0 }

/-- A post-processing set as it is stored (R153): POOL 3 as 0. -/
def ppsetOf (v : BitVec 32) : BitVec 8 := BitVec.ofNat 8 (field v 1 0 + (not3 (fld v 2 2)).toNat * 4 + field v 7 4 * 16)

/-- A register of a station written, where its block answers (R44, R299). -/
def State.stnSet (s : State) (n : Fin 24) (f : Station → Station) : State := s.stnWrite n fun s => s.modStation n f

/-- A 32-bit write in a station's block. -/
def State.stnRegWrite (s : State) (n : Fin 24) (off : Nat) (v : BitVec 32) : State :=
  if 0x2000 ≤ off && off < 0x2040 then
    s.stnSet n fun t => { t with ppset := t.ppset.set (Fin.ofNat 16 ((off - 0x2000) / 4)) (ppsetOf v) }
  else if 0x2200 ≤ off && off < 0x2280 then
    s.stnSet n fun t => t.tableWrite { array := Fin.ofNat 32 ((off - 0x2200) / 4), entry := none, value := v &&& 0x3FF }
  else if 0x8000 ≤ off then
    s.stnSet n fun t =>
      t.tableWrite { array := Fin.ofNat 32 ((off - 0x8000) / 0x400), entry := some (Fin.ofNat 256 (off % 0x400 / 4)), value := v }
  else match off with
    | 0x10 => s.stnSet n fun t => if bit v 16 then t.clearFault else t
    | 0x58 => s.act (execStnExecClear n)
    | 0x1418 => s.stnSet n fun t => { t with accStat := w1c t.accStat v 0 }
    | 0x1420 => s.act (execStnCntClear n)
    | 0x2300 => s.act (execStnBenchCtrl n (fld v 0 5).toFin (bit v 8))
    | 0x2304 => s.stnSet n fun t => { t with benchDone := w1cBit t.benchDone v 1, benchRefused := w1cBit t.benchRefused v 2 }
    | 0x2400 => s.stnSet n fun t => { t with qntStat := w1c t.qntStat v 0 }
    | _ => s.stnWrite n id

/-- A 32-bit write in the SHM_ block. -/
def State.shmWrite (s : State) (off : Nat) (v : BitVec 32) : State :=
  match off with
  | 0x00 => s.act (execShmMode (bit v 0))
  | 0x08 => s.modShm fun m => { m with modeBusy := w1cBit m.modeBusy v 0 }
  | 0x10 => s.act execShmCntClear
  | _ => s

/-! ## Writes of BAR0 -/

/-- Whether writes of an offset reach its block (R42). A station's block decides for itself (R44, R299). -/
def State.takesWrite (s : State) (a : Nat) : Bool :=
  s.serving || (s.running && (a / 0x10000 == 0 || a / 0x10000 == 3 || a / 0x10000 == 0x0D))

/-- A 32-bit write of a 32-bit register in a block that is no station's (R8). -/
def State.blockWrite (s : State) (reply : HostReply) (block off : Nat) (v : BitVec 32) : State :=
  match block with
  | 0x00 => s.glbWrite reply off v
  | 0x01 => s.hqWrite off v
  | 0x02 => s.ctxWrite off v
  | 0x03 => s.pwrWrite off v
  | 0x05 => s.trvWrite off v
  | 0x06 => s.nfcWrite off v
  | 0x07 => s.oklWrite off v
  | 0x08 => s.serWrite off v
  | 0x09 => s.mgtStatWrite off v
  | 0x0A => s.idkRegWrite off v
  | 0x0B => s.fbkWrite off v
  | 0x0C => s.supWrite off v
  | 0x0D => s.tckWrite off v
  | 0x40 => s.shmWrite off v
  | _ => s

/-- A 32-bit write of a 32-bit register (R8). -/
def State.write32 (s : State) (reply : HostReply) (a : Nat) (v : BitVec 32) : State :=
  if !s.takesWrite a then s
  else match stnOf a with
    | some n => s.stnRegWrite n (a % 0x10000) v
    | none => s.blockWrite reply (a / 0x10000) (a % 0x10000) v

/-- The staged 64-bit registers of the NFC_ block; reserved bits stay zero (R5). -/
def State.nfcWide (s : State) (off : Nat) (w : W64) : State :=
  let feat := fun (x : BitVec 64) => applyW64 x w &&& 0x0000FFFFFFFF00FF
  if off = 0x48 then s.stageNfc fun c => { c with retryDef := feat c.retryDef }
  else if h : 0x50 ≤ off ∧ off < 0x68 then
    s.stageNfc fun c => { c with soft := upd c.soft ⟨(off - 0x50) / 8, by omega⟩ feat }
  else if 0x80 ≤ off && off < 0x100 then
    s.stageNfc fun c => { c with retry := upd c.retry (Fin.ofNat 16 ((off - 0x80) / 8)) feat }
  else if 0x100 ≤ off && off < 0x180 then
    s.stageNfc fun c =>
      { c with prof := upd c.prof (Fin.ofNat 16 ((off - 0x100) / 8)) fun x => applyW64 x w &&& 0xFFFFFFFF0000173F }
  else s

/-- A write of a 64-bit register in a block that is no station's, whole or by one half (R6, R7). An RS register takes none but
SUP_CHARGE (R363). -/
def State.blockWrite64 (s : State) (block off : Nat) (w : W64) : State :=
  match block with
  | 0x00 =>
    if off = 0x38 then s.modGlb fun g => { g with bootAddr := applyW64 g.bootAddr w }
    else if off = 0x50 then s.act (execGlbHostwin w)
    else s
  | 0x01 =>
    if 0x1000 ≤ off then s.act (execHqMark (Fin.ofNat 64 ((off - 0x1000) / 8)) w)
    else if off % 0x100 = 0x08 then
      s.stageQueue (Fin.ofNat 16 (off / 0x100)) fun c => { c with sqBase := applyW64 c.sqBase w }
    else if off % 0x100 = 0x10 then
      s.stageQueue (Fin.ofNat 16 (off / 0x100)) fun c => { c with cqBase := applyW64 c.cqBase w }
    else s
  | 0x02 =>
    if off < 0x400 && off % 0x80 = 0x30 then
      s.modCtx (Fin.ofNat 8 (off / 0x80)) fun x => { x with sampleAddr := applyW64 x.sampleAddr w &&& 0xFFFFFFFFFFFFF000 }
    else s
  | 0x05 =>
    if off < 0x800 && off % 0x80 = 0x18 then
      s.modChan (Fin.ofNat 16 (off / 0x80)) fun x => { x with head := applyW64 x.head w &&& 0x000000FFFFFFFFFF }
    else s
  | 0x06 => s.nfcWide off w
  | 0x08 =>
    if 0x400 ≤ off then s.modLin fun l => { l with buf := upd l.buf (Fin.ofNat 64 ((off - 0x400) / 8)) fun x => applyW64 x w }
    else s
  | 0x0A => if off = 0x18 then s.modIdk fun i => { i with vfyReq := applyW64 i.vfyReq w &&& 0x000000FFFFFFFFC0 } else s
  | 0x0B => if off = 0x10 then s.modMain fun m => { m with fbkDrv := m.fbkDrv.stage fun x => applyW64 x w } else s
  | 0x0C =>
    if off = 0x08 then s.act (execSupCharge w)
    else if off = 0x10 then s.modSup fun x => { x with emptyLevel := applyW64 x.emptyLevel w }
    else s
  | _ => s

/-- A write of a 64-bit register, whole or by one half (R6, R7). -/
def State.write64 (s : State) (a : Nat) (w : W64) : State :=
  if !s.takesWrite a then s
  else match stnOf a with
    | some n => s.stnWrite n id
    | none => s.blockWrite64 (a / 0x10000) (a % 0x10000) w

/-- Whether a 64-bit register's low word stands at an offset (R359). -/
def State.isWide (s : State) (a : Nat) : Bool :=
  a % 8 == 0 && match s.bar0 a with
    | .r64 _ => true
    | .rs _ => true
    | _ => false

/-- A doubleword of a request written, where it has one. -/
def State.writeOpt (s : State) (reply : HostReply) (a : Nat) (v : Option (BitVec 32)) : State :=
  match v with
  | some x => s.write32 reply a x
  | none => s

/-- The two doublewords of a request within 8 bytes from a multiple of 8 (R6, R7). Where a request covers both halves of a
64-bit register wholly it is a 64-bit write of it, wherever the request starts: that "an address that is a multiple of 8" is the
register's and not the request's is the model's reading (log entry 75). -/
def State.writePair (reply : HostReply) (off : Nat) (lanes : List (Option Byte)) (s : State) (a : Nat) : State :=
  let lo := reqWord off lanes a
  let hi := reqWord off lanes (a + 4)
  if s.isWide a then
    match lo, hi with
    | some l, some h => s.write64 a (.both (h ++ l))
    | some l, none => s.write64 a (.low l)
    | none, some h => s.write64 a (.high h)
    | none, none => s
  else (s.writeOpt reply a lo).writeOpt reply (a + 4) hi

/-- A memory write to BAR0 (R6): a doubleword at a time, in ascending order. -/
def State.barWrite (s : State) (reply : HostReply) (off : Nat) (lanes : List (Option Byte)) : State :=
  (groupsOf 8 off lanes.length).foldl (State.writePair reply off lanes) s

/-- REGISTER_WRITE (R6 to R9, R47, R48, R53): a host write. -/
def execRegisterWrite (r : HostWrite) (reply : HostReply) (s : State) : Host.Outcome State Fault Refusal :=
  .next <|
    let s := { s with readUr := r.window == Window.unsupported }
    match r.window with
    | .bar0 => s.barWrite reply r.off.toNat r.lanes
    | .bar2 => s.msixPageWrite r.off.toNat r.lanes
    | .bar4 => s.doorbellPageWrite r.off.toNat r.lanes
    | .config c => s.configWrite c r.off.toNat r.lanes
    | .unsupported => s

/-! ## Reads of BAR0 -/

/-- A snapshot taken (R14). -/
def Main.snap (m : Main) (a : Nat) (v : BitVec 32) : Main := { m with snaps := noteAt m.snaps a v }

/-- The snapshot of the RS register at an offset (R14). -/
def Main.snapOf (m : Main) (a : Nat) : Option (BitVec 32) := notedAt m.snaps a

/-- An access to a station's block in Hold is noted (R299). -/
def State.noteStation (s : State) (a : Nat) : State :=
  if (stnOf a).isSome && s.serving && s.main.pwr.state == .hold then s.powerEvent 0x10 else s

/-- A read of a 32-bit register: its value, and the state after it. SERn_DATA and SERn_STAT have effects of their own
(R324). -/
def State.readReg32 (s : State) (a : Nat) : BitVec 32 × State :=
  let by' := fun (t : State) => (word 32 t.readData, t)
  if a = 0x080000 then by' (s.act (execSernDataRead 0))
  else if a = 0x080100 then by' (s.act (execSernDataRead 1))
  else if a = 0x080004 then by' (s.act (execSernStatRead 0))
  else if a = 0x080104 then by' (s.act (execSernStatRead 1))
  else (s.liveWord a, s.noteStation a)

/-- Whether an offset lies in the windows FBK_RING and FBK_SLOT. -/
def inFieldBook (a : Nat) : Bool := 0x0B1000 ≤ a && a < 0x0B4000

/-- The 8 bytes of a field-book entry at an offset, live. -/
def State.fbBytes (s : State) (a : Nat) : BitVec 64 := s.liveWord (a + 4) ++ s.liveWord a

/-- A read within 8 bytes of a field-book entry (R358, R14): one of bytes 0 to 7 latches bytes 8 to 15 of that entry, which a
read of them returns. -/
def State.readEntry (s : State) (a : Nat) : BitVec 64 × State :=
  let entry := a / 16 * 16
  if !s.serving then (0, s)
  else if a = entry then
    (s.fbBytes a, s.modMain fun m => { m with fbLatches := noteAt m.fbLatches entry (s.fbBytes (entry + 8)) })
  else ((notedAt s.main.fbLatches entry).getD (s.fbBytes a), s)

/-- A read within the 8 bytes from a multiple of 8, of the lower word, the upper, or both (R6, R13, R14): a read of an RS
register that covers a byte of its low word latches its high word, and one of its high word alone returns the snapshot. -/
def State.readGroup (s : State) (a : Nat) (low high : Bool) : BitVec 64 × State :=
  if inFieldBook a then s.readEntry a
  else match s.reg a with
    | .rs v =>
      if low then (v, s.modMain fun m => m.snap a (v.extractLsb' 32 32))
      else ((s.main.snapOf a).getD (v.extractLsb' 32 32) ++ (0 : BitVec 32), s)
    | .r64 v => (v, s)
    | _ =>
      let lo := if low then s.readReg32 a else (0, s)
      let hi := if high then lo.2.readReg32 (a + 4) else (0, lo.2)
      (hi.1 ++ lo.1, hi.2)

/-- The part of a request of n bytes from an offset that lies within 8 bytes from a multiple of 8. -/
def State.readPart (off n : Nat) (acc : List Byte × State) (a : Nat) : List Byte × State :=
  let r := acc.2.readGroup a (off < a + 4) (a + 4 < off + n)
  (acc.1 ++ ((toBytes r.1 8).drop (off - a)).take (off + n - max off a), r.2)

/-- A memory read of BAR0 (R6, R13, R14): its bytes are left in `readData`. -/
def State.barRead (s : State) (off n : Nat) : State :=
  let r := (groupsOf 8 off n).foldl (State.readPart off n) ([], s)
  { r.2 with readData := r.1 }

/-- LOW_WORD_READ (R6, R13, R14, R48, R53): a host read. -/
def execLowWordRead (r : HostRead) (s : State) : Host.Outcome State Fault Refusal :=
  .next <|
    let s := { s with readUr := r.window == Window.unsupported }
    match r.window with
    | .bar0 => s.barRead r.off.toNat r.len
    | .bar2 => { s with readData := bytesOf s.msixByte r.off.toNat r.len }
    | .bar4 => { s with readData := zeros r.len }
    | .config c => { s with readData := bytesOf (s.configByte c) r.off.toNat r.len }
    | .unsupported => { s with readData := [] }

/-- FIELD_BOOK_ENTRY_READ (R358): a 64-bit read in the windows of the field book. -/
def execFieldBookEntryRead (off : BitVec 24) (s : State) : Host.Outcome State Fault Refusal :=
  .next (s.barRead (off.toNat / 8 * 8) 8)

end Sys2Proof.Machine
end

