-- ==== Sys2Proof/Machine/Mgmt.lean ====
section
/-!
DEFINITION. The management port (R335 to R340): its item map, reads that capture items, writes, MGT_PWR_CMD, the bus
timeout and the refresh of its copies.
-/

namespace Sys2Proof.Machine

/-- Whether the port serves transactions: not before the straps are latched, and not in Dormant (R340). -/
def State.mgtUp (s : State) : Bool :=
  match s.phase with
  | .strapWait | .dormant => false
  | _ => true

/-- The item that holds an address: its lowest address and its length (R339). -/
def mgtItem (a : Nat) : Option (Nat × Nat) :=
  if 0x1000 ≤ a && a < 0x4000 then some (a / 16 * 16, 16)
  else if 0x4000 ≤ a && a < 0x4400 then some (0x4000, 1024)
  else [(0x0000, 4), (0x0004, 1), (0x0008, 4), (0x000C, 2), (0x0010, 1), (0x0011, 1), (0x0014, 2), (0x0018, 8), (0x0020, 2),
    (0x0024, 1), (0x0028, 2)].find? fun i => i.1 ≤ a && a < i.1 + i.2

/-- MGT_STATE (R339). -/
def State.mgtState (s : State) : Nat :=
  if s.serving then
    s.main.pwr.state.code + bitN 2 s.main.glb.ready + bitN 3 s.main.glb.outOfService + bitN 4 s.main.glb.bootFailed
  else 0x20

/-- SUP_VSYS and SUP_CHARGE as the port gives them: live in Run, the copy in Trim and Hold, zero while the main domain is
down (R338, R339). -/
def State.mgtVsys (s : State) : BitVec 13 :=
  if !s.serving then 0 else if s.main.pwr.state == .run then s.main.sup.vsys else s.aon.mgmt.vsysCopy
/-- SUP_CHARGE as the port gives it. -/
def State.mgtCharge (s : State) : BitVec 64 :=
  if !s.serving then 0 else if s.main.pwr.state == .run then s.main.sup.charge else s.aon.mgmt.chargeCopy

/-- The certificate as the port gives it: nothing until the boot ROM has copied it (R339). -/
def State.mgtCert (s : State) : List Byte := if s.aon.certReady then s.otp.certBytes else []

/-- The live bytes of the item at an address (R339). -/
def State.mgtLive (s : State) (base : Nat) : List Byte :=
  let n := fun (x k : Nat) => toBytes (BitVec.ofNat 64 x) k
  if 0x4000 ≤ base then padTo 1024 s.mgtCert
  else if 0x3000 ≤ base then padTo 16 (s.slots[s.aon.slotSel].drop (base - 0x3000))
  else if 0x1000 ≤ base then toBytes (s.aon.ring.getD ((base - 0x1000) / 16) 0) 16
  else match base with
    | 0x00 => n 0x4C4724B0 4
    | 0x04 => n s.mgtState 1
    | 0x08 => n s.aon.rstCause 4
    | 0x0C => n s.aon.rstCount.toNat 2
    | 0x10 => n s.aon.supStat 1
    | 0x11 => n s.aon.vsysWarn.toNat 1
    | 0x14 => n s.mgtVsys.toNat 2
    | 0x18 => n s.mgtCharge.toNat 8
    | 0x20 => n s.aon.fbHead.val 2
    | 0x24 => n s.aon.slotSel.val 1
    | 0x28 => n s.mgtCert.length 2
    | _ => []

/-- The port's capture of an item (R337). -/
def Mgmt.capture (m : Mgmt) (base : Nat) (bs : List Byte) : Mgmt :=
  { m with captures := noteAt m.captures base bs }

/-- One byte of a read (R336, R337), and the state after it: a read of an item's lowest byte captures the whole item. An item
that was never captured gives its live bytes. -/
def State.mgtByte (s : State) (a : Nat) : Byte × State :=
  match mgtItem a with
  | none => (0, s)
  | some (base, len) =>
    let live := s.mgtLive base
    if len = 1 then (live.getD 0 0, s)
    else if a = base then (live.getD 0 0, s.modMgmt fun m => m.capture base live)
    else
      match notedAt s.aon.mgmt.captures base with
      | some bs => (bs.getD (a - base) 0, s)
      | none => (live.getD (a - base) 0, s)

/-- The bytes of a read from an address, which advances by 1 after each (R336). -/
def State.mgtReadBytes (s : State) (a : Nat) : Nat → List Byte × State
  | 0 => ([], s)
  | n + 1 =>
    let r := s.mgtByte a
    let t := r.2.mgtReadBytes ((a + 1) % 65536) n
    (r.1 :: t.1, t.2)

/-- MGT_READ (R335 to R337, R340). A transaction for another address, the general call, a START byte and a 10-bit prefix among them, is
not acknowledged. While the port does not serve, SDA is released. -/
def execMgtRead (addr : MgtAddr) (count : Nat) (s : State) : Host.Outcome State Fault Refusal :=
  .next <|
    if addr.bus != s.aon.mgtBus then { s with mgtData := [] }
    else if s.mgtUp then
      let r := s.mgtReadBytes addr.item.toNat count
      { r.2 with mgtData := r.1 }
    else { s with mgtData := List.replicate count 0xFF }

/-! ## MGT_PWR_CMD (R339) -/

/-- Bit 0 or bit 1: PWR_FORCE.HOLD (R297). -/
def State.mgtHold (s : State) (hold : Bool) : State := s.when s.serving fun s => s.writeForce hold

/-- Bit 2: a field-book flush, also while the main domain is down. -/
def State.mgtFlush (s : State) : State := s.when s.mgtUp fun s => (s.flush 0x0FF).noticeCheck

/-- Bit 3: the pad-hold latches are released (R314). -/
def State.mgtPads (s : State) : State := s.when s.serving State.releasePads

/-- A byte written to MGT_PWR_CMD: bits 0 and 1 together do nothing. -/
def State.mgtPwrCmd (s : State) (b : Byte) : State :=
  let s := if bit b 0 != bit b 1 then s.mgtHold (bit b 0) else s
  let s := if bit b 2 then s.mgtFlush else s
  if bit b 3 then s.mgtPads else s

/-- MGT_PWR_CMD bit 0. -/
def execMgtPwrCmdHoldSet (s : State) : Host.Outcome State Fault Refusal := .next (s.mgtHold true)
/-- MGT_PWR_CMD bit 1. -/
def execMgtPwrCmdHoldClear (s : State) : Host.Outcome State Fault Refusal := .next (s.mgtHold false)
/-- MGT_PWR_CMD bit 2. -/
def execMgtPwrCmdFlush (s : State) : Host.Outcome State Fault Refusal := .next s.mgtFlush
/-- MGT_PWR_CMD bit 3. -/
def execMgtPwrCmdPadRelease (s : State) : Host.Outcome State Fault Refusal := .next s.mgtPads

/-! ## Writes -/

/-- A byte written at an address. Every writable item is one byte long, so its highest byte is its lowest (R337). -/
def State.mgtPut (s : State) (a : Nat) (b : Byte) : State :=
  if a = 0x0011 then s.writeVsysWarn (b.setWidth 4)
  else if a = 0x0024 then s.writeSlotSel (b.setWidth 4)
  else if a = 0x0100 then s.mgtPwrCmd b
  else s

/-- The bytes of a write from an address (R336). -/
def State.mgtPutBytes (s : State) (a : Nat) : List Byte → State
  | [] => s
  | b :: t => (s.mgtPut a b).mgtPutBytes ((a + 1) % 65536) t

/-- MGT_WRITE (R335 to R337, R340). -/
def execMgtWrite (addr : MgtAddr) (bytes : List (BitVec 8)) (s : State) : Host.Outcome State Fault Refusal :=
  .next (s.when (s.mgtUp && addr.bus == s.aon.mgtBus) fun s => s.mgtPutBytes addr.item.toNat bytes)

/-! ## Timeout and copies (R338) -/

/-- BUS_TIMEOUT (R338): the port is idle again, and MGT_STAT.TIMEOUT is set. -/
def execBusTimeout (s : State) : Host.Outcome State Fault Refusal :=
  .next (s.when s.mgtUp fun s => s.modMgmt fun m => { m with timeout := true })

/-- MGT_COPY_REFRESH (R338): the copies that the port gives in Trim and Hold. -/
def execMgtCopyRefresh (vsys : BitVec 13) (s : State) : Host.Outcome State Fault Refusal :=
  .next <| s.when s.serving fun s =>
    let s := s.modSup fun x => { x with vsys := vsys }
    s.modMgmt fun m => { m with vsysCopy := vsys, chargeCopy := s.main.sup.charge }

end Sys2Proof.Machine
end

