-- ==== Sys2Proof/Machine/Banks.lean ====
section
/-!
DEFINITION. The banks of station and shared memory (R78, R79, R81, R82): which bank an address lies in, the order in which a bank
serves its ports or requesters, and the counters of waiting (R99). When an engine asks for which address is free (Config).
-/

namespace Sys2Proof.Machine

/-! ## Station memory -/

/-- The bank of a station-memory offset (R78). -/
def stnBank (off : Nat) : Fin 12 := Fin.ofNat 12 (off / 0x8000)

/-- Whether the engine behind a port is at work: 0 sequencer, 1 traverse, 2 DMU, 3 vector, 4 arrays, in the order of R79. -/
def Station.portActive (t : Station) (trv : Bool) (e : Fin 5) : Bool :=
  match e with
  | 0 => t.running
  | 1 => trv
  | 2 => !t.dmuQ.isEmpty
  | 3 => !t.vecQ.isEmpty
  | 4 => !t.arrQ.isEmpty

/-- The port e waits where a port before it in the order of R79 requests the same bank. -/
def portWaits (req : Vector (Option (BitVec 19)) 5) (e : Fin 5) : Option (BitVec 19) :=
  req[e].filter fun a => (List.finRange 5).any fun d => d < e && req[d].any fun b => stnBank b.toNat == stnBank a.toNat

/-- One station clock of the banks: a port that was not served requests again, an engine at work may request; each port that is not
served adds 1 to the counter of its bank and engine (R79, R99). -/
def Station.bankClock (t : Station) (trv : Bool) (want : Fin 5 → Option (BitVec 19)) : Station :=
  let req := Vector.ofFn fun e =>
    match t.ports[e] with
    | some a => some a
    | none => if t.portActive trv e then want e else none
  { t with ports := Vector.ofFn (portWaits req),
           conflicts := (List.finRange 5).foldl (fun c e =>
             match portWaits req e with
             | some a => upd c (Fin.ofNat 60 ((stnBank a.toNat).val * 5 + e.val)) (· + 1)
             | none => c) t.conflicts }

/-- Whether two engines of a station may meet at a bank. -/
def Station.contends (t : Station) (trv : Bool) : Bool :=
  2 ≤ (List.finRange 5).countP (t.portActive trv) || t.ports.toList.any Option.isSome

/-- k station clocks of a station's banks, where two of its engines may meet; `want` is what a port requests in a clock. -/
def Station.bankClocks (t : Station) (trv : Bool) (k : Nat) (want : Nat → Fin 5 → Option (BitVec 19)) : Station :=
  if t.contends trv then (List.range k).foldl (fun t i => t.bankClock trv (want i)) t else t

/-- k station clocks of the banks of every station. -/
def State.stationBanks (s : State) (k : Nat) : State :=
  let trv := (List.finRange 16).any fun ch => (s.chan ch).state == .running
  s.modMain fun m => { m with stations := Vector.ofFn fun n =>
    (m.stations[n]).bankClocks trv k fun i e => Config.portRequest s.stamp m.time.toNat i n.val e.val }

/-! ## Shared memory -/

/-- The bank of an address of shared memory (R81). -/
def shmBank (split : Bool) (a : Nat) : Fin 64 :=
  if !split then Fin.ofNat 64 (a / 256 % 64)
  else if a < 0xA000000 then Fin.ofNat 64 (a / 256 % 40)
  else if a < 0xE000000 then Fin.ofNat 64 (40 + (a - 0xA000000) / 256 % 16)
  else Fin.ofNat 64 (56 + (a - 0xE000000) / 256 % 8)

/-- Whether a requester of R82 is at work: the stations, then the traverse engine, the NAND controller, the Orokai Link, the reset
controller and the identity block. -/
def State.shmActive (s : State) (r : Fin 29) : Bool :=
  if h : r.val < 24 then (s.station ⟨r.val, h⟩).running
  else match r.val with
    | 24 => (List.finRange 16).any fun ch => (s.chan ch).state == .running
    | 25 => s.nandBusy
    | 26 => (List.finRange 2).any fun p => (s.port p).state != 0
    | 27 => (List.finRange 8).any fun c => (s.ctx c).reset.isSome
    | _ => s.main.idk.sigBusy.isSome

/-- The requester that a bank grants: the first in rotation behind the one that it granted last (R82). -/
def Shm.grant (m : Shm) (req : Vector (Option (BitVec 28)) 29) (b : Fin 64) : Option (Fin 29) :=
  ((List.range 29).map fun i => Fin.ofNat 29 (m.granted[b].val + 1 + i)).find? fun r =>
    req[r].any fun a => shmBank m.split a.toNat == b

/-- One fabric clock of the banks: each grants one requester, and each other one that waits adds 1 to its counter (R82). -/
def Shm.bankClock (m : Shm) (active : Fin 29 → Bool) (want : Fin 29 → Option (BitVec 28)) : Shm :=
  let req := Vector.ofFn fun r =>
    match m.waits[r] with
    | some a => some a
    | none => if active r then want r else none
  let waits := fun (r : Fin 29) => req[r].filter fun a => m.grant req (shmBank m.split a.toNat) != some r
  { m with waits := Vector.ofFn waits,
           granted := Vector.ofFn fun b => (m.grant req b).getD m.granted[b],
           conflicts := (List.finRange 29).foldl (fun c r =>
             match waits r with
             | some a => upd c (shmBank m.split a.toNat) (· + 1)
             | none => c) m.conflicts }

/-- The fabric clocks of the banks of shared memory in one peripheral clock. -/
def State.shmBanks (s : State) : State :=
  s.when (2 ≤ (List.finRange 29).countP s.shmActive || s.main.shm.waits.toList.any Option.isSome) fun s =>
    s.modShm fun m => (List.range 6).foldl (fun m i => m.bankClock s.shmActive fun r => Config.shmRequest s.stamp s.main.time.toNat i r.val) m

end Sys2Proof.Machine
end

