-- ==== Sys2Proof/Machine/Clock.lean ====
section
/-!
DEFINITION. What one peripheral clock (10 ns) does by itself: TCK_TIME counts (R27), and the station clocks within it are
counted by the stations, their jobs and the contexts (R66, R93, R94, R99, R108), by the banks of the memories (R79, R82) and by a LIN
header (R334). This is what a step does when no command
waits.
-/

namespace Sys2Proof.Machine

/-- Station clocks in one peripheral clock at a divider: 1.2 GHz, 800, 600 and 300 MHz (R28). -/
def clocksPerTick (div : BitVec 2) : Nat := [12, 8, 6, 3].getD div.toNat 3

/-- A count that goes on where its condition holds. -/
def countIf (c : Bool) (x : BitVec 64) (k : Nat) : BitVec 64 := if c then x + BitVec.ofNat 64 k else x

/-- A station's counters over k station clocks: what it waits for names the counter. -/
def Station.clocks (t : Station) (k : Nat) : Station :=
  if !t.running then t
  else
    { t with busy := t.busy + BitVec.ofNat 64 k,
             syncWait := countIf (t.markWait.isSome || t.barWait.isSome) t.syncWait k,
             regWait := countIf (t.stalls.contains .reg) t.regWait k,
             sbWait := countIf (t.stalls.contains .overlap) t.sbWait k,
             sbFull := countIf (t.stalls.contains .entries) t.sbFull k,
             queueFull := countIf (t.stalls.contains .queue) t.queueFull k }

/-- A job's CYCLES over k station clocks: they count while it holds a station (R66). -/
def Job.clocks (j : Job) (k : Nat) : Job :=
  if j.phase == .running && j.stations != 0 then { j with cycles := j.cycles + k } else j

/-- The stations of a context that wait for a closure-buffer entry (CTX_c_CB_FULL). -/
def Main.closureWaits (m : Main) (c : Fin 8) : Nat :=
  (List.finRange 24).countP fun n =>
    let t := m.stations[n]
    t.running && t.ctx == c && t.stalls.contains .closure

/-- k station clocks pass. -/
def Main.stationClocks (m : Main) (k : Nat) : Main :=
  { m with stations := Vector.ofFn fun n => (m.stations[n]).clocks k,
           queues := Vector.ofFn fun q => let x := m.queues[q]; { x with jobs := x.jobs.map fun j => j.clocks k },
           ctxs := Vector.ofFn fun c =>
             let x := m.ctxs[c]
             { x with cbFull := x.cbFull + BitVec.ofNat 64 (k * m.closureWaits c) } }

/-- The fabric clocks of one peripheral clock: 600 MHz against 100 MHz (R28). -/
def State.fabricTicks (s : State) : State :=
  s.fabricTick.fabricTick.fabricTick.fabricTick.fabricTick.fabricTick

/-- One peripheral clock: nothing where the main domain does not run. Station clocks are gated in Trim and off in Hold, and so is
the fabric clock in Hold (R292). -/
def State.clockTick (s : State) : State :=
  if !s.running then s
  else
    let s := s.modMain fun m => { m with time := m.time + 1 }
    let s := s.when (s.stationsOn && s.lin.linEn && s.main.lin.inFrame) fun s =>
      s.modLin fun l => l.headerClock s.lin (Config.headerMoves s.stamp s.time.toNat)
    let k := clocksPerTick s.main.pwr.effDiv
    let s := s.when (s.serving && s.main.pwr.state == .run) fun s => (s.modMain fun m => m.stationClocks k).stationBanks k
    s.when (s.serving && s.main.pwr.state != .hold) fun s => s.fabricTicks.shmBanks

end Sys2Proof.Machine
end

