-- ==== Sys2Proof/Machine/Sync.lean ====
section
/-!
DEFINITION. The S class and what completes it (R96, R113 to R115, R142): mark signals and waits, barriers, FENCE.
-/

namespace Sys2Proof.Machine

/-! ## Marks -/

/-- A mark signal issued (R115): under an epoch it is held, otherwise it waits to become visible (R96). -/
def State.issueSignal (s : State) (n : Fin 24) (w : BitVec 64) : State :=
  let t := s.station n
  let v := t.rg (sRb w)
  let tag := s.tagOf n
  let s := (s.modStation n fun t => t.advance).retire n
  match tag with
  | some e => s.modCtx t.ctx fun x => { x with held := x.held ++ [⟨e, .msig n (sMark w) v t.issueSeq⟩] }
  | none => s.modStation n fun t => { t with signals := t.signals ++ [{ mark := sMark w, value := v, seq := t.issueSeq }] }

/-- MSIG (R115, R142). -/
def execMsig (n : Fin 24) (w : BitVec 52) (s : State) : Host.Outcome State Fault Refusal :=
  let x := wordOf 7 0x01 w
  .next <| s.issue n x { gs := [sRb x], reasons := reserved (field x 40 0), held := (s.tagOf n).isSome } fun s =>
    s.issueSignal n x

/-- MARK_SIGNAL_VISIBLE (R96): a station's oldest signal takes effect once every write it follows has been applied. -/
def execMarkSignalVisible (n : Fin 24) (s : State) : Host.Outcome State Fault Refusal :=
  .next <| match (s.station n).signals with
    | [] => s
    | g :: rest =>
      s.when (s.serving && (s.station n).writesBefore g.seq) fun s =>
        ((s.addMark g.mark g.value).modStation n fun t => { t with signals := rest }).settle n

/-- MWAIT (R115): satisfied, it retires; otherwise the station waits at it. -/
def execMwait (n : Fin 24) (w : BitVec 52) (s : State) : Host.Outcome State Fault Refusal :=
  let x := wordOf 7 0x02 w
  .next <| s.issue n x { gs := [sRb x], reasons := reserved (field x 40 0) } fun s =>
    let v := (s.station n).rg (sRb x)
    if v ≤ s.main.marks[sMark x] then (s.modStation n fun t => t.advance).retire n
    else s.modStation n fun t => { t with markWait := some (sMark x, v) }

/-- MARK_WAIT_END (R115): the mark has reached the threshold, and the wait retires. -/
def execMarkWaitEnd (n : Fin 24) (s : State) : Host.Outcome State Fault Refusal :=
  .next <| match (s.station n).markWait with
    | none => s
    | some (m, v) =>
      s.when (s.stationsOn && v ≤ s.main.marks[m]) fun s =>
        (s.modStation n fun t => { t.advance with markWait := none }).retire n

/-! ## Barriers (R113, R114) -/

/-- The stations of a job, as its descriptor selected them. -/
def State.jobStations (s : State) (q : Fin 16) (order : Nat) : BitVec 24 :=
  ((s.jobOrder q order).map Job.stationMask).getD 0

/-- A station that waits at a barrier of a job. -/
def Station.waitsAt (t : Station) (q : Fin 16) (order : Nat) : Option BarWait :=
  if t.inJob q order && !t.stopping then t.barWait else none

/-- ILLEGAL_INSTR of a barrier on a station that has arrived, or arrives with that instruction (R114): without an epoch the job
stops, under one the fault is latched and issue goes on behind the barrier. -/
def State.barFault (s : State) (n : Fin 24) (reason : Nat) (word : BitVec 64) : State :=
  let t := s.station n
  match s.tagOf n with
  | some e =>
    (s.modStation n fun t => { t.advance with barWait := none, stalls := [] }).latchFault t.ctx
      ⟨e, n, t.queue, t.order, stIllegalInstr, reasonDetail reason n, t.pcWord, word⟩
  | none => (s.reportFault n t.queue t.order stIllegalInstr (reasonDetail reason n) t.pcWord word false).modStation n fun t =>
      { t with barWait := none }

/-- The same fault on several stations in one station clock (R119): the lowest is the reported one, the others record theirs as
secondary. `ls` names them ascending with their words. -/
def State.barFaults (s : State) (reason : Nat) (ls : List (Fin 24 × BitVec 64)) : State :=
  ls.foldl (fun s p => s.barFault p.1 reason p.2) s

/-- The stations that wait under a barrier number of a job. -/
def State.barGroup (s : State) (q : Fin 16) (order : Nat) (b : Fin 4) : List (Fin 24) :=
  (List.finRange 24).filter fun n => ((s.station n).waitsAt q order).any fun w => w.bar == b

/-- Whether a station has executed END in a job. -/
def State.endedIn (s : State) (q : Fin 16) (order : Nat) (n : Fin 24) : Bool :=
  let t := s.station n
  (s.jobStations q order).getLsbD n.val && (!t.inJob q order || t.ended)

/-- The stations that have arrived under a barrier number of a job, with their instruction words. -/
def State.arrived (s : State) (q : Fin 16) (order : Nat) (b : Fin 4) : List (Fin 24 × BitVec 64) :=
  (List.finRange 24).filterMap fun n =>
    ((s.station n).waitsAt q order).bind fun w => if w.bar = b then some (n, w.word) else none

/-- The fault that an arrival or an END brings on every station that has arrived under a barrier number (R114): two masks that
differ, or a mask that names a station that has ended. -/
def State.barCheck (s : State) (q : Fin 16) (order : Nat) (b : Fin 4) : State :=
  let g := s.barGroup q order b
  let mask := fun (n : Fin 24) => (((s.station n).barWait).map BarWait.mask).getD 0
  let ended := fun (n : Fin 24) => (List.finRange 24).any fun m => (mask n).getLsbD m.val && s.endedIn q order m
  if g.any fun n => g.any fun m => mask m != mask n then s.barFaults 0x06 (s.arrived q order b)
  else if g.any ended then s.barFaults 0x07 (s.arrived q order b)
  else s

/-- The stations that a bad mask faults: those that have arrived under the number, and the one that arrives (R114). -/
def State.barBad (s : State) (n : Fin 24) (b : Fin 4) (word : BitVec 64) : List (Fin 24 × BitVec 64) :=
  let t := s.station n
  (List.finRange 24).filterMap fun k =>
    if k = n then some (n, word) else (s.arrived t.queue t.order b).find? fun p => p.1 == k

/-- BAR (R113, R114, R142): it waits until the station's earlier writes are applied, checks its mask, and arrives. -/
def execBar (n : Fin 24) (w : BitVec 52) (s : State) : Host.Outcome State Fault Refusal :=
  let x := wordOf 7 0x03 w
  let t := s.station n
  let v := t.rg (sRb x)
  let all := s.jobStations t.queue t.order
  let mask : BitVec 24 := if v = 0 then all else v.setWidth 24
  let bad := field v 63 24 != 0 || mask &&& ~~~all != 0 || !mask.getLsbD n.val
  let pre := reserved (field x 51 46) ++ reserved (field x 38 0)
  .next <|
    if s.canIssue n && (s.fetchCheck n t.pc.toNat).isNone && pre.isEmpty && !bad && !t.writesBefore t.issueSeq then s
    else s.issue n x { gs := [sRb x], reasons := pre } fun s =>
      if bad then (s.barFaults 0x05 (s.barBad n (sBar x) x)).settleAll
      else
        ((s.modStation n fun t => { t with barWait := some ⟨sBar x, mask, x⟩ }).barCheck t.queue t.order (sBar x)).settleAll

/-- The first complete group of a barrier: a mask whose every station waits under it. -/
def State.barComplete (s : State) (q : Fin 16) (order : Nat) (b : Fin 4) : Option (BitVec 24) :=
  let g := s.barGroup q order b
  let mask := fun (n : Fin 24) => (((s.station n).barWait).map BarWait.mask).getD 0
  (g.map mask).find? fun m => (setBits 24 m).all fun (k : Fin 24) => g.contains k && mask k == m

/-- BARRIER_RELEASE (R113): every participant of a complete barrier goes on. -/
def execBarrierRelease (q : Fin 16) (b : Fin 4) (s : State) : Host.Outcome State Fault Refusal :=
  .next <| match s.job q with
    | none => s
    | some j =>
      match s.barComplete q j.order b with
      | none => s
      | some m =>
        s.when s.stationsOn fun s =>
          (setBits 24 m).foldl (fun s n => (s.modStation n fun t => { t.advance with barWait := none }).retire n) s

/-! ## FENCE -/

/-- FENCE of the S class (R142): the station waits until every range is released and every engine queue is empty. -/
def execSFence (n : Fin 24) (w : BitVec 52) (s : State) : Host.Outcome State Fault Refusal :=
  let x := wordOf 7 0x04 w
  let t := s.station n
  let idle := t.board.isEmpty && t.dmuQ.isEmpty && t.vecQ.isEmpty && t.qntQ.isEmpty && t.arrQ.isEmpty
  let pre := reserved (field x 51 0)
  .next <|
    if s.canIssue n && (s.fetchCheck n t.pc.toNat).isNone && pre.isEmpty && !idle then s
    else s.issueScalar n x { reasons := pre } id

end Sys2Proof.Machine
end

