-- ==== Sys2Proof/Machine/Control.lean ====
section
/-!
DEFINITION. The C class (R143, R144, R112): branches, calls, hardware loops and END.
-/

namespace Sys2Proof.Machine

/-- Reason 0x1B where a C-format instruction is the last instruction of an active loop's body (R144). -/
def Station.lastOfBody (t : Station) : List Nat := reasonIf (t.loops.any fun l => l.last == t.pc.toNat) 0x1B

/-- The offset that a relative branch reaches; one below the parcel lies far above it (R143). -/
def Station.relTarget (t : Station) (w : BitVec 64) : Nat :=
  let x := (t.pc.toNat : Int) + 8 * cImm w
  if x < 0 then 0x100000000 else x.toNat

/-- The check of a taken branch's target, a word of the same parcel (R143, R388): DETAIL where it lies outside. -/
def State.targetBound (s : State) (n : Fin 24) (target : Nat) : Option (BitVec 32) := s.fetchCheck n target

/-- A taken branch issued (R143). -/
def State.takeBranch (s : State) (n : Fin 24) (w : BitVec 64) (need : Need) (target : Nat) (f : Station → Station) : State :=
  s.issue n w { need with bound := s.targetBound n target } fun s =>
    (s.modStation n fun t => (f t).branch target).retire n

/-- BR (R143). -/
def execBr (n : Fin 24) (w : BitVec 52) (s : State) : Host.Outcome State Fault Refusal :=
  let x := wordOf 8 0x01 w
  let t := s.station n
  .next (s.takeBranch n x { reasons := reserved (field x 51 32) ++ t.lastOfBody } (t.relTarget x) id)

/-- Whether the condition of a BRC holds (R143). -/
def Station.cond (t : Station) (w : BitVec 64) : Bool :=
  let a := t.rg (raOf w)
  let p := t.rp (raOf w)
  match cCond w with
  | 0 => a == 0
  | 1 => a != 0
  | 2 => a.getLsbD 63
  | 3 => !a.getLsbD 63
  | 4 => p != 0
  | _ => p == BitVec.allOnes 256

/-- BRC (R143): one that is not taken never faults on its target. -/
def execBrc (n : Fin 24) (w : BitVec 52) (s : State) : Host.Outcome State Fault Refusal :=
  let x := wordOf 8 0x02 w
  let t := s.station n
  let onP := 4 ≤ cCond x && cCond x < 6
  let need : Need :=
    { gs := if onP then [] else [raOf x], ps := if onP then [raOf x] else [],
      reasons := reserved (rdOf x) ++ reserved (field x 38 32) ++ reasonIf (6 ≤ cCond x) 0x1A ++
        (if onP then regBelow (raOf x) 8 else []) ++ t.lastOfBody }
  .next (if t.cond x then s.takeBranch n x need (t.relTarget x) id else s.issueScalar n x need id)

/-- CALL (R143). -/
def execCall (n : Fin 24) (w : BitVec 52) (s : State) : Host.Outcome State Fault Refusal :=
  let x := wordOf 8 0x03 w
  let t := s.station n
  .next (s.takeBranch n x { gs := [rdOf x], reasons := reserved (field x 46 32) ++ t.lastOfBody } (t.relTarget x) fun t =>
    t.wg (rdOf x) (t.pc.setWidth 64 + 8))

/-- JR (R143): g[RA] must be a multiple of 8 below 2^32. -/
def execJr (n : Fin 24) (w : BitVec 52) (s : State) : Host.Outcome State Fault Refusal :=
  let x := wordOf 8 0x04 w
  let t := s.station n
  let a := t.rg (raOf x)
  .next (s.takeBranch n x
    { gs := [raOf x],
      reasons := reserved (rdOf x) ++ reserved (field x 41 0) ++ reasonIf (field a 63 32 != 0 || field a 2 0 != 0) 0x14 ++
        t.lastOfBody } a.toNat id)

/-- The station after LOOP: the loop opens behind it, or with a count of zero its body is skipped (R144). -/
def Station.openLoop (t : Station) (w : BitVec 64) : Station :=
  let last := t.pc.toNat + 8 * (cImm w).toNat
  let count := t.rg (raOf w)
  if count = 0 then t.advanceFrom last
  else { t with pc := t.pc + 8, loops := { first := t.pc.toNat + 8, last := last, left := count } :: t.loops }

/-- LOOP (R144). -/
def execLoop (n : Fin 24) (w : BitVec 52) (s : State) : Host.Outcome State Fault Refusal :=
  let x := wordOf 8 0x05 w
  let t := s.station n
  let last := t.pc.toNat + 8 * (cImm x).toNat
  .next (s.issue n x
    { gs := [raOf x],
      reasons := reserved (rdOf x) ++ reserved (field x 41 32) ++ reasonIf (cImm x ≤ 0) 0x1A ++
        reasonIf (0 < cImm x && (match t.loops with | l :: _ => l.last < last | [] => false)) 0x1B ++
        reasonIf (4 ≤ t.loops.length) 0x15 ++ t.lastOfBody }
    fun s => (s.modStation n fun t => t.openLoop x).retire n)

/-- END (R112): the station's part of the job ends; participants that wait for it at a barrier fault (R114). -/
def execEndProg (n : Fin 24) (w : BitVec 52) (s : State) : Host.Outcome State Fault Refusal :=
  let x := wordOf 8 0x06 w
  let t := s.station n
  .next (s.issue n x { reasons := reserved (field x 51 0) ++ t.lastOfBody } fun s =>
    let s := (s.modStation n fun t => { t with ended := true }).retire n
    ((List.finRange 4).foldl (fun s b => s.barCheck t.queue t.order b) s).settleAll)

end Sys2Proof.Machine
end

