-- ==== Sys2Proof/Machine/Epoch.lean ====
section
/-!
DEFINITION. The P class: EOPEN, ECLOSE, EFENCE (R145, R183 to R195).
-/

namespace Sys2Proof.Machine

/-- A P instruction that waits until its station's work has ended (R190): its reserved fields fault at once, what it finds
after the wait then. -/
def State.issueClosed (s : State) (n : Fin 24) (w : BitVec 64) (pre post : Need) (go : State → State) : State :=
  if s.canIssue n && (s.fetchCheck n (s.station n).pc.toNat).isNone && pre.reasons.isEmpty && !s.workEnded n then s
  else s.issue n w (if pre.reasons.isEmpty then post else pre) go

/-- EOPEN (R145, R183): the next number in sequence, unless four epochs are open. A number that comes again after the
sequence wrapped is open, and no longer counts as closed. -/
def execEopen (n : Fin 24) (w : BitVec 52) (s : State) : Host.Outcome State Fault Refusal :=
  let x := wordOf 9 0x01 w
  let c := (s.station n).ctx
  let e := (s.ctx c).nextEpoch
  .next <| s.issue n x
    { gs := [rdOf x], reasons := reserved (raOf x) ++ reserved (field x 41 0) ++ reasonIf (4 ≤ (s.ctx c).epochs.length) 0x16 }
    fun s =>
      let s := s.modCtx c fun y =>
        { y with epochs := y.epochs ++ [e], nextEpoch := e + 1, closed := y.closed.filter fun p => p.1 != e }
      (s.modStation n fun t => (t.wg (rdOf x) (e.setWidth 64)).advance).retire n

/-- The close of the epoch that g[RA] names (R183, R190). -/
def State.eclose (s : State) (n : Fin 24) (w : BitVec 64) (go : State → BitVec 16 → State) : State :=
  let t := s.station n
  let v := t.rg (raOf w)
  let e : BitVec 16 := v.setWidth 16
  let pre : Need := { gs := [raOf w], reasons := reserved (rdOf w) ++ reserved (field w 40 0) }
  let bad := field v 63 16 != 0 || !(s.ctx t.ctx).epochs.contains e
  s.issueClosed n w pre { pre with reasons := reasonIf bad 0x17 } fun s =>
    go ((s.modStation n fun t => t.advance).retire n) e

/-- ECLOSE with CD 0 (R191): commit. -/
def execEcloseCommit (n : Fin 24) (w : BitVec 52) (s : State) : Host.Outcome State Fault Refusal :=
  .next (s.eclose n (setBit (wordOf 9 0x02 w) 41 false) fun s e => s.commitEpoch (s.station n).ctx e)

/-- ECLOSE with CD 1 (R192): discard of the epoch and every newer one. -/
def execEcloseDiscard (n : Fin 24) (w : BitVec 52) (s : State) : Host.Outcome State Fault Refusal :=
  .next (s.eclose n (setBit (wordOf 9 0x02 w) 41 true) fun s e =>
    let c := (s.station n).ctx
    s.discardEpochs c ((s.ctx c).epochs.dropWhile (· != e)))

/-- EFENCE (R194): the station's spec register once its work has ended. -/
def execEfence (n : Fin 24) (w : BitVec 52) (s : State) : Host.Outcome State Fault Refusal :=
  let x := wordOf 9 0x03 w
  let need : Need := { gs := [rdOf x], reasons := reserved (raOf x) ++ reserved (field x 41 0) }
  .next <| s.issueClosed n x need need fun s =>
    (s.modStation n fun t => (t.wg (rdOf x) (s.specWord t.ctx (some n))).advance).retire n

end Sys2Proof.Machine
end

