-- ==== Sys2Proof/Machine/Vector.lean ====
section
/-!
DEFINITION. The vector class (R132): what each instruction asks of issue, and the effect that it has when the vector unit
completes it (R105, R108).
-/

namespace Sys2Proof.Machine

/-! ## Lanes -/

/-- Bits of an element: ETYPE 0 FP32, 1 BF16, 2 INT32 (R132). -/
def laneBits (etype : Nat) : Nat := if etype = 1 then 16 else 32
/-- Lanes of a v register (R132). -/
def laneCount (etype : Nat) : Nat := if etype = 1 then 128 else 64
/-- The floating-point format of an element type (R132). -/
def laneFmt (etype : Nat) : FpFmt := if etype = 1 then bf16 else fp32

/-- Lane i of a v register with b-bit lanes, lane 0 lowest. -/
def laneAt (b : Nat) (v : BitVec 2048) (i : Nat) : Nat := (v.extractLsb' (b * i) b).toNat

/-- Lanes of b bits put together, lane 0 lowest. -/
def joinLanes (w b : Nat) (xs : List Nat) : BitVec w := BitVec.ofNat w (xs.foldr (fun x a => x + a * 2 ^ b) 0)

/-- Whether lane i is active: the predicate bit of its lowest byte (R132). -/
def laneActive (p : BitVec 256) (b i : Nat) : Bool := p.getLsbD (b / 8 * i)

/-- An operation on one lane, by its floating-point form or its integer form, which wraps (R132). -/
def laneOp (etype : Nat) (ff : Fl → Fl → Fl → Fl) (fi : Int → Int → Int → Int) (d a b : Nat) : Nat :=
  if etype = 2 then (fi (signedOf 32 d) (signedOf 32 a) (signedOf 32 b) % (2 ^ 32 : Nat)).toNat
  else
    let f := laneFmt etype
    f.encode (ff (f.decode d) (f.decode a) (f.decode b))

/-- A relation on one lane (R132). -/
def laneRel (etype : Nat) (rf : Fl → Fl → Bool) (ri : Int → Int → Bool) (a b : Nat) : Bool :=
  if etype = 2 then ri (signedOf 32 a) (signedOf 32 b)
  else rf ((laneFmt etype).decode a) ((laneFmt etype).decode b)

/-- v[RD] := an operation over v[RD], v[RA] and v[RB] in the active lanes; other lanes keep their value (R132). -/
def Station.vecMap (t : Station) (w : BitVec 64) (ff : Fl → Fl → Fl → Fl) (fi : Int → Int → Int → Int) : Station :=
  let e := etypeOf w
  let b := laneBits e
  let p := t.rp (prOf w)
  let d := t.rv (rdOf w)
  t.wv (rdOf w) (joinLanes 2048 b ((List.range (laneCount e)).map fun i =>
    if laneActive p b i then laneOp e ff fi (laneAt b d i) (laneAt b (t.rv (raOf w)) i) (laneAt b (t.rv (rbOf w)) i)
    else laneAt b d i))

/-- p[RD] := a relation over v[RA] and v[RB], on every byte of each active lane; 0 elsewhere (R132). -/
def Station.vecCompare (t : Station) (w : BitVec 64) (rf : Fl → Fl → Bool) (ri : Int → Int → Bool) : Station :=
  let e := etypeOf w
  let b := laneBits e
  let p := t.rp (prOf w)
  t.wp (rdOf w) (joinLanes 256 (b / 8) ((List.range (laneCount e)).map fun i =>
    if laneActive p b i && laneRel e rf ri (laneAt b (t.rv (raOf w)) i) (laneAt b (t.rv (rbOf w)) i) then 2 ^ (b / 8) - 1
    else 0))

/-- The lanes of v[RA] with absent lanes where the predicate is 0 (R132). -/
def Station.activeLanes (t : Station) (w : BitVec 64) : List (Option Nat) :=
  let b := laneBits (etypeOf w)
  (List.range (laneCount (etypeOf w))).map fun i =>
    if laneActive (t.rp (prOf w)) b i then some (laneAt b (t.rv (raOf w)) i) else none

/-- A lane widened to binary32, exactly (R181). -/
def laneFp32 (etype x : Nat) : BitVec 32 := rne32 ((laneFmt etype).decode x)

/-- g[RD] of VREDSUM (R132): a fixed pairwise tree from lane 0, lanes that are not active left out. -/
def Station.redSum (t : Station) (w : BitVec 64) : BitVec 64 :=
  let e := etypeOf w
  if e = 2 then (BitVec.ofNat 32 ((t.activeLanes w).foldl (fun a x => a + x.getD 0) 0)).signExtend 64
  else ((tree add32 7 ((t.activeLanes w).map fun x => x.map (laneFp32 e))).getD 0).setWidth 64

/-- g[RD] of VREDMAX (R132). -/
def Station.redMax (t : Station) (w : BitVec 64) : BitVec 64 :=
  let e := etypeOf w
  if e = 2 then
    (BitVec.ofInt 32 ((t.activeLanes w).foldl (fun a x => match x with | some y => max a (signedOf 32 y) | none => a)
      (-2147483648))).signExtend 64
  else
    (rne32 ((t.activeLanes w).foldl (fun a x => match x with | some y => a.max ((laneFmt e).decode y) | none => a)
      (.inf true))).setWidth 64

/-- The byte offset of VLD, VST and VSTA (R132). -/
def vecImm (w : BitVec 64) : Nat := (immOf w).toNat

/-- The effect of a vector instruction as the vector unit completes it (R132). `g` is the value captured at issue. -/
def Station.vectorEffect (t : Station) (w : BitVec 64) (g : BitVec 64) : Station :=
  match minorOf w with
  | 0x01 => t.vecMap w (fun _ a b => a.add b) fun _ a b => a + b
  | 0x02 => t.vecMap w (fun _ a b => a.add b.neg) fun _ a b => a - b
  | 0x03 => t.vecMap w (fun _ a b => a.mul b) fun _ a b => a * b
  | 0x04 => t.vecMap w (fun d a b => d.add (a.mul b)) fun d a b => d + a * b
  | 0x05 => t.vecMap w (fun _ a b => a.max b) fun _ a b => max a b
  | 0x06 => t.vecMap w (fun _ a b => a.min b) fun _ a b => min a b
  | 0x07 =>
    let b := laneBits (etypeOf w)
    t.wv (rdOf w) (joinLanes 2048 b ((List.range (laneCount (etypeOf w))).map fun i =>
      if laneActive (t.rp (prOf w)) b i then g.toNat % 2 ^ b else laneAt b (t.rv (rdOf w)) i))
  | 0x08 => t.vecCompare w Fl.lt fun a b => decide (a < b)
  | 0x09 => t.vecCompare w Fl.eq fun a b => a == b
  | 0x0A => t.wg (rdOf w) (t.redSum w)
  | 0x0B => t.wg (rdOf w) (t.redMax w)
  | 0x0C => t.wv (rdOf w) (word 2048 (t.vec.readBytes (vecImm w) 256))
  | 0x0D => t.wbuf 3 (vecImm w) (toBytes (t.rv (rdOf w)) 256)
  | _ => t.wbuf 0 (vecImm w) (toBytes (t.rv (rdOf w)) 256)

/-! ## Issue -/

/-- Reasons common to the lane instructions (R128, R132): IMM is reserved and ETYPE 3 is a reserved value. -/
def laneReasons (w : BitVec 64) : List Nat := reserved (immOf w).toNat ++ reasonIf (etypeOf w == 3) 0x1A

/-- What a lane instruction over three v registers asks of issue. -/
def vecNeed3 (w : BitVec 64) : Need :=
  { ps := [prOf w], reasons := laneReasons w ++ regBelow (rdOf w) 16 ++ regBelow (raOf w) 16 ++ regBelow (rbOf w) 16 }

/-- What a compare asks of issue: its RD names a p register. -/
def vecNeedCmp (w : BitVec 64) : Need :=
  { ps := [prOf w, rdOf w],
    reasons := laneReasons w ++ regBelow (rdOf w) 8 ++ regBelow (raOf w) 16 ++ regBelow (rbOf w) 16 }

/-- What a reduction asks of issue: its RD names a g register and RB is reserved. -/
def vecNeedRed (w : BitVec 64) : Need :=
  { gs := [rdOf w], ps := [prOf w], reasons := laneReasons w ++ reserved (rbOf w) ++ regBelow (raOf w) 16 }

/-- What VBCAST asks of issue: its RA names a g register and RB is reserved. -/
def vecNeedBcast (w : BitVec 64) : Need :=
  { gs := [raOf w], ps := [prOf w], reasons := laneReasons w ++ reserved (rbOf w) ++ regBelow (rdOf w) 16 }

/-- What VLD, VST and VSTA ask of issue, for a buffer of a size (R132). -/
def vecNeedMem (w : BitVec 64) (size : Nat) : Need :=
  { reasons := reserved (field w 46 32) ++ regBelow (rdOf w) 16 ++
      reasonIf (vecImm w % 256 != 0 || size ≤ vecImm w) 0x10 }

/-- A vector instruction issued (R104). -/
def State.issueVec (s : State) (n : Fin 24) (w : BitVec 64) (need : Need) : State :=
  s.issueEngine n .vector need { word := w, gval := (s.station n).rg (raOf w) }

/-- VADD (R132). -/
def execVadd (n : Fin 24) (w : BitVec 52) (s : State) : Host.Outcome State Fault Refusal :=
  .next (s.issueVec n (wordOf 6 0x01 w) (vecNeed3 (wordOf 6 0x01 w)))

/-- VSUB (R132). -/
def execVsub (n : Fin 24) (w : BitVec 52) (s : State) : Host.Outcome State Fault Refusal :=
  .next (s.issueVec n (wordOf 6 0x02 w) (vecNeed3 (wordOf 6 0x02 w)))

/-- VMUL (R132). -/
def execVmul (n : Fin 24) (w : BitVec 52) (s : State) : Host.Outcome State Fault Refusal :=
  .next (s.issueVec n (wordOf 6 0x03 w) (vecNeed3 (wordOf 6 0x03 w)))

/-- VFMA (R132). -/
def execVfma (n : Fin 24) (w : BitVec 52) (s : State) : Host.Outcome State Fault Refusal :=
  .next (s.issueVec n (wordOf 6 0x04 w) (vecNeed3 (wordOf 6 0x04 w)))

/-- VMAX (R132). -/
def execVmax (n : Fin 24) (w : BitVec 52) (s : State) : Host.Outcome State Fault Refusal :=
  .next (s.issueVec n (wordOf 6 0x05 w) (vecNeed3 (wordOf 6 0x05 w)))

/-- VMIN (R132). -/
def execVmin (n : Fin 24) (w : BitVec 52) (s : State) : Host.Outcome State Fault Refusal :=
  .next (s.issueVec n (wordOf 6 0x06 w) (vecNeed3 (wordOf 6 0x06 w)))

/-- VBCAST (R132). -/
def execVbcast (n : Fin 24) (w : BitVec 52) (s : State) : Host.Outcome State Fault Refusal :=
  .next (s.issueVec n (wordOf 6 0x07 w) (vecNeedBcast (wordOf 6 0x07 w)))

/-- VCMPLT (R132). -/
def execVcmplt (n : Fin 24) (w : BitVec 52) (s : State) : Host.Outcome State Fault Refusal :=
  .next (s.issueVec n (wordOf 6 0x08 w) (vecNeedCmp (wordOf 6 0x08 w)))

/-- VCMPEQ (R132). -/
def execVcmpeq (n : Fin 24) (w : BitVec 52) (s : State) : Host.Outcome State Fault Refusal :=
  .next (s.issueVec n (wordOf 6 0x09 w) (vecNeedCmp (wordOf 6 0x09 w)))

/-- VREDSUM (R132). -/
def execVredsum (n : Fin 24) (w : BitVec 52) (s : State) : Host.Outcome State Fault Refusal :=
  .next (s.issueVec n (wordOf 6 0x0A w) (vecNeedRed (wordOf 6 0x0A w)))

/-- VREDMAX (R132). -/
def execVredmax (n : Fin 24) (w : BitVec 52) (s : State) : Host.Outcome State Fault Refusal :=
  .next (s.issueVec n (wordOf 6 0x0B w) (vecNeedRed (wordOf 6 0x0B w)))

/-- VLD (R132): the vector buffer. -/
def execVld (n : Fin 24) (w : BitVec 52) (s : State) : Host.Outcome State Fault Refusal :=
  .next (s.issueVec n (wordOf 6 0x0C w) (vecNeedMem (wordOf 6 0x0C w) 8192))

/-- VST (R132): the vector buffer. -/
def execVst (n : Fin 24) (w : BitVec 52) (s : State) : Host.Outcome State Fault Refusal :=
  .next (s.issueVec n (wordOf 6 0x0D w) (vecNeedMem (wordOf 6 0x0D w) 8192))

/-- VSTA (R132): DMU A. -/
def execVsta (n : Fin 24) (w : BitVec 52) (s : State) : Host.Outcome State Fault Refusal :=
  .next (s.issueVec n (wordOf 6 0x0E w) (vecNeedMem (wordOf 6 0x0E w) 16384))

end Sys2Proof.Machine
end

