-- ==== Sys2Proof/Machine/Retire.lean ====
section
/-!
DEFINITION. INSTRUCTION_RETIRE (R105, R106, R108): an engine completes the instruction at the head of its queue.
-/

namespace Sys2Proof.Machine

/-- The effect of an instruction as its engine completes it. The conversions of an ACONV had theirs as each ended. -/
def State.engineEffect (s : State) (n : Fin 24) (i : Issued) : State :=
  match majorOf i.word, i.xfer with
  | 2, some x => s.xferEffect n i x
  | 3, _ => s.matrixEffect n i
  | 4, _ => if minorOf i.word = 2 then s.modStation n fun t => t.maaEffect i.word else s
  | 5, _ => s.quantEffect n i
  | 6, _ => s.modStation n fun t => t.vectorEffect i.word i.gval
  | _, _ => s

/-- The instruction at the head of an engine's queue leaves it and its range is released (R94, R108). -/
def Station.dequeue (t : Station) (e : Engine) (i : Issued) : Station :=
  let t := t.setQueue e (t.queueOf e).tail
  match i.range with
  | some r => { t with board := t.board.erase r }
  | none => t

/-- Whether the head of an engine's queue can complete: it is not held back, an ACONV has started every array, and an MAA does
not wait for a divider switch (R30, R107). -/
def Station.canRetire (t : Station) (e : Engine) (i : Issued) (switching : Bool) : Bool :=
  !t.heldBack e i && i.todo == 0 && !(switching && majorOf i.word == 4 && minorOf i.word == 2)

/-- The conversions of the head of the array queue that still run end, at most n of them (R139). -/
def State.endConvs : Nat → State → Fin 24 → State
  | 0, s, _ => s
  | k + 1, s, n => State.endConvs k (s.endConv n) n

/-- INSTRUCTION_RETIRE (R105, R108): effect, retirement, release of the range, and the station's freeing (R112). -/
def execInstructionRetire (n : Fin 24) (e : Engine) (s : State) : Host.Outcome State Fault Refusal :=
  .next <| match (s.station n).queueOf e with
    | [] => s
    | i :: _ =>
      s.when (s.stationsOn && (s.station n).canRetire e i s.main.pwr.switching) fun s =>
        let s := State.endConvs i.convs.length s n
        ((s.engineEffect n i).modStation n fun t => t.dequeue e i).retire n |>.settle n

end Sys2Proof.Machine
end

