-- ==== Sys2Proof/Machine/Dispatch.lean ====
section
/-!
DEFINITION. exec: for each command of the block one arm, a direct call of its meaning.
-/

namespace Sys2Proof.Machine

/-- The effect of one command on everything but the queue of pending commands. -/
def exec (i : Instr) (s : State) : Host.Outcome State Fault Refusal :=
  match i with
  | .sqTail q idx => Sys2Proof.Machine.execSqTail q idx s
  | .cqHead q idx => Sys2Proof.Machine.execCqHead q idx s
  | .hqCommit q => Sys2Proof.Machine.execHqCommit q s
  | .queueConfigActivate q => Sys2Proof.Machine.execQueueConfigActivate q s
  | .descriptorFetch q reply => Sys2Proof.Machine.execDescriptorFetch q reply s
  | .jobStart q => Sys2Proof.Machine.execJobStart q s
  | .jobEnd q => Sys2Proof.Machine.execJobEnd q s
  | .msixUnmask what => Sys2Proof.Machine.execMsixUnmask what s
  | .hqMark m w => Sys2Proof.Machine.execHqMark m w s
  | .glbHostwin w => Sys2Proof.Machine.execGlbHostwin w s
  | .glbBootGo reply => Sys2Proof.Machine.execGlbBootGo reply s
  | .flr boot => Sys2Proof.Machine.execFlr boot s
  | .perst => Sys2Proof.Machine.execPerst s
  | .perstNRelease boot => Sys2Proof.Machine.execPerstNRelease boot s
  | .d3hot => Sys2Proof.Machine.execD3hot s
  | .returnToD0 => Sys2Proof.Machine.execReturnToD0 s
  | .runProgram q => Sys2Proof.Machine.execRunProgram q s
  | .loadArraysWeights q => Sys2Proof.Machine.execLoadArraysWeights q s
  | .loadArraysTables q => Sys2Proof.Machine.execLoadArraysTables q s
  | .nandIoRead q => Sys2Proof.Machine.execNandIoRead q s
  | .nandIoProgram q => Sys2Proof.Machine.execNandIoProgram q s
  | .nandIoErase q => Sys2Proof.Machine.execNandIoErase q s
  | .nandIoSetFeatures q => Sys2Proof.Machine.execNandIoSetFeatures q s
  | .nandIoGetFeatures q => Sys2Proof.Machine.execNandIoGetFeatures q s
  | .nandIoReadParam q => Sys2Proof.Machine.execNandIoReadParam q s
  | .nandIoReset q => Sys2Proof.Machine.execNandIoReset q s
  | .copy q => Sys2Proof.Machine.execCopy q s
  | .fence q => Sys2Proof.Machine.execFence q s
  | .markOpAdd q => Sys2Proof.Machine.execMarkOpAdd q s
  | .markOpSet q => Sys2Proof.Machine.execMarkOpSet q s
  | .timestamp q => Sys2Proof.Machine.execTimestamp q s
  | .attest q => Sys2Proof.Machine.execAttest q s
  | .signatureEngineStart => Sys2Proof.Machine.execSignatureEngineStart s
  | .setParcels q => Sys2Proof.Machine.execSetParcels q s
  | .nop n w => Sys2Proof.Machine.execNop n w s
  | .add n w => Sys2Proof.Machine.execAdd n w s
  | .sub n w => Sys2Proof.Machine.execSub n w s
  | .and n w => Sys2Proof.Machine.execAnd n w s
  | .or n w => Sys2Proof.Machine.execOr n w s
  | .xor n w => Sys2Proof.Machine.execXor n w s
  | .shl n w => Sys2Proof.Machine.execShl n w s
  | .shr n w => Sys2Proof.Machine.execShr n w s
  | .sra n w => Sys2Proof.Machine.execSra n w s
  | .mul n w => Sys2Proof.Machine.execMul n w s
  | .min n w => Sys2Proof.Machine.execMin n w s
  | .max n w => Sys2Proof.Machine.execMax n w s
  | .slt n w => Sys2Proof.Machine.execSlt n w s
  | .sltu n w => Sys2Proof.Machine.execSltu n w s
  | .seq n w => Sys2Proof.Machine.execSeq n w s
  | .movhi n w => Sys2Proof.Machine.execMovhi n w s
  | .ld64 n w => Sys2Proof.Machine.execLd64 n w s
  | .ld32 n w => Sys2Proof.Machine.execLd32 n w s
  | .st64 n w => Sys2Proof.Machine.execSt64 n w s
  | .st32 n w => Sys2Proof.Machine.execSt32 n w s
  | .dset n w => Sys2Proof.Machine.execDset n w s
  | .dget n w => Sys2Proof.Machine.execDget n w s
  | .doff n w => Sys2Proof.Machine.execDoff n w s
  | .rdtime n w => Sys2Proof.Machine.execRdtime n w s
  | .vadd n w => Sys2Proof.Machine.execVadd n w s
  | .vsub n w => Sys2Proof.Machine.execVsub n w s
  | .vmul n w => Sys2Proof.Machine.execVmul n w s
  | .vfma n w => Sys2Proof.Machine.execVfma n w s
  | .vmax n w => Sys2Proof.Machine.execVmax n w s
  | .vmin n w => Sys2Proof.Machine.execVmin n w s
  | .vbcast n w => Sys2Proof.Machine.execVbcast n w s
  | .vcmplt n w => Sys2Proof.Machine.execVcmplt n w s
  | .vcmpeq n w => Sys2Proof.Machine.execVcmpeq n w s
  | .vredsum n w => Sys2Proof.Machine.execVredsum n w s
  | .vredmax n w => Sys2Proof.Machine.execVredmax n w s
  | .vld n w => Sys2Proof.Machine.execVld n w s
  | .vst n w => Sys2Proof.Machine.execVst n w s
  | .vsta n w => Sys2Proof.Machine.execVsta n w s
  | .mLd n w => Sys2Proof.Machine.execMLd n w s
  | .mSt n w => Sys2Proof.Machine.execMSt n w s
  | .mSta n w => Sys2Proof.Machine.execMSta n w s
  | .mma n w => Sys2Proof.Machine.execMma n w s
  | .mmaz n w => Sys2Proof.Machine.execMmaz n w s
  | .aclr n w => Sys2Proof.Machine.execAclr n w s
  | .aconv n w => Sys2Proof.Machine.execAconv n w s
  | .maa n w => Sys2Proof.Machine.execMaa n w s
  | .qnt n w => Sys2Proof.Machine.execQnt n w s
  | .dqn n w => Sys2Proof.Machine.execDqn n w s
  | .qact n w => Sys2Proof.Machine.execQact n w s
  | .msig n w => Sys2Proof.Machine.execMsig n w s
  | .mwait n w => Sys2Proof.Machine.execMwait n w s
  | .bar n w => Sys2Proof.Machine.execBar n w s
  | .sFence n w => Sys2Proof.Machine.execSFence n w s
  | .br n w => Sys2Proof.Machine.execBr n w s
  | .brc n w => Sys2Proof.Machine.execBrc n w s
  | .call n w => Sys2Proof.Machine.execCall n w s
  | .jr n w => Sys2Proof.Machine.execJr n w s
  | .loop n w => Sys2Proof.Machine.execLoop n w s
  | .endProg n w => Sys2Proof.Machine.execEndProg n w s
  | .eopen n w => Sys2Proof.Machine.execEopen n w s
  | .ecloseCommit n w => Sys2Proof.Machine.execEcloseCommit n w s
  | .ecloseDiscard n w => Sys2Proof.Machine.execEcloseDiscard n w s
  | .efence n w => Sys2Proof.Machine.execEfence n w s
  | .instructionRetire n e => Sys2Proof.Machine.execInstructionRetire n e s
  | .conversionStart n => Sys2Proof.Machine.execConversionStart n s
  | .markSignalVisible n => Sys2Proof.Machine.execMarkSignalVisible n s
  | .markWaitEnd n => Sys2Proof.Machine.execMarkWaitEnd n s
  | .barrierRelease q b => Sys2Proof.Machine.execBarrierRelease q b s
  | .kick n => Sys2Proof.Machine.execKick n s
  | .programmerStart => Sys2Proof.Machine.execProgrammerStart s
  | .arrayProgrammingEnd k failCells maxIter => Sys2Proof.Machine.execArrayProgrammingEnd k failCells maxIter s
  | .heldTableWrite n => Sys2Proof.Machine.execHeldTableWrite n s
  | .stnBenchCtrl n a go => Sys2Proof.Machine.execStnBenchCtrl n a go s
  | .benchmarkMeasurementEnd n codes => Sys2Proof.Machine.execBenchmarkMeasurementEnd n codes s
  | .trvStart ch => Sys2Proof.Machine.execTrvStart ch s
  | .trvPause ch => Sys2Proof.Machine.execTrvPause ch s
  | .paused ch => Sys2Proof.Machine.execPaused ch s
  | .trvResume ch => Sys2Proof.Machine.execTrvResume ch s
  | .trvCancel ch => Sys2Proof.Machine.execTrvCancel ch s
  | .trvChnOwner ch c valid => Sys2Proof.Machine.execTrvChnOwner ch c valid s
  | .trvChnCommit ch => Sys2Proof.Machine.execTrvChnCommit ch s
  | .tick g => Sys2Proof.Machine.execTick g s
  | .traverseDescriptorFetch ch reply => Sys2Proof.Machine.execTraverseDescriptorFetch ch reply s
  | .traverseReadCompletion who gen data => Sys2Proof.Machine.execTraverseReadCompletion who gen data s
  | .descriptorEnd ch => Sys2Proof.Machine.execDescriptorEnd ch s
  | .accessFail who => Sys2Proof.Machine.execAccessFail who s
  | .tckCommit => Sys2Proof.Machine.execTckCommit s
  | .nfcCommit => Sys2Proof.Machine.execNfcCommit s
  | .nfcSetActivate => Sys2Proof.Machine.execNfcSetActivate s
  | .nandOperationStart u => Sys2Proof.Machine.execNandOperationStart u s
  | .statusPoll u ready fail => Sys2Proof.Machine.execStatusPoll u ready fail s
  | .nandOperationEnd u data => Sys2Proof.Machine.execNandOperationEnd u data s
  | .codewordDecode u k outcome => Sys2Proof.Machine.execCodewordDecode u k outcome s
  | .nandTimeout u => Sys2Proof.Machine.execNandTimeout u s
  | .oklCommit => Sys2Proof.Machine.execOklCommit s
  | .oklCtxCommit c => Sys2Proof.Machine.execOklCtxCommit c s
  | .bindingActivate c => Sys2Proof.Machine.execBindingActivate c s
  | .retrain p => Sys2Proof.Machine.execRetrain p s
  | .portDisable p => Sys2Proof.Machine.execPortDisable p s
  | .linkTrainingEnd p width => Sys2Proof.Machine.execLinkTrainingEnd p width s
  | .hello p m => Sys2Proof.Machine.execHello p m s
  | .write p m => Sys2Proof.Machine.execWrite p m s
  | .read p m => Sys2Proof.Machine.execRead p m s
  | .markAdd p m => Sys2Proof.Machine.execMarkAdd p m s
  | .flush p m => Sys2Proof.Machine.execFlush p m s
  | .readResp p m => Sys2Proof.Machine.execReadResp p m s
  | .flushAck p m => Sys2Proof.Machine.execFlushAck p m s
  | .errResp p m => Sys2Proof.Machine.execErrResp p m s
  | .abort p m => Sys2Proof.Machine.execAbort p m s
  | .nak p ack => Sys2Proof.Machine.execNak p ack s
  | .ackInterval p => Sys2Proof.Machine.execAckInterval p s
  | .linkSilence p => Sys2Proof.Machine.execLinkSilence p s
  | .responseTimeout tag => Sys2Proof.Machine.execResponseTimeout tag s
  | .ctxReset c go => Sys2Proof.Machine.execCtxReset c go s
  | .contextResetSequence c => Sys2Proof.Machine.execContextResetSequence c s
  | .sampleTimeout c => Sys2Proof.Machine.execSampleTimeout c s
  | .revocation c => Sys2Proof.Machine.execRevocation c s
  | .ctxEscCommit => Sys2Proof.Machine.execCtxEscCommit s
  | .ctxPtCommit c => Sys2Proof.Machine.execCtxPtCommit c s
  | .parcelTableActivate c => Sys2Proof.Machine.execParcelTableActivate c s
  | .shmMode split => Sys2Proof.Machine.execShmMode split s
  | .shmCntClear => Sys2Proof.Machine.execShmCntClear s
  | .stnCntClear n => Sys2Proof.Machine.execStnCntClear n s
  | .stnExecClear n => Sys2Proof.Machine.execStnExecClear n s
  | .nfcCntClear => Sys2Proof.Machine.execNfcCntClear s
  | .ctxSpecClear c => Sys2Proof.Machine.execCtxSpecClear c s
  | .pwrClkCtrl div vcore => Sys2Proof.Machine.execPwrClkCtrl div vcore s
  | .dividerSwitch => Sys2Proof.Machine.execDividerSwitch s
  | .vcoreForce vcore => Sys2Proof.Machine.execVcoreForce vcore s
  | .pllUnlock => Sys2Proof.Machine.execPllUnlock s
  | .pllNoLock => Sys2Proof.Machine.execPllNoLock s
  | .strapLatch straps boot => Sys2Proof.Machine.execStrapLatch straps boot s
  | .firmwareStart found => Sys2Proof.Machine.execFirmwareStart found s
  | .fwStartTimeout => Sys2Proof.Machine.execFwStartTimeout s
  | .supplyRetry boot => Sys2Proof.Machine.execSupplyRetry boot s
  | .trimEntry => Sys2Proof.Machine.execTrimEntry s
  | .holdEntry => Sys2Proof.Machine.execHoldEntry s
  | .forcedHold => Sys2Proof.Machine.execForcedHold s
  | .pwrForceHoldSet => Sys2Proof.Machine.execPwrForceHoldSet s
  | .pwrForceHoldClear => Sys2Proof.Machine.execPwrForceHoldClear s
  | .drainAbort => Sys2Proof.Machine.execDrainAbort s
  | .holdWake => Sys2Proof.Machine.execHoldWake s
  | .dormantNotice => Sys2Proof.Machine.execDormantNotice s
  | .dormantNoticeCancel => Sys2Proof.Machine.execDormantNoticeCancel s
  | .dormantEntry => Sys2Proof.Machine.execDormantEntry s
  | .dormantWake w => Sys2Proof.Machine.execDormantWake w s
  | .supplyWarn vsys => Sys2Proof.Machine.execSupplyWarn vsys s
  | .warningRecovery vsys => Sys2Proof.Machine.execWarningRecovery vsys s
  | .holdoffEnd => Sys2Proof.Machine.execHoldoffEnd s
  | .borVsys => Sys2Proof.Machine.execBorVsys s
  | .borVsysRelease boot => Sys2Proof.Machine.execBorVsysRelease boot s
  | .cold => Sys2Proof.Machine.execCold s
  | .borLp => Sys2Proof.Machine.execBorLp s
  | .dftEn => Sys2Proof.Machine.execDftEn s
  | .chargeSample sense vsys => Sys2Proof.Machine.execChargeSample sense vsys s
  | .supCharge w => Sys2Proof.Machine.execSupCharge w s
  | .pwrPadRelease go => Sys2Proof.Machine.execPwrPadRelease go s
  | .fieldBookFlushEnd => Sys2Proof.Machine.execFieldBookFlushEnd s
  | .fbkFlush => Sys2Proof.Machine.execFbkFlush s
  | .fbkDrvLog code => Sys2Proof.Machine.execFbkDrvLog code s
  | .idkPmkBurn v => Sys2Proof.Machine.execIdkPmkBurn v s
  | .pmkBurnEnd => Sys2Proof.Machine.execPmkBurnEnd s
  | .idkCommit => Sys2Proof.Machine.execIdkCommit s
  | .idkVfyGo => Sys2Proof.Machine.execIdkVfyGo s
  | .verifyEnd req img => Sys2Proof.Machine.execVerifyEnd req img s
  | .sernDataWrite u b => Sys2Proof.Machine.execSernDataWrite u b s
  | .sernDataRead u => Sys2Proof.Machine.execSernDataRead u s
  | .sernStatRead u => Sys2Proof.Machine.execSernStatRead u s
  | .sernCommit u => Sys2Proof.Machine.execSernCommit u s
  | .serSetActivate u => Sys2Proof.Machine.execSerSetActivate u s
  | .characterStart u => Sys2Proof.Machine.execCharacterStart u s
  | .characterReceived u c => Sys2Proof.Machine.execCharacterReceived u c s
  | .ser1LinHdr id go => Sys2Proof.Machine.execSer1LinHdr id go s
  | .ser1LinWake us go => Sys2Proof.Machine.execSer1LinWake us go s
  | .wakePulseEnd => Sys2Proof.Machine.execWakePulseEnd s
  | .breakSeen => Sys2Proof.Machine.execBreakSeen s
  | .pid h => Sys2Proof.Machine.execPid h s
  | .frameEnd e => Sys2Proof.Machine.execFrameEnd e s
  | .hdrTimeout => Sys2Proof.Machine.execHdrTimeout s
  | .noResponse r => Sys2Proof.Machine.execNoResponse r s
  | .wakeSeen => Sys2Proof.Machine.execWakeSeen s
  | .mgtRead addr count => Sys2Proof.Machine.execMgtRead addr count s
  | .mgtWrite addr bytes => Sys2Proof.Machine.execMgtWrite addr bytes s
  | .mgtPwrCmdHoldSet => Sys2Proof.Machine.execMgtPwrCmdHoldSet s
  | .mgtPwrCmdHoldClear => Sys2Proof.Machine.execMgtPwrCmdHoldClear s
  | .mgtPwrCmdFlush => Sys2Proof.Machine.execMgtPwrCmdFlush s
  | .mgtPwrCmdPadRelease => Sys2Proof.Machine.execMgtPwrCmdPadRelease s
  | .busTimeout => Sys2Proof.Machine.execBusTimeout s
  | .mgtCopyRefresh vsys => Sys2Proof.Machine.execMgtCopyRefresh vsys s
  | .lowWordRead r => Sys2Proof.Machine.execLowWordRead r s
  | .fieldBookEntryRead off => Sys2Proof.Machine.execFieldBookEntryRead off s
  | .registerWrite r reply => Sys2Proof.Machine.execRegisterWrite r reply s
  | .flit p f => Sys2Proof.Machine.execFlit p f s
  | .undefinedOpcode n word => Sys2Proof.Machine.execUndefinedOpcode n word s
  | .falseStart u start => Sys2Proof.Machine.execFalseStart u start s
  | .pcieLinkL0 => Sys2Proof.Machine.execPcieLinkL0 s
  | .wakeOutNTimeout => Sys2Proof.Machine.execWakeOutNTimeout s
  | .dftEnLow boot => Sys2Proof.Machine.execDftEnLow boot s
  | .flrNandWait => Sys2Proof.Machine.execFlrNandWait s

end Sys2Proof.Machine
end

