-- ==== Sys2Proof/WellFormed.lean ====
section
/-!
DEFINITION. Which commands can reach the block: checks on operands beyond their types. exec is total and gives every
command its effect; these checks say which operands a host, a bus, a die or a peer can produce.
-/

namespace Sys2Proof

/-- A parameter page of a supported part: a main area of 8, 16 or 18 KiB (R197, NFC_GEOM.MAIN). -/
def TargetParam.wf (p : TargetParam) : Bool := p.main != 3

/-- The parameter page that the boot ROM reads is that of a supported part (R38). -/
def BootInputs.wf (b : BootInputs) : Bool := b.param.all TargetParam.wf

/-- A message carries its row's operation, and data exactly where the operation has some: LEN + 1 bytes, at most 256 (R256). -/
def Msg.wf (m : Msg) (op : MsgOp) : Bool :=
  m.op == op &&
    match op with
    | .write | .readResp => m.data.length == m.len.toNat + 1
    | _ => m.data.isEmpty

/-- Every parameter page that discovery finds is that of a supported part (R198). -/
def Discovery.wf (d : Discovery) : Bool := d.targets.toList.all fun t => t.copies.all fun c => c.param.wf

/-- A host reply is no longer than what was asked for. -/
def HostReply.within (r : HostReply) (n : Nat) : Bool :=
  match r with
  | .data bs => bs.length ≤ n
  | .busError => true

/-- A response received on a LIN line has at most 8 data bytes (R329). -/
def FrameEvent.wf (e : FrameEvent) : Bool :=
  match e with
  | .received bs _ _ _ => bs.length ≤ 8
  | _ => true

/-- The size of a window: the BARs of R48, and the named parts of the configuration space. -/
def Window.size : Window → Nat
  | .bar0 => 0x1000000
  | .bar2 => 0x1000
  | .bar4 => 0x10000
  | .config .header => 64
  | .config _ => 4
  | .unsupported => 0x1000000

/-- A request covers at least one byte and stays inside its window (R6, R48). -/
def requestWf (w : Window) (off : BitVec 24) (n : Nat) : Bool := 1 ≤ n && off.toNat + n ≤ w.size

/-- Whether a command can reach the block. -/
def Instr.wf : Instr → Bool
  | .flr b | .perstNRelease b | .strapLatch _ b | .supplyRetry b | .borVsysRelease b | .dftEnLow b => b.wf
  | .dormantWake w => w.boot.wf
  | .firmwareStart d => d.wf
  | .glbBootGo r => r.within 0x100000
  | .verifyEnd req img => req.within 128 && img.within 0x10000000
  | .hello _ m => m.wf .hello
  | .write _ m => m.wf .write
  | .read _ m => m.wf .read
  | .markAdd _ m => m.wf .markAdd
  | .flush _ m => m.wf .flush
  | .readResp _ m => m.wf .readResp
  | .flushAck _ m => m.wf .flushAck
  | .errResp _ m => m.wf .errResp
  | .abort _ m => m.wf .abort
  | .frameEnd e => e.wf
  | .traverseReadCompletion _ _ d => d.length ≤ 4096
  | .nandOperationEnd _ d => d.length ≤ 32768
  | .mgtRead _ count => 1 ≤ count
  | .mgtWrite _ bytes => !bytes.isEmpty
  | .fieldBookEntryRead off => 0x0B1000 ≤ off.toNat && off.toNat < 0x0B4000
  | .lowWordRead r => requestWf r.window r.off r.len
  | .registerWrite r reply => requestWf r.window r.off r.lanes.length && reply.within 0x100000
  | _ => true

end Sys2Proof
end

