-- ==== Sys2Proof/Safety.lean ====
section
/-!
DEFINITION. What claims about runs are stated in: when a run is safe, what it means that a property is kept by every step,
and the properties of states that the statements use.
-/

namespace Sys2Proof

/-- A run of k steps stops nowhere. -/
def runsFor (k : Nat) (s : Machine.State) : Prop := ∃ t, core.run k s = .next t

/-- A state is safe when no run from it stops. -/
def safe (s : Machine.State) : Prop := ∀ k, runsFor k s

/-- A property that every step keeps. -/
def keptByStep (p : Machine.State → Prop) : Prop := ∀ s t, p s → Machine.step s = .next t → p t

namespace Machine

/-- The memories of a station are in canonical form. -/
def Station.memWf (t : Station) : Bool :=
  t.mem.wf && t.bufA.wf && t.bufB.wf && t.acc.wf && t.vec.wf && t.qnt.wf && t.arr.wf && t.maa.wf && t.latches.wf

/-- Every memory of the machine is in canonical form. -/
def State.memWf (s : State) : Bool :=
  s.nand.wf && s.hostMem.wf && s.main.shm.mem.wf && s.main.stations.toList.all Station.memWf &&
    s.nv.toList.all fun v => v.toList.all fun a => a.image.wf

/-- The one-time fuses are not being burnt unless they are blank (R346). -/
def State.otpSafe (s : State) : Bool := !s.main.idk.burnBusy || s.otp.pmkState == 0

/-- What manufacture wrote into OTP and fuses, and no command changes (R1, R43, R161, R341, R342). -/
structure Made where
  stationMap : BitVec 24
  shmGroups : BitVec 3
  serial : BitVec 64
  unitKey : BitVec 256
  cert : Cert
  vendorHash : BitVec 256
  datum : Datum
  deriving DecidableEq, Repr

/-- The part of OTP that manufacture wrote. -/
def Otp.made (o : Otp) : Made :=
  { stationMap := o.stationMap, shmGroups := o.shmGroups, serial := o.serial, unitKey := o.unitKey, cert := o.cert,
    vendorHash := o.vendorHash, datum := o.datum }

/-! ## Stations -/

/-- One byte of a space (R86). -/
def State.spaceByte (s : State) (sp : Space) (a : Nat) : Byte :=
  match sp with
  | .shm => s.main.shm.mem.read a
  | .station k => (s.station k).mem.read a

/-- An instruction that asks of issue what `need` says issues on a station: the station may issue and its fetch passes, no
register that it names has a write pending, no check fails, its range meets no outstanding one and finds an entry, a held
effect finds room, and its engine's queue has a free entry (R103, R104). -/
def State.issues (s : State) (n : Fin 24) (need : Need) : Prop :=
  s.canIssue n = true ∧ s.fetchCheck n (s.station n).pc.toNat = none ∧
    (∀ r ∈ need.gs, r ∉ (s.station n).pendingG) ∧ (∀ r ∈ need.ps, r ∉ (s.station n).pendingP) ∧
    need.reasons = [] ∧ need.bound = none ∧ need.unwritten = none ∧ need.spec = none ∧
    (∀ r, need.range = some r → (∀ o ∈ (s.station n).board, r.waits o = false) ∧ (s.station n).board.length < 32) ∧
    (need.held = true → (s.ctx (s.station n).ctx).held.length < 64) ∧ need.full = false

/-- The state after an instruction of a station took the effect `f` on the station, retired, and the program counter moved
on (R104, R108). -/
def State.ran (s : State) (n : Fin 24) (f : Station → Station) : State :=
  (s.modStation n fun t => (f { t with stalls := [] }).advance).retire n

/-- The state after an instruction of a station took the effect `f` on the station and retired, and control went to a
target (R143). -/
def State.jumped (s : State) (n : Fin 24) (target : Nat) (f : Station → Station) : State :=
  (s.modStation n fun t => (f { t with stalls := [] }).branch target).retire n

/-- The state after an instruction of a station entered its engine's queue with what it captured, and the program counter
moved on (R104). -/
def State.queued (s : State) (n : Fin 24) (e : Engine) (range : Option Range) (i : Issued) : State :=
  s.modStation n fun t =>
    ({ t with stalls := [] }.enqueue e { i with epoch := s.tagOf n, range := range }).advance

/-- What the instruction needs of its engine's queue besides (R104). -/
def State.inQueue (s : State) (n : Fin 24) (e : Engine) (need : Need) : Need :=
  { need with full := 4 ≤ ((s.station n).queueOf e).length }

/-! ## Jobs -/

/-- The first taken job of a queue has started with a command, and no device-wide escalation has doomed it. -/
def State.startedJob (s : State) (q : Fin 16) (cmd : Nat) (j : Job) : Prop :=
  s.serving = true ∧ s.job q = some j ∧ j.phase = .started ∧ j.cmd = cmd ∧ j.doomed = false

/-- Bytes lo to hi - 1 of a descriptor are zero. -/
def Job.zeroBytes (j : Job) (lo hi : Nat) : Prop := ∀ i, lo ≤ i → i < hi → j.le i 1 = 0

/-- The state in which a doorbell is looked at: a Hold that is not forced ends (R295). -/
def State.rung (s : State) : State :=
  if s.main.pwr.state = .hold ∧ s.main.pwr.forcing = false then (s.modPwr fun p => { p with wakeCause := true }).cancelNotice else s

/-! ## The scalar class -/

/-- A scalar instruction g[RD] := f g[RA] op2: its minor opcode, its command, and f. -/
structure AluRow where
  minor : Nat
  command : Fin 24 → BitVec 52 → Instr
  fn : BitVec 64 → BitVec 64 → BitVec 64

/-- The scalar instructions over RD, RA and op2 as the table of R130 gives them. -/
def aluRows : List AluRow :=
  [⟨0x01, .add, fun a b => a + b⟩, ⟨0x02, .sub, fun a b => a - b⟩, ⟨0x03, .and, fun a b => a &&& b⟩,
   ⟨0x04, .or, fun a b => a ||| b⟩, ⟨0x05, .xor, fun a b => a ^^^ b⟩,
   ⟨0x06, .shl, fun a b => a <<< (b.toNat % 64)⟩, ⟨0x07, .shr, fun a b => a >>> (b.toNat % 64)⟩,
   ⟨0x08, .sra, fun a b => a.sshiftRight (b.toNat % 64)⟩, ⟨0x09, .mul, fun a b => a * b⟩,
   ⟨0x0A, .min, fun a b => if a.toInt < b.toInt then a else b⟩, ⟨0x0B, .max, fun a b => if a.toInt < b.toInt then b else a⟩,
   ⟨0x0C, .slt, fun a b => if a.toInt < b.toInt then 1 else 0⟩, ⟨0x0D, .sltu, fun a b => if a.toNat < b.toNat then 1 else 0⟩,
   ⟨0x0E, .seq, fun a b => if a = b then 1 else 0⟩]

/-- The commands that stand for an instruction of a station (chapters 5 to 9). -/
def stationInstrs (n : Fin 24) (w : BitVec 52) : List Instr :=
  [.nop n w, .add n w, .sub n w, .and n w, .or n w, .xor n w, .shl n w, .shr n w, .sra n w, .mul n w, .min n w, .max n w,
   .slt n w, .sltu n w, .seq n w, .movhi n w, .ld64 n w, .ld32 n w, .st64 n w, .st32 n w, .dset n w, .dget n w, .doff n w,
   .rdtime n w, .vadd n w, .vsub n w, .vmul n w, .vfma n w, .vmax n w, .vmin n w, .vbcast n w, .vcmplt n w, .vcmpeq n w,
   .vredsum n w, .vredmax n w, .vld n w, .vst n w, .vsta n w, .mLd n w, .mSt n w, .mSta n w, .mma n w, .mmaz n w, .aclr n w,
   .aconv n w, .maa n w, .qnt n w, .dqn n w, .qact n w, .msig n w, .mwait n w, .bar n w, .sFence n w, .br n w, .brc n w,
   .call n w, .jr n w, .loop n w, .endProg n w, .eopen n w, .ecloseCommit n w, .ecloseDiscard n w, .efence n w]

end Machine

end Sys2Proof
end

