-- ==== Sys2Proof/Certificates/Slice0/Obligations.lean ====
section
/-!
DEFINITION. The statements for the provers. Each docstring names the rules of spec/ that its statement is about; the words
`model's choice` and a log entry mark what rests on a choice of the model.
-/

open Sys2Proof Sys2Proof.Machine

/-! ## The block -/

/-- Step takes the command at the front of the queue: step with c in front is exec of c on the state with the rest. The model's
choices: log entries 5 and 6. -/
def Obligations.StepRunsFrontCommand : Prop :=
  ∀ (c : Instr) (rest : List Instr) (s : State), step { s with pending := c :: rest } = exec c { s with pending := rest }

/-! ## The scalar class -/

/-- R130, R108: each instruction over RD, RA and op2, with the fields that it does not use zero, writes its result into g[RD],
where g0 takes none; it retires and the program counter moves on; nothing else changes.
R130: NOP, MOVHI, DSET, DGET, DOFF and RDTIME, each with the fields that it does not use zero. The model's choice: log entry
7. -/
def Obligations.ScalarResults : Prop :=
  (∀ row ∈ aluRows, ∀ (n : Fin 24) (w : BitVec 52) (s : State), let x := wordOf 1 row.minor w
     field x 35 32 = 0 → (if iOf x then rbOf x = 0 else immOf x = 0) →
     s.issues n { gs := if iOf x then [rdOf x, raOf x] else [rdOf x, raOf x, rbOf x] } →
     exec (row.command n w) s = .next (s.ran n fun t => t.wg (rdOf x)
       (row.fn (t.rg (raOf x)) (if iOf x then (immOf x).signExtend 64 else t.rg (rbOf x))))) ∧
  (∀ (n : Fin 24) (w : BitVec 52) (s : State),
     (s.issues n {} → exec (.nop n 0) s = .next (s.ran n id)) ∧
     (let x := wordOf 1 0x0F w
      field x 36 32 = 0 → rbOf x = 0 → s.issues n { gs := [rdOf x, raOf x] } →
      exec (.movhi n w) s = .next (s.ran n fun t => t.wg (rdOf x) (immOf x ++ (t.rg (raOf x)).extractLsb' 0 32))) ∧
     (let x := wordOf 1 0x14 w
      field x 36 0 = 0 → rdOf x < 8 → s.issues n { gs := [raOf x, rbOf x] } →
      exec (.dset n w) s = .next (s.ran n fun t => t.wd (rdOf x) (t.rg (rbOf x) ++ t.rg (raOf x)))) ∧
     (let x := wordOf 1 0x15 w
      field x 35 0 = 0 → rbOf x = 0 → raOf x < 8 → s.issues n { gs := [rdOf x] } →
      exec (.dget n w) s = .next (s.ran n fun t => t.wg (rdOf x)
        (if iOf x then (t.rd (raOf x)).extractLsb' 64 64 else (t.rd (raOf x)).extractLsb' 0 64))) ∧
     (let x := wordOf 1 0x16 w
      field x 36 32 = 0 → rbOf x = 0 → rdOf x < 8 → s.issues n { gs := [raOf x] } →
      exec (.doff n w) s = .next (s.ran n fun t => let d := t.rd (rdOf x)
        t.wd (rdOf x) (d.extractLsb' 37 91 ++
          (d.extractLsb' 8 29 + (t.rg (raOf x)).setWidth 29 + (immSext x).setWidth 29) ++ d.extractLsb' 0 8))) ∧
     (let x := wordOf 1 0x17 w
      field x 46 0 = 0 → s.issues n { gs := [rdOf x] } →
      exec (.rdtime n w) s = .next (s.ran n fun t => t.wg (rdOf x) s.time)))

/-- R131, R87, R88: LD64 and LD32 at a multiple of their size, through a descriptor that passes R101 and a parcel that passes
the checks, bring the bytes at the scalar address, zero-extended, into g[RD]. The model's choice: log entry 7. -/
def Obligations.ScalarLoadResults : Prop :=
  ∀ row ∈ [(0x10, 8, Instr.ld64), (0x11, 4, Instr.ld32)], ∀ (n : Fin 24) (w : BitVec 52) (s : State),
    let x := wordOf 1 row.1 w
    let t := s.station n
    let off := (t.scalarOff x)
    let p := s.parcelOfD n (t.rd (raOf x))
    let place := s.scalarPlace n x
    field x 36 32 = 0 → raOf x < 8 → dBad (t.rd (raOf x)) false = false → off % row.2.1 = 0 →
    s.parcelCheck p n true .read off (off + row.2.1 - 1) = none →
    s.issues n { gs := [rdOf x, rbOf x], range := some (granules place.1 place.2 (place.2 + row.2.1 - 1) .read) } →
    exec (row.2.2 n w) s = .next (s.ran n fun t => t.touchBoard.wg (rdOf x) (word 64 (s.spaceRead place.1 place.2 row.2.1)))

/-- R131, R87, R88, R187: ST64 that kicks no channel, and ST32, write the low bytes of g[RD] at the scalar address, lowest
first, and no other byte of the spaces that parcels name; under an open epoch the parcel needs SPEC. The model's choice: log
entry 7. -/
def Obligations.ScalarStoreResults : Prop :=
  ∀ row ∈ [(0x12, 8, Instr.st64), (0x13, 4, Instr.st32)], ∀ (n : Fin 24) (w : BitVec 52) (s : State),
    let x := wordOf 1 row.1 w
    let t := s.station n
    let off := (t.scalarOff x)
    let p := s.parcelOfD n (t.rd (raOf x))
    let place := s.scalarPlace n x
    s.memWf = true → (row.1 = 0x12 → s.kickChan n x = none) →
    field x 36 32 = 0 → raOf x < 8 → dBad (t.rd (raOf x)) true = false → off % row.2.1 = 0 →
    s.parcelCheck p n true .write off (off + row.2.1 - 1) = none → ((s.tagOf n).isSome → p.has 5 = true) →
    s.issues n { gs := [rdOf x, rbOf x], range := some (granules place.1 place.2 (place.2 + row.2.1 - 1) .write) } →
    ∃ u, exec (row.2.2 n w) s = .next u ∧
      u = ((((s.modStation n fun t => { t with stalls := [] }).spaceWrite place.1 place.2
        (toBytes (t.rg (rdOf x)) row.2.1)).modStation n fun t => t.touchBoard.advance).retire n) ∧
      (∀ k < row.2.1, u.spaceByte place.1 (place.2 + k) = byteOf (t.rg (rdOf x)) k) ∧
      ∀ (sp : Space) (a : Nat), (sp ≠ place.1 ∨ a < place.2 ∨ place.2 + row.2.1 ≤ a) → u.spaceByte sp a = s.spaceByte sp a

/-- R103, R104: a station that may not issue does nothing with an instruction that is offered to it, whatever the word.
R125, R126: a word whose opcode is defined for no instruction stops its station with ILLEGAL_INSTR and reason 0x01, where no
epoch is open; no g register is asked for.
R104, R93, R94, R118: what issue does with one instruction, in the order of the rule: the fetch, the wait for a pending
register, the lowest reason of ILLEGAL_INSTR, BOUND_FAULT, ARRAY_UNWRITTEN, SPEC_VIOLATION, the waits (every one that holds
it back is noted, for its counter), and its effect. The model's choices: log entries 1, 7 and 79 (1: a command whose condition
does not hold changes nothing). -/
def Obligations.IssueChecksInOrder : Prop :=
  ((∀ (n : Fin 24) (w : BitVec 52) (s : State), s.canIssue n = false → ∀ c ∈ stationInstrs n w, exec c s = .next s) ∧
   (∀ (n : Fin 24) (word : BitVec 64) (s : State), opcodeDefined word = false → s.canIssue n = true →
      s.fetchCheck n (s.station n).pc.toNat = none → s.tagOf n = none →
      exec (.undefinedOpcode n word) s = .next ((s.reportFault n (s.station n).queue (s.station n).order stIllegalInstr
        (BitVec.ofNat 32 (0x01 + 256 * n.val)) (s.station n).pcWord word false).settleAll))) ∧
  (∀ (n : Fin 24) (word : BitVec 64) (need : Need) (go : State → State) (s : State), s.canIssue n = true →
     (∀ d, s.fetchCheck n (s.station n).pc.toNat = some d → s.issue n word need go = s.fetchFault n d) ∧
     (s.fetchCheck n (s.station n).pc.toNat = none →
       ((∃ r ∈ need.gs, r ∈ (s.station n).pendingG) → s.issue n word need go = s.modStation n fun t => { t with stalls := [.reg] }) ∧
       ((∀ r ∈ need.gs, r ∉ (s.station n).pendingG) → (∀ r ∈ need.ps, r ∉ (s.station n).pendingP) →
         (∀ r ∈ need.reasons, (∀ k ∈ need.reasons, r ≤ k) →
           s.issue n word need go = s.issueFault n word stIllegalInstr (BitVec.ofNat 32 (r + 256 * n.val))) ∧
         (need.reasons = [] → ∀ d, need.bound = some d → s.issue n word need go = s.issueFault n word stBoundFault d) ∧
         (need.reasons = [] → need.bound = none → ∀ a, need.unwritten = some a →
           s.issue n word need go = s.issueFault n word stArrayUnwritten (BitVec.ofNat 32 (a + 256 * n.val))) ∧
         (need.reasons = [] → need.bound = none → need.unwritten = none → ∀ d, need.spec = some d →
           s.issue n word need go = s.issueFault n word stSpecViolation d) ∧
         (need.reasons = [] → need.bound = none → need.unwritten = none → need.spec = none →
           let overlap := ∃ r, need.range = some r ∧ ∃ o ∈ (s.station n).board, r.waits o = true
           let entries := need.range ≠ none ∧ 32 ≤ (s.station n).board.length
           let closure := need.held = true ∧ 64 ≤ (s.ctx (s.station n).ctx).held.length
           (overlap ∨ entries ∨ closure ∨ need.full = true → ∃ why : List Stall,
             s.issue n word need go = (s.modStation n fun t => { t with stalls := why }) ∧
             (.overlap ∈ why ↔ overlap) ∧ (.entries ∈ why ↔ entries) ∧ (.closure ∈ why ↔ closure) ∧ (.queue ∈ why ↔ need.full = true) ∧
             .reg ∉ why) ∧
           (¬ (overlap ∨ entries ∨ closure ∨ need.full = true) →
             s.issue n word need go = go (s.modStation n fun t => { t with stalls := [] }))))))

/-- R108, R272, R100: what a scalar instruction that ran leaves: its g register holds the value, g0 reads as zero, the retired
counts grew, and no other register, station, memory or part of the machine changed.
R124, R144: the program counter after an instruction that did not branch: the next word; at the end of the innermost loop's
body with passes left its first word, one pass spent; at the end with none left the loop ends. -/
def Obligations.ScalarFrame : Prop :=
  (∀ (n : Fin 24) (r : Nat) (v : BitVec 64) (s : State), r < 32 → let u := s.ran n fun t => t.wg r v
     (∀ k < 32, (u.station n).rg k = if k = r ∧ r ≠ 0 then v else (s.station n).rg k) ∧
     (u.station n).rg 0 = 0 ∧
     (u.station n).retired = (s.station n).retired + 1 ∧
     u.station n = { s.station n with
       g := (u.station n).g, pc := (u.station n).pc, loops := (u.station n).loops, stalls := [],
       retired := (u.station n).retired } ∧
     (∀ m, m ≠ n → u.station m = s.station m) ∧
     (∀ c, c ≠ (s.station n).ctx → u.ctx c = s.ctx c) ∧
     (∀ sp a, u.spaceByte sp a = s.spaceByte sp a) ∧
     u = { s with main := { s.main with stations := u.main.stations, ctxs := u.main.ctxs } }) ∧
  (∀ (t : Station),
     (t.loops = [] → t.pc.toNat + 8 ≤ 0xFFFFFFF8 → t.advance = { t with pc := t.pc + 8 }) ∧
     (∀ l ls, t.loops = l :: ls → l.last ≠ t.pc.toNat → t.pc.toNat + 8 ≤ 0xFFFFFFF8 → t.advance = { t with pc := t.pc + 8 }) ∧
     (∀ l ls, t.loops = l :: ls → l.last = t.pc.toNat → 1 < l.left → l.first ≤ 0xFFFFFFF8 →
       t.advance = { t with pc := BitVec.ofNat 32 l.first, loops := { l with left := l.left - 1 } :: ls }) ∧
     (∀ l, t.loops = [l] → l.last = t.pc.toNat → l.left ≤ 1 → t.pc.toNat + 8 ≤ 0xFFFFFFF8 →
       t.advance = { t with pc := t.pc + 8, loops := [] }))

/-! ## Branches, loops and END -/

/-- R143, R144: a BR, a BRC whose condition holds, a CALL and a JR, with the fields that they do not use zero, not the last word
of an active body, and with a target inside the parcel, move control to the target; CALL writes the next offset into g[RD];
active loops whose body does not hold the target end.
R143: when the condition of a BRC holds. The model's choice: log entry 7. -/
def Obligations.BranchResults : Prop :=
  (∀ (n : Fin 24) (w : BitVec 52) (s : State), let t := s.station n
     (∀ l ∈ t.loops, l.last ≠ t.pc.toNat) →
     (let x := wordOf 8 0x01 w
      field x 51 32 = 0 → s.fetchCheck n (t.relTarget x) = none → s.issues n {} →
      exec (.br n w) s = .next (s.jumped n (t.relTarget x) id)) ∧
     (let x := wordOf 8 0x02 w
      rdOf x = 0 → field x 38 32 = 0 → cCond x < 6 → (4 ≤ cCond x → raOf x < 8) →
      s.issues n (if 4 ≤ cCond x then { ps := [raOf x] } else { gs := [raOf x] }) →
      (t.cond x = true → s.fetchCheck n (t.relTarget x) = none → exec (.brc n w) s = .next (s.jumped n (t.relTarget x) id)) ∧
      (t.cond x = false → exec (.brc n w) s = .next (s.ran n id))) ∧
     (let x := wordOf 8 0x03 w
      field x 46 32 = 0 → s.fetchCheck n (t.relTarget x) = none → s.issues n { gs := [rdOf x] } →
      exec (.call n w) s = .next (s.jumped n (t.relTarget x) fun t => t.wg (rdOf x) (t.pc.setWidth 64 + 8))) ∧
     (let x := wordOf 8 0x04 w
      rdOf x = 0 → field x 41 0 = 0 → (t.rg (raOf x)).toNat % 8 = 0 → (t.rg (raOf x)).toNat < 2 ^ 32 →
      s.fetchCheck n (t.rg (raOf x)).toNat = none → s.issues n { gs := [raOf x] } →
      exec (.jr n w) s = .next (s.jumped n (t.rg (raOf x)).toNat id))) ∧
  (∀ (t : Station) (w : BitVec 64),
     (cCond w = 0 → (t.cond w = true ↔ t.rg (raOf w) = 0)) ∧ (cCond w = 1 → (t.cond w = true ↔ t.rg (raOf w) ≠ 0)) ∧
     (cCond w = 2 → (t.cond w = true ↔ (t.rg (raOf w)).toInt < 0)) ∧ (cCond w = 3 → (t.cond w = true ↔ 0 ≤ (t.rg (raOf w)).toInt)) ∧
     (cCond w = 4 → (t.cond w = true ↔ t.rp (raOf w) ≠ 0)) ∧
     (cCond w = 5 → (t.cond w = true ↔ t.rp (raOf w) = BitVec.allOnes 256)))

/-- R144: a LOOP of at least one word, within the body of the enclosing loop, with at most three loops active, opens a loop
whose body starts behind it, with g[RA] passes; with a count of zero control goes behind the body and no loop opens.
R112, R114: END stops issue for good; the stations that wait for it at a barrier are checked, and the station falls free
once all its work has ended. The model's choice: log entry 7. -/
def Obligations.LoopAndEndResults : Prop :=
  (∀ (n : Fin 24) (w : BitVec 52) (s : State), let t := s.station n
     let x := wordOf 8 0x05 w
     let last := t.pc.toNat + 8 * (cImm x).toNat
     rdOf x = 0 → field x 41 32 = 0 → 0 < cImm x → (∀ l ∈ t.loops.head?, last ≤ l.last) → t.loops.length < 4 →
     (∀ l ∈ t.loops, l.last ≠ t.pc.toNat) → s.issues n { gs := [raOf x] } →
     (t.rg (raOf x) ≠ 0 → exec (.loop n w) s = .next ((s.modStation n fun t =>
       { t with stalls := [], pc := t.pc + 8, loops := { first := t.pc.toNat + 8, last := last, left := t.rg (raOf x) } :: t.loops }).retire n)) ∧
     (t.rg (raOf x) = 0 → exec (.loop n w) s = .next ((s.modStation n fun t => { t with stalls := [] }.advanceFrom last).retire n))) ∧
  (∀ (n : Fin 24) (s : State), (∀ l ∈ (s.station n).loops, l.last ≠ (s.station n).pc.toNat) → s.issues n {} →
     exec (.endProg n 0) s = .next ((List.finRange 4).foldl (fun v b => v.barCheck (s.station n).queue (s.station n).order b)
       ((s.modStation n fun t => { t with stalls := [], ended := true }).retire n)).settleAll)

/-! ## The engines -/

/-- R132, R104, R105: each vector instruction, with the fields that it does not use zero and its register fields in range,
enters the vector unit's queue with the value of g[RA] that it captured; it presents no range. The model's choice: log entry
7. -/
def Obligations.VectorInstructionsQueue : Prop :=
  ∀ (n : Fin 24) (w : BitVec 52) (s : State),
    (∀ row ∈ [(0x01, Instr.vadd), (0x02, Instr.vsub), (0x03, Instr.vmul), (0x04, Instr.vfma), (0x05, Instr.vmax), (0x06, Instr.vmin)],
      let x := wordOf 6 row.1 w
      immOf x = 0 → etypeOf x < 3 → rdOf x < 16 → raOf x < 16 → rbOf x < 16 →
      s.issues n (s.inQueue n .vector { ps := [prOf x] }) →
      exec (row.2 n w) s = .next (s.queued n .vector none { word := x, gval := (s.station n).rg (raOf x) })) ∧
    (let x := wordOf 6 0x07 w
     immOf x = 0 → etypeOf x < 3 → rdOf x < 16 → rbOf x = 0 →
     s.issues n (s.inQueue n .vector { gs := [raOf x], ps := [prOf x] }) →
     exec (.vbcast n w) s = .next (s.queued n .vector none { word := x, gval := (s.station n).rg (raOf x) })) ∧
    (∀ row ∈ [(0x08, Instr.vcmplt), (0x09, Instr.vcmpeq)], let x := wordOf 6 row.1 w
      immOf x = 0 → etypeOf x < 3 → rdOf x < 8 → raOf x < 16 → rbOf x < 16 →
      s.issues n (s.inQueue n .vector { ps := [prOf x, rdOf x] }) →
      exec (row.2 n w) s = .next (s.queued n .vector none { word := x, gval := (s.station n).rg (raOf x) })) ∧
    (∀ row ∈ [(0x0A, Instr.vredsum), (0x0B, Instr.vredmax)], let x := wordOf 6 row.1 w
      immOf x = 0 → etypeOf x < 3 → raOf x < 16 → rbOf x = 0 →
      s.issues n (s.inQueue n .vector { gs := [rdOf x], ps := [prOf x] }) →
      exec (row.2 n w) s = .next (s.queued n .vector none { word := x, gval := (s.station n).rg (raOf x) })) ∧
    (∀ row ∈ [(0x0C, 8192, Instr.vld), (0x0D, 8192, Instr.vst), (0x0E, 16384, Instr.vsta)], let x := wordOf 6 row.1 w
      field x 46 32 = 0 → rdOf x < 16 → (immOf x).toNat % 256 = 0 → (immOf x).toNat < row.2.1 →
      s.issues n (s.inQueue n .vector {}) →
      exec (row.2.2 n w) s = .next (s.queued n .vector none { word := x, gval := (s.station n).rg (raOf x) }))

/-- R133 to R135, R92, R104: M_LD, M_ST and M_STA that pass every check enter the queue of the engine that owns their buffer,
with the memory side that their descriptor and g[GOFF] name at issue and the range of its granules. The model's choice: log
entry 7. -/
def Obligations.TransfersQueue : Prop :=
  ∀ row ∈ [(0x01, false, false, Instr.mLd), (0x02, true, false, Instr.mSt), (0x03, true, true, Instr.mSta)],
    ∀ (n : Fin 24) (w : BitVec 52) (s : State), let x := wordOf 2 row.1 w
    let d := (s.station n).rd (mD x)
    let p := s.parcelOfD n d
    let start := p.base.toNat + (s.station n).xferOff x
    s.issues n (s.inQueue n (bufEngine (mBuf x)) (s.xferNeed n x row.2.1 row.2.2.1)) →
    exec (row.2.2.2 n w) s = .next (s.queued n (bufEngine (mBuf x))
      (some ⟨p.spaceFor n, start / 64, (start + (dLength d - 1) * dStride d + 2 ^ dEsize d - 1) / 64,
        if row.2.2.1 then .acc (BitVec.ofNat 2 (mAccop x)) else if row.2.1 then .write else .read⟩)
      { word := x, xfer := some { space := p.spaceFor n, start := start, length := dLength d, esize := 2 ^ dEsize d, stride := dStride d } })

/-- R137 to R141, R104: MMA, MMAZ and ACLR enter the DMU's queue, ACONV (with every array of its mask still to start) and MAA
that of the arrays, QNT, DQN and QACT that of the quantiser; none presents a range. The model's choice: log entry 7. -/
def Obligations.MatrixArrayQuantiserQueue : Prop :=
  ∀ (n : Fin 24) (w : BitVec 52) (s : State),
    (∀ row ∈ [(0x01, matNeed, Instr.mma), (0x02, matNeed, Instr.mmaz), (0x03, aclrNeed, Instr.aclr)], let x := wordOf 3 row.1 w
      s.issues n (s.inQueue n .dmu (row.2.1 x)) → exec (row.2.2 n w) s = .next (s.queued n .dmu none { word := x })) ∧
    (let x := wordOf 4 0x01 w
     field x 8 0 = 0 → aMask x ≠ 0 → (∀ a : Fin 32, (aMask x).getLsbD a.val = true → (s.arrayNv n a).state = 1) →
     s.issues n (s.inQueue n .arrays {}) → exec (.aconv n w) s = .next (s.queued n .arrays none { word := x, todo := aMask x })) ∧
    (let x := wordOf 4 0x02 w
     field x 18 0 = 0 → aMask x ≠ 0 →
     s.issues n (s.inQueue n .arrays {}) → exec (.maa n w) s = .next (s.queued n .arrays none { word := x })) ∧
    (∀ row ∈ [(0x01, qntNeed, Instr.qnt), (0x02, dqnNeed, Instr.dqn), (0x03, qactNeed, Instr.qact)], let x := wordOf 5 row.1 w
      s.issues n (s.inQueue n .quantiser (row.2.1 x)) → exec (row.2.2 n w) s = .next (s.queued n .quantiser none { word := x }))

/-- R105, R108, R94, R112: the instruction at the head of an engine's queue, where nothing holds it back and no array of it is
left, takes its effect, leaves the queue with its range, and retires; then the station falls free if it was the last. An MAA
does so outside a switch of the station divider (R30). R139, R107, R157: the next array of the oldest ACONV with arrays to start
takes a slot: the lowest of its mask, with the post-processing set and the zero point as they are now, behind the writes that an
earlier conversion of it held back. The model's choices: log entries 1 and 47. -/
def Obligations.InstructionRetires : Prop :=
  (∀ (n : Fin 24) (e : Engine) (i : Issued) (rest : List Issued) (s : State), s.stationsOn = true →
     (s.station n).queueOf e = i :: rest → (s.station n).heldBack e i = false → i.todo = 0 → i.convs = [] →
     (majorOf i.word = 4 → minorOf i.word = 2 → s.main.pwr.switching = false) →
     exec (.instructionRetire n e) s = .next
       (((s.engineEffect n i).modStation n fun t => t.dequeue e i).retire n |>.settle n)) ∧
  (∀ (n : Fin 24) (i : Issued) (a : Fin 32) (s : State), let t := s.station n
     nextConv t.arrQ = some i → i.todo.getLsbD a.val = true → (∀ b : Fin 32, b < a → i.todo.getLsbD b.val = false) →
     s.stationsOn = true → s.main.pwr.switching = false → t.heldBack .arrays i = false → t.converting < 2 → t.arrayBusy a = false →
     let free := t.releaseArray a
     exec (.conversionStart n) s = .next ((s.modStation n fun t => { t with
       heldWrites := t.heldWrites.filter fun h => h.array != a, arrays := free.arrays,
       arrQ := t.arrQ.map fun j =>
         if j.seq = i.seq then { j with
           todo := setBit j.todo a.val false,
           convs := j.convs ++ [{ array := a, ppset := t.ppset[Fin.ofNat 16 (aPpsel i.word)], zp := (free.arrays[a]).zp, stamp := s.stamp }] }
         else j }).nextStamp) ∧
     (∀ b : Fin 32, b ≠ a → free.arrays[b] = t.arrays[b]) ∧ ((∀ h ∈ t.heldWrites, h.array ≠ a) → free.arrays = t.arrays))

/-- R132: the effect of VADD, VSUB, VMUL, VFMA, VMAX and VMIN on each lane: an active lane takes the operation's value, a lane
that is not active keeps its own, and no other register, buffer or flag of the station changes. -/
def Obligations.VectorLaneResults : Prop :=
  ∀ (k : Nat) (ff : Fl → Fl → Fl → Fl) (fi : Int → Int → Int → Int), (k, ff, fi) ∈
      [(0x01, (fun _ a b => a.add b : Fl → Fl → Fl → Fl), (fun _ a b => a + b : Int → Int → Int → Int)),
       (0x02, (fun _ a b => a.add b.neg), (fun _ a b => a - b)), (0x03, (fun _ a b => a.mul b), (fun _ a b => a * b)),
       (0x04, (fun d a b => d.add (a.mul b)), (fun d a b => d + a * b)), (0x05, (fun _ a b => a.max b), (fun _ a b => max a b)),
       (0x06, (fun _ a b => a.min b), (fun _ a b => min a b))] →
    ∀ (t : Station) (w g : BitVec 64), minorOf w = k → etypeOf w < 3 → rdOf w < 16 →
    let b := laneBits (etypeOf w)
    let u := t.vectorEffect w g
    (∀ i < laneCount (etypeOf w), laneAt b (u.rv (rdOf w)) i =
      if (t.rp (prOf w)).getLsbD (b / 8 * i)
      then laneOp (etypeOf w) ff fi (laneAt b (t.rv (rdOf w)) i) (laneAt b (t.rv (raOf w)) i) (laneAt b (t.rv (rbOf w)) i)
      else laneAt b (t.rv (rdOf w)) i) ∧
    (∀ r < 16, r ≠ rdOf w → u.rv r = t.rv r) ∧ u = { t with v := u.v }

/-- R132, R100: what a vector instruction of the other kinds writes: VBCAST the low bits of the captured value in each active
lane, VREDSUM and VREDMAX one g register, the compares one p register and p0 never, VLD one v register from the vector
buffer.
R132: with no lane active VREDSUM gives +0, or 0, and VREDMAX minus infinity, or the least INT32, sign-extended. -/
def Obligations.VectorOtherResults : Prop :=
  (∀ (t : Station) (w g : BitVec 64), t.memWf = true → rdOf w < 16 → etypeOf w < 3 →
     let b := laneBits (etypeOf w)
     let u := t.vectorEffect w g
     (minorOf w = 0x07 → (∀ i < laneCount (etypeOf w), laneAt b (u.rv (rdOf w)) i =
       if (t.rp (prOf w)).getLsbD (b / 8 * i) then g.toNat % 2 ^ b else laneAt b (t.rv (rdOf w)) i) ∧ u = { t with v := u.v }) ∧
     (minorOf w = 0x08 ∨ minorOf w = 0x09 → (∀ r < 8, r ≠ rdOf w → u.rp r = t.rp r) ∧ u.rp 0 = BitVec.allOnes 256 ∧ u = { t with p := u.p }) ∧
     (minorOf w = 0x0A → u = t.wg (rdOf w) (t.redSum w)) ∧ (minorOf w = 0x0B → u = t.wg (rdOf w) (t.redMax w)) ∧
     (minorOf w = 0x0C → toBytes (u.rv (rdOf w)) 256 = t.vec.readBytes (immOf w).toNat 256 ∧ u = { t with v := u.v }) ∧
     (minorOf w = 0x0D → (∀ i < 256, u.vec.read ((immOf w).toNat + i) = byteOf (t.rv (rdOf w)) i) ∧ u = { t with vec := u.vec }) ∧
     (minorOf w = 0x0E → (∀ i < 256, u.bufA.read ((immOf w).toNat + i) = byteOf (t.rv (rdOf w)) i) ∧ u = { t with bufA := u.bufA })) ∧
  (∀ (t : Station) (w : BitVec 64), etypeOf w < 3 → (∀ i < laneCount (etypeOf w), (t.rp (prOf w)).getLsbD (laneBits (etypeOf w) / 8 * i) = false) →
     t.redSum w = 0 ∧ t.redMax w = if etypeOf w = 2 then 0xFFFFFFFF80000000 else 0x00000000FF800000)

/-- R133, R135: LD fills its buffer from BOFF with the bytes of its memory side, element by element, and changes no other byte
of the buffer and nothing else; ST with CVT 0 writes the buffer's bytes to a memory side without gaps and no other byte. -/
def Obligations.TransferEffects : Prop :=
  ∀ (n : Fin 24) (i : Issued) (x : Xfer) (s : State), s.memWf = true → mBuf i.word < 7 → 0 < x.length →
    (minorOf i.word = 1 → let u := s.xferEffect n i x
      (∀ k a : Nat, k < x.length → a < x.esize →
        ((u.station n).buf (mBuf i.word)).read (64 * mBoff i.word + k * x.esize + a) = s.spaceByte x.space (x.start + k * x.stride + a)) ∧
      (∀ a, (a < 64 * mBoff i.word ∨ 64 * mBoff i.word + x.length * x.esize ≤ a) →
        ((u.station n).buf (mBuf i.word)).read a = ((s.station n).buf (mBuf i.word)).read a) ∧
      (∀ m, m ≠ n → u.station m = s.station m) ∧ u.main.shm = s.main.shm) ∧
    (minorOf i.word = 2 → mCvt i.word = 0 → x.stride = x.esize → let u := s.xferEffect n i x
      (∀ a < x.length * x.esize, u.spaceByte x.space (x.start + a) = ((s.station n).buf (mBuf i.word)).read (64 * mBoff i.word + a)) ∧
      (∀ sp a, (sp ≠ x.space ∨ a < x.start ∨ x.start + x.length * x.esize ≤ a) → u.spaceByte sp a = s.spaceByte sp a))

/-- R137, R136, R134, R175: ACLR zeroes rows 0 to M - 1, columns 16 COFF to 16 COFF + N - 1 of the accumulator; MMA gives each
of those elements the DMU's sum onto its old value, MMAZ onto +0; every other element keeps its bytes.
R97: the three accumulate operations on one element: the INT32 sum saturates and reports it, the FP32 sum and maximum report
a NaN, which is the canonical one. -/
def Obligations.MatrixResults : Prop :=
  (∀ (n : Fin 24) (i : Issued) (s : State), s.memWf = true → field i.word 51 49 < 5 → 16 * xCoff i.word + xN i.word ≤ 256 →
     let w := i.word
     let t := s.station n
     let u := s.matrixEffect n i
     let inTile := fun r c => r < xM w ∧ 16 * xCoff w ≤ c ∧ c < 16 * xCoff w + xN w
     let scales := (if xSsel w then t.bufA else t.bufB).readBytes (64 * xSoff w) (xScaleBytes w)
     let col := fun c => (bColumn w (t.bufB.readBytes (64 * xBoff w) (xCodeBytes w)) scales (c - 16 * xCoff w)).map Prod.fst
     let row := aRow w (t.bufA.readBytes (64 * xAoff w) (xABytes w))
     (∀ r c, ¬ inTile r c → c < 256 → (u.station n).acc.readBytes ((256 * r + c) * 4) 4 = t.acc.readBytes ((256 * r + c) * 4) 4) ∧
     (minorOf w = 3 → ∀ r c, inTile r c → (u.station n).acc.readBytes ((256 * r + c) * 4) 4 = [0, 0, 0, 0]) ∧
     (minorOf w = 1 → ∀ r c, inTile r c → (u.station n).acc.readBytes ((256 * r + c) * 4) 4 =
       toBytes (dmuSum (BitVec.ofNat 32 (t.acc.readLE ((256 * r + c) * 4) 4)) (row r) (col c)) 4) ∧
     (minorOf w = 2 → ∀ r c, inTile r c → (u.station n).acc.readBytes ((256 * r + c) * 4) 4 = toBytes (dmuSum 0 (row r) (col c)) 4)) ∧
  (∀ a b : BitVec 32,
     (accumulate 2 a b).1.toInt = max (-2 ^ 31) (min (2 ^ 31 - 1) (a.toInt + b.toInt)) ∧
     ((accumulate 2 a b).2 = if a.toInt + b.toInt < -2 ^ 31 ∨ 2 ^ 31 - 1 < a.toInt + b.toInt then flagIntSat else 0) ∧
     (∀ op, op = 1 ∨ op = 3 → (dec32 a = .nan ∨ dec32 b = .nan) → accumulate op a b = (0x7FC00000, flagFpNan)) ∧
     (dec32 a = .inf false → dec32 b = .inf true → accumulate 1 a b = (0x7FC00000, flagFpNan)) ∧
     accumulate 3 0x80000000 0 = (0, 0) ∧ accumulate 3 0 0x80000000 = (0, 0))

/-! ## Marks, barriers and epochs -/

/-- R115, R142, R96, R187: MSIG waits behind the station's writes, or under an epoch in the closure buffer; MWAIT retires where
the mark has reached the threshold, compared as unsigned, and otherwise the station waits; the signal, and the end of the
wait. The model's choice: log entry 7. -/
def Obligations.MarkInstructions : Prop :=
  ∀ (n : Fin 24) (w : BitVec 52) (s : State), let t := s.station n
    (let x := wordOf 7 0x01 w
     field x 40 0 = 0 →
     (s.tagOf n = none → s.issues n { gs := [sRb x] } → exec (.msig n w) s = .next ((s.ran n id).modStation n fun u =>
       { u with signals := u.signals ++ [{ mark := sMark x, value := t.rg (sRb x), seq := t.issueSeq }] })) ∧
     (∀ e, s.tagOf n = some e → s.issues n { gs := [sRb x], held := true } → exec (.msig n w) s = .next ((s.ran n id).modCtx t.ctx fun c =>
       { c with held := c.held ++ [⟨e, .msig n (sMark x) (t.rg (sRb x)) t.issueSeq⟩] }))) ∧
    (let x := wordOf 7 0x02 w
     field x 40 0 = 0 → s.issues n { gs := [sRb x] } →
     ((t.rg (sRb x)).toNat ≤ (s.main.marks[sMark x]).toNat → exec (.mwait n w) s = .next (s.ran n id)) ∧
     ((s.main.marks[sMark x]).toNat < (t.rg (sRb x)).toNat → exec (.mwait n w) s =
       .next (s.modStation n fun u => { u with stalls := [], markWait := some (sMark x, t.rg (sRb x)) }))) ∧
    (∀ g rest, t.signals = g :: rest → s.serving = true → t.writesBefore g.seq = true →
      exec (.markSignalVisible n) s = .next (((s.setMark g.mark (s.main.marks[g.mark] + g.value)).modStation n fun u =>
        { u with signals := rest }).settle n)) ∧
    (∀ m v, t.markWait = some (m, v) → s.stationsOn = true → v.toNat ≤ (s.main.marks[m]).toNat →
      exec (.markWaitEnd n) s = .next ((s.modStation n fun u => { u.advance with markWait := none }).retire n))

/-- R113, R114, R142: BAR with a mask of stations of the job that holds its own arrives once the station's earlier writes are
applied, and waits before that; a mask of zero means every station of the job; any other mask faults, with reason 0x05, the
station and every other that has arrived under the barrier number, in ascending order. Two stations that wait under one number
with different masks fault both, with every other that has arrived, with reason 0x06. R113: when every station of a mask waits
under it, all of them go on at once; no other station changes. R142: FENCE waits while a range is outstanding or an engine's
queue holds an instruction, and then goes on. The model's choices: log entries 7 and 88. -/
def Obligations.BarrierAndFenceResults : Prop :=
  (∀ (n : Fin 24) (w : BitVec 52) (s : State), let x := wordOf 7 0x03 w
     let t := s.station n
     let all := s.jobStations t.queue t.order
     let v := t.rg (sRb x)
     let mask : BitVec 24 := if v = 0 then all else v.setWidth 24
     let legal := v.toNat < 2 ^ 24 ∧ mask &&& ~~~all = 0 ∧ mask.getLsbD n.val = true
     field x 51 46 = 0 → field x 38 0 = 0 → s.issues n { gs := [sRb x] } →
     (legal → t.writesBefore t.issueSeq = true → exec (.bar n w) s =
       .next (((s.modStation n fun t => { t with stalls := [], barWait := some ⟨sBar x, mask, x⟩ }).barCheck t.queue t.order (sBar x)).settleAll)) ∧
     (legal → t.writesBefore t.issueSeq = false → exec (.bar n w) s = .next s) ∧
     (¬ legal → let v := s.modStation n fun t => { t with stalls := [] }
       let bad := v.barBad n (sBar x) x
       exec (.bar n w) s = .next (bad.foldl (fun u p => u.barFault p.1 0x05 p.2) v).settleAll ∧ bad.Pairwise (fun p r => p.1 < r.1) ∧
       ∀ (m : Fin 24) (k : BitVec 64), (m, k) ∈ bad ↔ (m = n ∧ k = x) ∨ (m ≠ n ∧ (s.station m).inJob t.queue t.order = true ∧
         (s.station m).stopping = false ∧ ∃ h, (s.station m).barWait = some h ∧ h.bar = sBar x ∧ h.word = k))) ∧
  (∀ (q : Fin 16) (order : Nat) (b : Fin 4) (n m : Fin 24) (g h : BarWait) (s : State),
     (s.station n).waitsAt q order = some g → (s.station m).waitsAt q order = some h → g.bar = b → h.bar = b → g.mask ≠ h.mask →
     s.barCheck q order b = (s.arrived q order b).foldl (fun u p => u.barFault p.1 0x06 p.2) s) ∧
  (∀ (q : Fin 16) (b : Fin 4) (j : Job) (m : BitVec 24) (s : State), s.job q = some j → s.barComplete q j.order b = some m →
     s.stationsOn = true → ∃ u, exec (.barrierRelease q b) s = .next u ∧
       (∀ k : Fin 24, m.getLsbD k.val = true → u.station k = { (s.station k).advance with
         barWait := none, retired := (s.station k).retired + 1 }) ∧
       (∀ k : Fin 24, m.getLsbD k.val = false → u.station k = s.station k)) ∧
  (∀ (n : Fin 24) (s : State), s.issues n {} → let t := s.station n
     let idle := t.board = [] ∧ t.dmuQ = [] ∧ t.vecQ = [] ∧ t.qntQ = [] ∧ t.arrQ = []
     (idle → exec (.sFence n 0) s = .next (s.ran n id)) ∧ (¬ idle → exec (.sFence n 0) s = .next s))

/-- R145, R183, R194, R190: EOPEN opens the next epoch in sequence and writes its number, and with four open it faults with
reason 0x16; EFENCE, once the station's work has ended, writes the station's spec register and changes nothing else.
R183, R190 to R192: ECLOSE waits until the station's work has ended; then, for an open epoch that g[RA] names with no bit
above 15 set, it retires and the epoch closes, by commit or by discard with every newer one; for anything else it faults
with reason 0x17. The model's choice: log entry 7. -/
def Obligations.EpochInstructions : Prop :=
  (∀ (n : Fin 24) (w : BitVec 52) (s : State), let c := (s.station n).ctx
     (let x := wordOf 9 0x01 w
      raOf x = 0 → field x 41 0 = 0 → s.issues n { gs := [rdOf x] } →
      ((s.ctx c).epochs.length < 4 → exec (.eopen n w) s = .next ((s.modCtx c fun y =>
        { y with epochs := y.epochs ++ [y.nextEpoch], nextEpoch := y.nextEpoch + 1,
                 closed := y.closed.filter fun p => p.1 != y.nextEpoch }).ran n fun t =>
          t.wg (rdOf x) ((s.ctx c).nextEpoch.setWidth 64))) ∧
      (4 ≤ (s.ctx c).epochs.length → exec (.eopen n w) s =
        .next (s.issueFault n x stIllegalInstr (BitVec.ofNat 32 (0x16 + 256 * n.val))))) ∧
     (let x := wordOf 9 0x03 w
      raOf x = 0 → field x 41 0 = 0 → s.issues n { gs := [rdOf x] } →
      (s.workEnded n = true → exec (.efence n w) s = .next (s.ran n fun t => t.wg (rdOf x) (s.specWord c (some n)))) ∧
      (s.workEnded n = false → exec (.efence n w) s = .next s))) ∧
  (∀ (n : Fin 24) (w : BitVec 52) (cd : Bool) (s : State), let x := setBit (wordOf 9 0x02 w) 41 cd
     let c := (s.station n).ctx
     let v := (s.station n).rg (raOf x)
     let e : BitVec 16 := v.setWidth 16
     let eclose := if cd then Instr.ecloseDiscard n w else Instr.ecloseCommit n w
     let named := v.toNat < 2 ^ 16 ∧ e ∈ (s.ctx c).epochs
     rdOf x = 0 → field x 40 0 = 0 → s.issues n { gs := [raOf x] } →
     (s.workEnded n = false → exec eclose s = .next s) ∧
     (s.workEnded n = true → named → exec eclose s = .next (if cd
       then (s.ran n id).discardEpochs c ((s.ctx c).epochs.dropWhile (· != e)) else (s.ran n id).commitEpoch c e)) ∧
     (s.workEnded n = true → ¬ named → exec eclose s = .next (s.issueFault n x stIllegalInstr (BitVec.ofNat 32 (0x17 + 256 * n.val)))))

/-! ## Arrays -/

/-- R165, R22, R297: the lowest free programmer takes the next array that waits; none does in a forced Hold. R165 step 6, R166,
R350: when programming ends, and the conversions of the array that were issued before have ended, the array is WRITTEN if at
most FAIL_LIMIT cells failed and UNWRITTEN otherwise, with its count, its image, its benchmark columns (R148) and, where
WRITTEN, its digest; its programmer is free; before that nothing happens. The model's choices: log entries 1, 4 and 86 (1: a
command whose condition does not hold changes nothing). -/
def Obligations.ArrayProgramming : Prop :=
  (∀ (s : State),
     (∀ k w, s.stationsOn = true → s.main.pwr.forcing = false → s.freeProg = some k → s.nextWork = some w →
       exec .programmerStart s = .next (s.modMain fun m => { m with progs := m.progs.set k (some w), progWait := m.progWait.erase w })) ∧
     (s.main.pwr.forcing = true ∨ s.freeProg = none ∨ s.nextWork = none → exec .programmerStart s = .next s) ∧
     (∀ k, s.freeProg = some k ↔ s.main.progs[k] = none ∧ ∀ j : Fin 4, j < k → s.main.progs[j] ≠ none)) ∧
  (∀ (k : Fin 4) (cells : Fin 266241) (iter : Fin 17) (w : ProgWork) (s : State), s.main.progs[k] = some w →
     s.serving = true → w.programming = true →
     ((s.station w.station).converts w.array = true → exec (.arrayProgrammingEnd k cells iter) s = .next s) ∧
     ((s.station w.station).converts w.array = false → ∃ u, exec (.arrayProgrammingEnd k cells iter) s = .next u ∧
       u.main.progs[k] = none ∧ (∀ j : Fin 4, j ≠ k → u.main.progs[j] = s.main.progs[j]) ∧
       u.arrayNv w.station w.array = { s.arrayNv w.station w.array with
         state := if cells.val ≤ w.failLimit.toNat then 1 else 0,
         failCells := BitVec.ofNat 16 (min cells.val 0xFFFF), degraded := cells.val != 0,
         maxIter := BitVec.ofNat 8 (8 + iter.val), digest := if cells.val ≤ w.failLimit.toNat then w.digest else 0,
         image := (Memory.undefined 0).writeBytes 0 w.image, bench := #v[0x88, 0x4C, 0x0F, 0xF0] } ∧
       (∀ n a, (n, a) ≠ (w.station, w.array) → u.arrayNv n a = s.arrayNv n a) ∧ u.main.stations = s.main.stations))

/-- R162, R157, R295, R44, R299: the benchmark of a WRITTEN array starts and ends Trim, or is refused; its end, while it holds a
conversion slot and the divider does not switch, stores the sums of the codes of the four pairs and sets DONE; a held write of a
table takes effect; with the block switched off a write is noted and has no effect. The model's choices: log entries 1, 4, 70
and 86 (1: a command whose condition does not hold changes nothing). -/
def Obligations.BenchmarkAndTables : Prop :=
  ∀ (n : Fin 24) (a : Fin 32) (codes : BenchCodes) (s : State), s.serving = true → let t := s.station n
    (s.main.pwr.state = .hold → exec (.stnBenchCtrl n a true) s = .next (s.powerEvent 0x10)) ∧
    (s.main.pwr.state ≠ .hold → s.present n = true →
      ((s.arrayNv n a).state = 1 → t.benchBusy = false → exec (.stnBenchCtrl n a true) s =
        .next ((s.modStation n fun t => { t with benchBusy := true, benchDone := false, benchArray := a }).modPwr fun p =>
          { p with state := if p.state = .trim then .run else p.state })) ∧
      ((s.arrayNv n a).state ≠ 1 ∨ t.benchBusy = true → exec (.stnBenchCtrl n a true) s =
        .next (s.modStation n fun t => { t with benchRefused := true })) ∧
      exec (.stnBenchCtrl n a false) s = .next s) ∧
    (s.main.pwr.state ≠ .hold → s.main.pwr.switching = false → t.benchBusy = true → t.converting < 2 → nextConv t.arrQ = none →
      t.arrayBusy t.benchArray = false → exec (.benchmarkMeasurementEnd n codes) s =
        .next (s.modStation n fun t => { t with benchBusy := false, benchDone := true, benchRes := benchSums codes }) ∧
      ∀ p : Fin 4, (benchSums codes).extractLsb' (16 * p.val) 16 =
        BitVec.ofInt 16 (codes.toList.foldl (fun a c => a + (c.get p).toInt) 0)) ∧
    (s.main.pwr.state ≠ .hold → ∀ h, (t.heldWrites.find? fun w => !t.arrayBusy w.array) = some h → exec (.heldTableWrite n) s =
      .next (s.modStation n fun t => { t.applyWrite h with heldWrites := t.heldWrites.erase h }))

/-! ## Queues -/

/-- R53, R54, R76, R42: SQ_TAIL and CQ_HEAD of a queue in service take a legal index and set BAD_DOORBELL for any other one; a
queue that is not enabled, and every queue while OUT_OF_SERVICE, discards them and sets BAD_DOORBELL; during a reset of its
context they are discarded, noted besides; before READY the doorbell is noted for the device. The model's choice: log entry
40. -/
def Obligations.DoorbellResults : Prop :=
  ∀ (q : Fin 16) (idx : BitVec 32) (s : State), let v := s.rung
    let x := v.queue q
    let c := x.cfg.active
    (s.serving = true → (v.ctx c.ctx).reset = none → s.main.glb.outOfService = false → c.enable = true →
      (idx.toNat < ringSize c.sqLog2 → x.cfg.pending = none →
        exec (.sqTail q idx) s = .next (v.modQueue q fun x => { x with sqTail := idx.setWidth 12 })) ∧
      (ringSize c.sqLog2 ≤ idx.toNat ∨ x.cfg.pending ≠ none →
        exec (.sqTail q idx) s = .next (v.modQueue q fun x => { x with badDoorbell := true })) ∧
      (idx.toNat < ringSize c.cqLog2 → (idx.toNat + ringSize c.cqLog2 - x.cqHead.toNat) % ringSize c.cqLog2 ≤ x.used →
        exec (.cqHead q idx) s = .next ((v.modQueue q fun x => { x with cqHead := idx.setWidth 12 }).drainHeld q)) ∧
      (ringSize c.cqLog2 ≤ idx.toNat ∨ x.used < (idx.toNat + ringSize c.cqLog2 - x.cqHead.toNat) % ringSize c.cqLog2 →
        exec (.cqHead q idx) s = .next (v.modQueue q fun x => { x with badDoorbell := true }))) ∧
    (s.serving = true → (v.ctx c.ctx).reset = none → s.main.glb.outOfService = true ∨ c.enable = false →
      exec (.sqTail q idx) s = .next (v.modQueue q fun x => { x with badDoorbell := true }) ∧
      exec (.cqHead q idx) s = .next (v.modQueue q fun x => { x with badDoorbell := true })) ∧
    (s.serving = true → (v.ctx c.ctx).reset ≠ none →
      exec (.sqTail q idx) s = .next (v.modQueue q fun x => { x with dbInReset := true, badDoorbell := true }) ∧
      exec (.cqHead q idx) s = .next (v.modQueue q fun x => { x with dbInReset := true, badDoorbell := true })) ∧
    (s.serving = false → s.running = true → exec (.sqTail q idx) s = .next (s.modGlb fun g => { g with earlyDoorbell := true }) ∧
      exec (.cqHead q idx) s = .next (s.modGlb fun g => { g with earlyDoorbell := true }))

/-- R9 to R11, R76: HQ_COMMIT captures the staging copies; with no job, an empty hold slot and an empty or halted ring the set
becomes active, every index is 0, PHASE is 1 and HALTED clear; before that nothing happens. R55, R57, R60: a fetched descriptor
becomes the queue's newest job, with the context's generation and the time, and SQ_HEAD moves on around the ring; a bus error
halts the queue, sets FETCH_ERR and raises the context's vector; no other state changes. The model's choices: log entries 1, 4
and 73 (1: a command whose condition does not hold changes nothing). -/
def Obligations.QueueConfigurationAndFetches : Prop :=
  (∀ (q : Fin 16) (s : State), s.serving = true → let x := s.queue q
     exec (.hqCommit q) s = .next (s.modQueue q fun x => { x with cfg := { x.cfg with pending := some x.cfg.staging } }) ∧
     (∀ p, x.cfg.pending = some p → x.jobs = [] → x.hold = [] → (x.halted = true ∨ x.sqHead = x.sqTail) →
       exec (.queueConfigActivate q) s = .next (s.modQueue q fun x =>
         { x with cfg := { x.cfg with active := p, pending := none }, sqHead := 0, sqTail := 0, cqHead := 0, cqWrite := 0,
                  phase := true, halted := false, lastTime := none })) ∧
     (x.cfg.pending = none ∨ x.jobs ≠ [] ∨ x.hold ≠ [] ∨ (x.halted = false ∧ x.sqHead ≠ x.sqTail) →
       exec (.queueConfigActivate q) s = .next s)) ∧
  (∀ (q : Fin 16) (d : BitVec 512) (s : State), s.mayTake q = true → let c := (s.queue q).cfg.active
     exec (.descriptorFetch q (some d)) s = .next ((s.modMain fun m => { m with jobOrder := m.jobOrder + 1 }).modQueue q fun x =>
       { x with
         sqHead := if x.sqHead.toNat + 1 = ringSize c.sqLog2 then 0 else x.sqHead + 1,
         jobs := x.jobs ++ [{ desc := d, ctx := c.ctx, gen := (s.ctx c.ctx).gen, takenAt := s.time, order := s.main.jobOrder,
                              prio := c.prio, nosnoop := c.nosnoop }] }) ∧
     exec (.descriptorFetch q none) s =
       .next ((s.modQueue q fun x => { x with halted := true, fetchErr := true }).raise (ctxVector c.ctx)))

/-- R72, R7, R49: a 64-bit write sets its mark and nothing else, a 32-bit write of a mark changes nothing; GLB_HOSTWIN takes a
write, its low 12 bits zero, while every queue and channel is idle, and otherwise sets HOSTWIN_BUSY. R75: an unmask of a vector
sends the pending messages that may now go, each once, by a write of the vector's data at its address, and clears their bits; a
vector that is still masked, or any while the function mask is set or MSI-X disabled, keeps its bit. The model's choice: log
entry 73. -/
def Obligations.MarksWindowAndUnmasking : Prop :=
  (∀ (m : Fin 64) (v : BitVec 64) (w : W64) (s : State),
     (s.serving = true → ∃ u, exec (.hqMark m (.both v)) s = .next u ∧ u.main.marks[m] = v ∧
       (∀ k : Fin 64, k ≠ m → u.main.marks[k] = s.main.marks[k]) ∧ u = { s with main := { s.main with marks := u.main.marks } }) ∧
     (s.serving = true → ∀ h, exec (.hqMark m (.low h)) s = .next s ∧ exec (.hqMark m (.high h)) s = .next s) ∧
     (s.running = true → s.queuesIdle = true → s.chansBusy = false → exec (.glbHostwin w) s =
       .next (s.modGlb fun g => { g with hostwin := applyW64 g.hostwin w &&& 0xFFFFFFFFFFFFF000 })) ∧
     (s.running = true → (s.queuesIdle = false ∨ s.chansBusy = true) →
       exec (.glbHostwin w) s = .next (s.modGlb fun g => { g with hostwinBusy := true }))) ∧
  (∀ (what : MsixUnmask) (s : State), s.running = true → ∃ u, exec (.msixUnmask what) s = .next u ∧
     let x := u.main.msix
     (∀ v : Fin 64, x.pba.getLsbD v.val = (s.main.msix.pba.getLsbD v.val && !(x.enable && !x.functionMask && !x.mask.getLsbD v.val))) ∧
     (match what with
      | .vector v a d => x.addr = s.main.msix.addr.set v a ∧ x.data = s.main.msix.data.set v d ∧ x.mask = setBit s.main.msix.mask v.val false ∧
          x.functionMask = s.main.msix.functionMask ∧ x.enable = s.main.msix.enable
      | .functionMask => x = { s.main.msix with functionMask := false, pba := x.pba }
      | .enable => x = { s.main.msix with enable := true, pba := x.pba }) ∧
     u.hostMem = ((List.finRange 64).filter fun v => s.main.msix.pba.getLsbD v.val && !x.pba.getLsbD v.val).foldl
       (fun m v => m.writeBytes (x.addr[v]).toNat (toBytes x.data[v] 4)) s.hostMem ∧
     u = { s with hostMem := u.hostMem, main := { s.main with msix := x } })

/-! ## Jobs -/

/-- R58, R59, R61, R71, R89: the next job of a queue starts where its header is good, its context and mark wait let it and, for
a RUN_PROGRAM with a good payload, it may have every station of its mask, which it then claims; a bad header fails the job with
BAD_DESCRIPTOR at the lowest offending byte; otherwise the job waits. The model's choices: log entries 1, 41, 42 and 89 (1: a
command whose condition does not hold changes nothing). -/
def Obligations.JobStarts : Prop :=
  ∀ (q : Fin 16) (j : Job) (s : State), s.job q = some j → s.mayStart = true → j.phase = .taken → j.doomed = false →
    (s.queue q).hold = [] → let program := j.cmd = 1 ∧ s.runBad j = none
    (∀ b, j.headerBad = some b → exec (.jobStart q) s = .next (s.modJob q fun k =>
      { k with status := stBadDescriptor, detail := BitVec.ofNat 32 b, phase := .ended })) ∧
    (j.headerBad = none →
      (s.admissible q j = false ∨ s.markOk j = false → exec (.jobStart q) s = .next s) ∧
      (s.admissible q j = true → s.markOk j = true →
        (¬ program → exec (.jobStart q) s = .next (s.modJob q fun k => { k with phase := .started })) ∧
        (program → (∀ n : Fin 24, j.stationMask.getLsbD n.val = true → s.mayHave q j n = true) → ∃ u, exec (.jobStart q) s = .next u ∧
          u.job q = some { j with phase := .started } ∧ u.main.lastWin = q ∧
          ∀ n : Fin 24, u.station n = if j.stationMask.getLsbD n.val
            then { s.station n with claim := some q, reserved := none } else s.station n) ∧
        (program → (∃ n : Fin 24, j.stationMask.getLsbD n.val = true ∧ s.mayHave q j n = false) → exec (.jobStart q) s = .next s)))

/-- R102, R61, R110: a RUN_PROGRAM with a good payload launches every selected station with the state that R102 gives, and no
other one; a bad payload fails the job with BAD_DESCRIPTOR at the lowest offending byte and starts no station. The model's
choice: log entry 41. -/
def Obligations.ProgramLaunch : Prop :=
  ∀ (q : Fin 16) (j : Job) (s : State), s.startedJob q 1 j →
    (∀ b, s.runBad j = some b → exec (.runProgram q) s = .next (s.setEnd q stBadDescriptor (BitVec.ofNat 32 b))) ∧
    (s.runBad j = none → ∃ u, exec (.runProgram q) s = .next u ∧
      u.job q = some { j with phase := .running, stations := j.stationMask } ∧
      ∀ n : Fin 24, let t := u.station n
        (j.stationMask.getLsbD n.val = false → t = s.station n) ∧
        (j.stationMask.getLsbD n.val = true →
          t.running = true ∧ t.ctx = j.ctx ∧ t.queue = q ∧ t.order = j.order ∧
          t.pc = BitVec.ofNat 32 (j.le 24 4) ∧ t.pcParcel = Fin.ofNat 32 (j.le 20 1) ∧
          (t.rg 1 = BitVec.ofNat 64 (j.le 32 8) ∧ t.rg 2 = BitVec.ofNat 64 (j.le 40 8) ∧
           t.rg 3 = BitVec.ofNat 64 (j.le 48 8) ∧ t.rg 4 = BitVec.ofNat 64 (j.le 56 8)) ∧
          (t.rg 5 = BitVec.ofNat 64 n.val ∧ t.rg 7 = BitVec.ofNat 64 (popCount j.stationMask) ∧ t.rg 8 = j.stationMask.setWidth 64 ∧
           t.rg 6 = BitVec.ofNat 64 ((setBits 24 j.stationMask).countP fun k => k < n)) ∧
          (∀ k, 9 ≤ k → k < 32 → t.rg k = 0) ∧ (∀ k < 8, t.rd k = 0) ∧ (∀ k < 16, t.rv k = 0) ∧ (∀ k, 1 ≤ k → k < 8 → t.rp k = 0) ∧
          t.board = [] ∧ t.dmuQ = [] ∧ t.vecQ = [] ∧ t.qntQ = [] ∧ t.arrQ = [] ∧ t.loops = [] ∧ t.mem = (s.station n).mem))

/-- R63, R64, R392: a FENCE ends once no job taken before it in its scope is left, and waits before that; a MARK adds to or sets
its mark and ends; a TIMESTAMP ends, and its record, however it ends, has the time of the queue's last record, or that at which
the job was taken, where any other job's has the time it is formed at. The model's choices: log entries 1, 41, 73 and 96 (1: a
command whose condition does not hold changes nothing). -/
def Obligations.FenceMarkTimestampJobs : Prop :=
  ∀ (q : Fin 16) (j : Job) (s : State),
    (s.startedJob q 5 j → j.le 16 1 < 2 → j.zeroBytes 17 64 →
      let earlier := ∃ k, ∃ o ∈ (s.queue k).jobs, o.order < j.order ∧ (j.le 16 1 = 1 ∨ o.ctx = j.ctx)
      (¬ earlier → exec (.fence q) s = .next (s.setEnd q stOk 0)) ∧ (earlier → exec (.fence q) s = .next s)) ∧
    (s.startedJob q 6 j → j.le 16 1 < 64 → j.zeroBytes 18 24 → j.zeroBytes 32 64 →
      let m : Fin 64 := Fin.ofNat 64 (j.le 16 1)
      (j.le 17 1 = 0 → exec (.markOpAdd q) s =
        .next ((s.setMark m (s.main.marks[m] + BitVec.ofNat 64 (j.le 24 8))).setEnd q stOk 0) ∧ exec (.markOpSet q) s = .next s) ∧
      (j.le 17 1 = 1 → exec (.markOpSet q) s =
        .next ((s.setMark m (BitVec.ofNat 64 (j.le 24 8))).setEnd q stOk 0) ∧ exec (.markOpAdd q) s = .next s)) ∧
    (s.startedJob q 7 j → j.zeroBytes 16 64 → exec (.timestamp q) s = .next (s.setEnd q stOk 0)) ∧
    ∀ (st : BitVec 16) (d : BitVec 32) (ph : JobPhase), let r := s.formRec q { j with status := st, detail := d, phase := ph }
      r.time = if j.cmd = 7 then (s.queue q).lastTime.getD j.takenAt else s.time

/-- R164, R165, R62, R65, R351, R387: a LOAD_ARRAYS with weights queues one entry of work per array of its mask, with tables
begins to read; a SET_PARCELS begins to read; a COPY waits for its channel, which then serves what waits; an ATTEST waits for
the signature engine; each with a good payload and ranges that pass. The model's choices: log entries 41, 45 and 73. -/
def Obligations.EngineJobsBegin : Prop :=
  ∀ (q : Fin 16) (j : Job) (s : State), let table := (s.ctx j.ctx).table.active
    (s.startedJob q 2 j → s.laBad j = none → s.laRange j = none →
      (j.laMode = 0 → exec (.loadArraysWeights q) s =
        .next ((s.setRunning q).modMain fun m => { m with progWait := m.progWait ++ j.laWorks q })) ∧
      (j.laMode = 1 → exec (.loadArraysTables q) s = .next (s.setRunning q))) ∧
    (s.startedJob q 9 j → 1 ≤ j.spCount → j.spFirst + j.spCount ≤ 32 → j.zeroBytes 18 24 → j.spSource % 32 = 0 → j.zeroBytes 29 64 →
      s.rangeCheck table 0 j.spSource (32 * j.spCount) = none → exec (.setParcels q) s = .next (s.setRunning q)) ∧
    (s.startedJob q 4 j → s.copyBad j = none → s.rangeCheck table 0 (j.le 16 5) (j.le 32 4) = none →
      s.rangeCheck table 1 (j.le 24 5) (j.le 32 4) = none → exec (.copy q) s =
        .next ((s.nextStamp.setRunning q).modChan (Fin.ofNat 16 (j.le 37 1)) fun x => { x with copyWaits := x.copyWaits ++ [(q, s.stamp)] }).chansSettle) ∧
    (s.startedJob q 8 j → j.le 48 5 % 64 = 0 → j.zeroBytes 53 64 → s.rangeCheck table 1 (j.le 48 5) 24896 = none →
      exec (.attest q) s = .next ((s.setRunning q).modIdk fun i => { i with sigQueue := i.sigQueue ++ [.attest q j.order] }))

/-- R200, R201, R202, R387: a NAND_IO with a good payload whose range passes adds the stream of its operation, with the next
number, behind the streams of the controller, whose queues are then filled; a bad payload or range fails the job. The
model's choice: log entry 41. -/
def Obligations.NandJobsBegin : Prop :=
  ∀ row ∈ [(NandKind.read, Instr.nandIoRead), (.program, .nandIoProgram), (.erase, .nandIoErase), (.setFeatures, .nandIoSetFeatures),
      (.getFeatures, .nandIoGetFeatures), (.readParam, .nandIoReadParam), (.reset, .nandIoReset)],
    ∀ (q : Fin 16) (j : Job) (s : State), s.startedJob q 3 j → nandKindOf (j.le 16 1) = some row.1 →
    let stream := if row.1 = .read ∨ row.1 = .program ∨ row.1 = .erase
      then j.nandReq.stream row.1 (.job q j.order) j.ctx j.gen none (BitVec.ofNat 40 (j.le 40 5)) else targetStream j row.1 q
    (∀ b, s.nandJobBad j = some b → exec (row.2 q) s = .next (s.setEnd q stBadDescriptor (BitVec.ofNat 32 b))) ∧
    (s.nandJobBad j = none → ∀ d, s.nandRange j row.1 = some d → exec (row.2 q) s = .next (s.setEnd q stBoundFault d)) ∧
    (s.nandJobBad j = none → s.nandRange j row.1 = none → exec (row.2 q) s = .next (((s.setRunning q).modNfc fun n =>
      { n with seq := n.seq + 1, streams := n.streams ++ [{ stream with seq := n.seq }] }).pumpNand))

/-- R66, R69, R187, R188, R195: an ended job leaves its queue and is counted, SIGNAL_MARK gains 1 where it ended with OK, and
its record is delivered; with an epoch open in its context record and signal are held under the newest epoch instead; where the
closure buffer has no room the completion waits under that epoch, and once the epoch has closed it goes out, or is dropped where
the epoch was discarded.
R66, R67, R68, R74: a record that finds room goes into the next entry of the ring, 32 bytes laid out as R66 says with PHASE,
and the write index moves on, PHASE flipping at the wrap; without room, or behind held records, it is held. The model's
choices: log entries 1, 43 and 44 (1: a command whose condition does not hold changes nothing). -/
def Obligations.JobsCompleteAndRecords : Prop :=
  (∀ (q : Fin 16) (j : Job) (s : State), s.serving = true → s.job q = some j → j.phase = .ended → j.doomed = false →
     s.tablesHeld j = false →
     let r := s.formRec q j
     let left := (s.modQueue q fun x => { x with
       jobsDone := x.jobsDone + 1, lastTime := some r.time, jobs := x.jobs.filter fun k => k.order != j.order }).progress j.ctx
     let sent := (match (if j.status = stOk then j.signal else none) with
       | some m => left.setMark m (left.main.marks[m] + 1)
       | none => left).deliver q r
     let heldBy := fun e => left.modCtx j.ctx fun x =>
       { x with held := x.held ++ [⟨e, .completion r (if j.status = stOk then j.signal else none) j.order none⟩] }
     let room := (s.ctx j.ctx).epochs = [] ∨ (s.ctx j.ctx).held.length < 64
     (j.endTag = none →
       ((s.ctx j.ctx).epochs = [] → exec (.jobEnd q) s = .next sent) ∧
       (∀ e, (s.ctx j.ctx).epochs.getLast? = some e → room → exec (.jobEnd q) s = .next (heldBy e)) ∧
       (∀ e, (s.ctx j.ctx).epochs.getLast? = some e → ¬ room →
         exec (.jobEnd q) s = .next (s.modJob q fun k => { k with endTag := some e }))) ∧
     (∀ e, j.endTag = some e →
       (e ∈ (s.ctx j.ctx).epochs → room → exec (.jobEnd q) s = .next (heldBy e)) ∧
       (e ∈ (s.ctx j.ctx).epochs → ¬ room → exec (.jobEnd q) s = .next s) ∧
       (e ∉ (s.ctx j.ctx).epochs → (s.ctx j.ctx).closed.find? (fun p => p.1 == e) = some (e, true) → exec (.jobEnd q) s = .next sent) ∧
       (e ∉ (s.ctx j.ctx).epochs → (s.ctx j.ctx).closed.find? (fun p => p.1 == e) = some (e, false) →
         exec (.jobEnd q) s = .next (left.modCtx j.ctx fun x => { x with dropped := x.dropped + 1 })))) ∧
  (∀ (q : Fin 16) (r : Rec) (s : State), s.memWf = true → let x := s.queue q
     let at0 := x.cfg.active.cqBase.toNat / 4096 * 4096 + 32 * x.cqWrite.toNat
     let wraps := x.cqWrite.toNat + 1 = ringSize x.cfg.active.cqLog2
     (x.hold = [] → x.used + 1 < ringSize x.cfg.active.cqLog2 → s.main.pwr.d3hot = false → r.irq = false →
       ∃ u, s.deliver q r = u ∧ u.hostMem.readBytes at0 32 = r.bytes x.phase ∧
         (∀ a, (a < at0 ∨ at0 + 32 ≤ a) → u.hostMem.read a = s.hostMem.read a) ∧
         u = { s.modQueue q fun x => { x with
           cqWrite := if wraps then 0 else x.cqWrite + 1, phase := if wraps then !x.phase else x.phase } with hostMem := u.hostMem }) ∧
     (x.hold ≠ [] ∨ ringSize x.cfg.active.cqLog2 ≤ x.used + 1 ∨ s.main.pwr.d3hot = true →
       s.deliver q r = s.modQueue q fun x => { x with hold := x.hold ++ [r] }) ∧
     (∀ p, (r.bytes p).length = 32 ∧ leAt (r.bytes p) 0 2 = r.status.toNat ∧ leAt (r.bytes p) 2 2 = r.tag.toNat ∧
       leAt (r.bytes p) 4 1 = r.gen.toNat ∧ leAt (r.bytes p) 5 1 = r.ctx.val + 16 * r.queue.val ∧
       leAt (r.bytes p) 6 1 = (if p then 1 else 0) ∧ leAt (r.bytes p) 7 1 = 0 ∧ leAt (r.bytes p) 8 4 = r.cycles.toNat ∧
       leAt (r.bytes p) 12 4 = r.detail.toNat ∧ leAt (r.bytes p) 16 4 = r.crc.toNat ∧ leAt (r.bytes p) 20 8 = r.time.toNat ∧
       leAt (r.bytes p) 28 4 = 0))

/-! ## The whole block -/

/-- No run of the block stops, from any state: the device has no state in which a command stops it; what goes wrong on it is a
status, a flag or a record (R5, R6, R364). The model's choice: log entry 1 (1: a command whose condition does not hold
changes nothing). -/
def Obligations.EveryStateIsSafe : Prop := ∀ s : State, safe s

/-- R19, R77, R365: every memory of the machine (flash, host memory as written, shared and station memory, operand buffers,
array images) keeps its one canonical form through every step, from every state that has it. The model's choice: log entry
13. -/
def Obligations.MemoriesStayCanonical : Prop := keptByStep fun s => s.memWf = true

/-- R1, R43, R341, R346, R347: no step changes what manufacture wrote; the boot key hash changes at most while it is blank, and
a burn is under way only then; once it is written or damaged no step changes OTP at all. -/
def Obligations.FusesBurnOnce : Prop :=
  ∀ s t : State, s.otpSafe = true → step s = .next t →
    t.otpSafe = true ∧ t.otp.made = s.otp.made ∧ (s.otp.pmkState ≠ 0 → t.otp = s.otp)

/-- R27, R28, R79, R82, R99, R244, R292, R334: with no command waiting a step is one peripheral clock of 10 ns. Where the main
domain does not run it changes nothing; in boot and in Hold TCK_TIME alone counts. Otherwise, where no traverse channel has a
beat ready: TCK_TIME counts; in Run each station counts the station clocks within the step, by each of its waits, and its banks
arbitrate; the banks of shared memory arbitrate; a LIN header goes on; each side of the traverse engine ends its hold; nothing
else changes. The model's choices: log entries 3, 65, 72 and 79. -/
def Obligations.IdleStepIsOneClock : Prop :=
  ∀ s : State, s.pending = [] →
    (s.running = false → step s = .next s) ∧
    (s.running = true → s.serving = false ∨ s.main.pwr.state = .hold →
      step s = .next { s with main := { s.main with time := s.main.time + 1 } }) ∧
    (s.serving = true → s.main.pwr.state ≠ .hold → (∀ ch, s.readReady ch = false ∧ s.writeReady ch = false) →
      ∃ u, step s = .next u ∧
      u = { s with main := { s.main with
        time := s.main.time + 1, stations := u.main.stations, queues := u.main.queues, ctxs := u.main.ctxs, lin := u.main.lin,
        shm := { s.main.shm with waits := u.main.shm.waits, granted := u.main.shm.granted, conflicts := u.main.shm.conflicts },
        rdSide := { s.main.rdSide with run := 16 }, wrSide := { s.main.wrSide with run := 16 } } } ∧
      u.main.lin = { s.main.lin with state := u.main.lin.state, clocks := u.main.lin.clocks } ∧
      (s.main.lin.state = 0 ∨ s.main.lin.state = 5 ∨ s.main.lin.state = 6 → u.main.lin = s.main.lin) ∧
      (s.main.pwr.state ≠ .run → u.main.stations = s.main.stations ∧ u.main.queues = s.main.queues ∧ u.main.ctxs = s.main.ctxs) ∧
      (s.main.pwr.state = .run → ∀ row ∈ [((0 : BitVec 2), (12 : BitVec 64)), (1, 8), (2, 6), (3, 3)], s.main.pwr.effDiv = row.1 →
        (∀ c : Fin 8, u.ctx c = { s.ctx c with cbFull := (s.ctx c).cbFull + row.2 * BitVec.ofNat 64 ((List.finRange 24).countP fun n =>
          (s.station n).running && (s.station n).ctx == c && (s.station n).stalls.contains .closure) }) ∧
        ∀ n : Fin 24, let t := s.station n
          let plus := fun (c : Bool) (x : BitVec 64) => if c && t.running then x + row.2 else x
          u.station n = { t with
            busy := plus true t.busy, syncWait := plus (t.markWait.isSome || t.barWait.isSome) t.syncWait,
            regWait := plus (t.stalls.contains .reg) t.regWait, sbWait := plus (t.stalls.contains .overlap) t.sbWait,
            sbFull := plus (t.stalls.contains .entries) t.sbFull, queueFull := plus (t.stalls.contains .queue) t.queueFull,
            ports := (u.station n).ports, conflicts := (u.station n).conflicts } ∧
          (t.contends ((List.finRange 16).any fun ch => (s.chan ch).state == .running) = false →
            (u.station n).ports = t.ports ∧ (u.station n).conflicts = t.conflicts)))

/-- R27, R33, R35, R359 and the reset columns of chapters 2, 3, 10, 11, 13 and 14: what a reset of the device leaves in
registers with a reset value, whatever the state was; and the reset state meets the two invariants. The model's choice: log
entry 9. -/
def Obligations.ResetLeaves : Prop :=
  (State.reset.memWf = true ∧ State.reset.otpSafe = true ∧ State.reset.pending = []) ∧
  ∀ (c : ResetCause) (s : State), let u := s.deviceReset c
    u.main.time = 0 ∧ u.main.pwr.div = 3 ∧ u.main.pwr.effDiv = 3 ∧ u.main.glb.status = 2 ∧
    (∀ row ∈ [(0x038, 0), (0x03C, 0), (0x040, 0), (0x050, 0), (0x010018, 0x404), (0x021000, 4), (0x021004, 10), (0x030004, 2),
        (0x030008, 5), (0x03000C, 0), (0x030010, 0), (0x030014, 200), (0x030040, 3), (0x050800, 3), (0x050804, 4096), (0x050808, 0), (0x060038, 4000),
        (0x060380, 16), (0x0603A4, 0), (0x070008, 0), (0x070014, 0), (0x080004, 6), (0x080008, 3), (0x08000C, 13889), (0x080200, 4),
        (0x080300, 8), (0x0C0000, 0), (0x0C0008, 0), (0x0D0000, 0), (0x0D0100, 1000000), (0x0D0104, 0), (0x0D0108, 0)],
      { u with phase := .serving }.liveWord row.1 = BitVec.ofNat 32 row.2) ∧
    (∀ m : Fin 64, u.main.marks[m] = 0) ∧ (∀ q : Fin 16, u.queue q = {}) ∧ u.main.snaps = [] ∧
    (∀ n : Fin 24, (u.station n).running = false ∧ (u.station n).pc = 0 ∧ (u.station n).board = [] ∧ (u.station n).benchBusy = false)

/-- R5, R6, R7, R8, R47, R48, R53: a write of one aligned doubleword in BAR0 acts on the register there; with a byte enable
clear, or where no register stands, nothing happens; a half of a 64-bit register, or both halves at once; what reads back from
registers of type RW. A doubleword at the start of a queue's page in BAR4 is SQ_TAIL, the next one CQ_HEAD, any other one sets
BAD_DOORBELL; a write of the power state enters D3hot or returns to D0; an unsupported request changes nothing and is answered
as such. R7, R49, R72, R75: the writes with a row of their own: a mark, the host window, an unmasked vector and MSI-X itself.
The model's choices: log entries 20, 75 and 80. -/
def Obligations.RegisterWrites : Prop :=
  ∀ (a : Nat) (b0 b1 b2 b3 c0 c1 c2 c3 : BitVec 8) (reply : HostReply) (s : State), a % 4 = 0 → a + 8 ≤ 2 ^ 24 →
    let off := BitVec.ofNat 24 a
    let lo := b3 ++ b2 ++ b1 ++ b0
    let one : List (Option (BitVec 8)) := [some b0, some b1, some b2, some b3]
    let v := { s with readUr := false }
    (v.isWide (a / 8 * 8) = false → exec (.registerWrite { off := off, lanes := one } reply) s = .next (v.write32 reply a lo)) ∧
    (v.isWide (a / 8 * 8) = true → exec (.registerWrite { off := off, lanes := one } reply) s =
      .next (v.write64 (a / 8 * 8) (if a % 8 = 0 then .low lo else .high lo))) ∧
    (a % 8 = 0 → v.isWide a = true → exec (.registerWrite { off := off, lanes := one ++ [some c0, some c1, some c2, some c3] } reply) s =
      .next (v.write64 a (.both (c3 ++ c2 ++ c1 ++ c0 ++ lo)))) ∧
    (∀ lanes : List (Option (BitVec 8)), lanes.length = 4 → none ∈ lanes →
      exec (.registerWrite { off := off, lanes := lanes } reply) s = .next v) ∧
    (a % 8 = 0 → a / 0x10000 ∈ [0x04, 0x0E, 0x0F, 0x28, 0x3F, 0xFF] →
      exec (.registerWrite { off := off, lanes := one } reply) s = .next v) ∧
    (∀ q : Fin 16,
      exec (.registerWrite { window := .bar4, off := BitVec.ofNat 24 (0x1000 * q.val), lanes := one } reply) s = exec (.sqTail q lo) v ∧
      exec (.registerWrite { window := .bar4, off := BitVec.ofNat 24 (0x1000 * q.val + 4), lanes := one } reply) s = exec (.cqHead q lo) v ∧
      (s.serving = true → 8 ≤ a → a < 0x1000 →
        exec (.registerWrite { window := .bar4, off := BitVec.ofNat 24 (0x1000 * q.val + a), lanes := one } reply) s =
          .next (v.rung.modQueue q fun x => { x with badDoorbell := true }))) ∧
    (s.running = true →
      exec (.registerWrite { window := .config .powerState, off := 0, lanes := [some 3, some 0, some 0, some 0] } reply) s = exec .d3hot v ∧
      exec (.registerWrite { window := .config .powerState, off := 0, lanes := [some 0, some 0, some 0, some 0] } reply) s =
        exec .returnToD0 v) ∧
    exec (.registerWrite { window := .unsupported, off := off, lanes := one } reply) s = .next { s with readUr := true } ∧
    (s.serving = true → ∀ w : BitVec 32,
      (∀ r ∈ [0x030004, 0x030008, 0x03000C, 0x030014], (s.write32 reply r w).liveWord r = (w.extractLsb' 0 16).setWidth 32) ∧
      (s.write32 reply 0x040 w).liveWord 0x040 = w ∧
      (s.write64 0x050018 (.both (c3 ++ c2 ++ c1 ++ c0 ++ lo))).liveWord 0x050018 = lo ∧
      (s.write32 reply 0x0D0100 w).liveWord 0x0D0100 = s.liveWord 0x0D0100) ∧
    (s.serving = true → ∀ (m : Fin 64) (x : BitVec 64), exec (.hqMark m (.both x)) s = .next (s.setMark m x)) ∧
    (s.running = true → s.queuesIdle = true → s.chansBusy = false → ∀ x, exec (.glbHostwin (.both x)) s =
      .next (s.modGlb fun g => { g with hostwin := x &&& 0xFFFFFFFFFFFFF000 })) ∧
    (s.running = true → ∀ (k : Fin 64) (adr : BitVec 64) (data : BitVec 32),
      (∃ u, exec (.msixUnmask (.vector k adr data)) s = .next u ∧ u.main.msix.addr[k] = adr ∧ u.main.msix.data[k] = data ∧
        u.main.msix.mask.getLsbD k.val = false) ∧
      (∃ u, exec (.msixUnmask .functionMask) s = .next u ∧ u.main.msix.functionMask = false) ∧
      ∃ u, exec (.msixUnmask .enable) s = .next u ∧ u.main.msix.enable = true)

/-- R6, R13, R14, R47, R48, R53, R75, R358: a read of a 32-bit word; a read of the low word of an RS register, or of both its
words, latches its high word, which the next read of the high word alone gives, and no other register's; a read of bytes 0 to 7
of a field-book entry latches its bytes 8 to 15, and no other entry's; BAR2 shows the Pending Bit Array, BAR4 reads zero, and an
unsupported request is answered as such. The model's choices: log entries 19, 25 and 80. -/
def Obligations.RegisterReads : Prop :=
  ∀ (a : Nat) (s : State), a % 8 = 0 → a + 16 ≤ 2 ^ 24 → a ≠ 0x080000 → a ≠ 0x080100 →
    let read := fun (o n : Nat) => exec (.lowWordRead { off := BitVec.ofNat 24 o, len := n })
    let v := { s with readUr := false }
    (inFieldBook a = false →
      (∀ x, v.reg a = .rs x →
        (∃ u t, read a 4 s = .next u ∧
          u.readData = toBytes (x.extractLsb' 0 32) 4 ∧ (∀ r, r ≠ a → u.main.snapOf r = s.main.snapOf r) ∧
          u = { v with readData := u.readData, main := { s.main with snaps := u.main.snaps } } ∧
          read (a + 4) 4 u = .next t ∧ t.readData = toBytes (x.extractLsb' 32 32) 4) ∧
        (∃ u, read a 8 s = .next u ∧ u.readData = toBytes x 8 ∧ u.main.snapOf a = some (x.extractLsb' 32 32)) ∧
        (s.main.snapOf a = none → read (a + 4) 4 s = .next { v with readData := toBytes (x.extractLsb' 32 32) 4 })) ∧
      ((∀ x, v.reg a ≠ .rs x) → stnOf a = none → ∀ k ∈ [0, 4], read (a + k) 4 s =
        .next { v with readData := toBytes (v.liveWord (a + k)) 4 })) ∧
    (s.serving = true → inFieldBook a = true →
      (a % 16 = 0 → ∃ u, exec (.fieldBookEntryRead (BitVec.ofNat 24 a)) s = .next u ∧ u.readData = toBytes (s.fbBytes a) 8 ∧
        (∀ r, r ≠ a → notedAt u.main.fbLatches r = notedAt s.main.fbLatches r) ∧
        u = { s with readData := u.readData, main := { s.main with fbLatches := u.main.fbLatches } } ∧
        exec (.fieldBookEntryRead (BitVec.ofNat 24 (a + 8))) u = .next { u with readData := toBytes (s.fbBytes (a + 8)) 8 }) ∧
      (a % 16 = 8 → notedAt s.main.fbLatches (a - 8) = none →
        exec (.fieldBookEntryRead (BitVec.ofNat 24 a)) s = .next { s with readData := toBytes (s.fbBytes a) 8 })) ∧
    (∀ n : Nat,
      (s.running = true → exec (.lowWordRead { window := .bar2, off := 0x800, len := 8 }) s =
        .next { v with readData := toBytes s.main.msix.pba 8 }) ∧
      exec (.lowWordRead { window := .bar4, off := BitVec.ofNat 24 a, len := n }) s = .next { v with readData := List.replicate n 0 } ∧
      exec (.lowWordRead { window := .unsupported, off := BitVec.ofNat 24 a, len := n }) s =
        .next { s with readUr := true, readData := [] })

/-! ## Resets and boot -/

/-- R34, R35, R313, R347: what each reset kind keeps and what it clears, for every state, where PERST_N low and an FLR that
waits are causes beside its own; and what COLD, BOR_LP, BOR_VSYS, PERST, FLR and DFT_EN do. PERST_N has no effect in Dormant
(R36); an FLR waits for NAND writes in flight (R36, R268). The model's choices: log entries 1, 29, 30, 31, 62 and 81 (1: a
command whose condition does not hold changes nothing). -/
def Obligations.ResetCommands : Prop :=
  (∀ (c : ResetCause) (s : State), let u := s.deviceReset c
    let all : BitVec 6 := c.bits ||| (if s.perstLow then 16 else 0) ||| (if s.flrWait.isSome then 32 else 0)
    u.aon.cause = all &&& -all ∧
    (c = .cold ∨ c = .borLp → u.aon.history = all ∧ u.aon.rstCount = 1 ∧ (∀ i : Fin 512, u.aon.ring[i] = 0) ∧ u.aon.fbHead = 0 ∧
      u.aon.padHeld = true ∧ u.aon.padZ = true ∧ u.aon.vsysWarn = 2) ∧
    (c ≠ .cold → c ≠ .borLp → u.aon.history = s.aon.history ||| all ∧ u.aon.rstCount = s.aon.rstCount + 1 ∧ u.aon.ring = s.aon.ring ∧
      u.aon.fbHead = s.aon.fbHead ∧ u.aon.bootSel = s.aon.bootSel ∧ u.aon.linkId = s.aon.linkId ∧ u.aon.mgtAddr = s.aon.mgtAddr ∧
      u.aon.flushing = s.aon.flushing ∧ u.aon.vsysWarn = s.aon.vsysWarn ∧ u.aon.padHeld = true ∧
      u.aon.faultN = (s.aon.faultN && s.aon.bootBad) ∧
      (s.aon.padHeld = false → u.aon.padZ = false ∧ u.aon.padFault = s.aon.faultN ∧ u.aon.padWake = s.aon.wakeOut) ∧
      (s.aon.padHeld = true → u.aon.padZ = s.aon.padZ ∧ u.aon.padFault = s.aon.padFault ∧ u.aon.padWake = s.aon.padWake ∧
        u.aon.padGpio = s.aon.padGpio ∧ u.aon.padRx = s.aon.padRx)) ∧
    (c = .flr → u.main.pcie = { link := s.main.pcie.link, devCtl := (s.main.pcie.devCtl &&& 0x00E0) ||| 0x2800 }) ∧
    (c ≠ .flr → u.main.pcie = {}) ∧
    u.slots = s.slots ∧ u.otp = { s.otp with pmkState := if s.main.idk.burnBusy then 2 else s.otp.pmkState } ∧
    (∀ n a, u.arrayNv n a = { s.arrayNv n a with state := if (s.arrayNv n a).state = 2 then 0 else (s.arrayNv n a).state }) ∧
    ((∀ (l : Fin 32) (f : InFlight), (s.lun l).cur = some f →
        f.op.writes = false ∨ f.ignored = true ∨ (f.ready = true ∧ f.fail = false ∧ f.pair = none)) → u.nand = s.nand) ∧
    u.main.shm.mem.known = [] ∧ (∀ n, (u.station n).mem.known = [])) ∧
  ∀ (s : State) (b : BootInputs),
    exec .cold s = .next { s.deviceReset .cold with phase := .strapWait } ∧
    (s.phase = .dormant → exec .borLp s = .next { s.deviceReset .borLp with phase := .strapWait } ∧
      exec .perst s = .next { s with perstLow := true }) ∧
    (s.phase ≠ .borHeld → s.phase ≠ .strapWait → exec .borVsys s = .next { s.deviceReset .borVsys with
      phase := .borHeld, aon := { (s.deviceReset .borVsys).aon with pwrEn := false, wakeOut := false, supplyTries := 0 } }) ∧
    (s.perstLow = false → s.phase ∈ [.bootPcie, .bootFw, .bootFailed, .serving, .pllNever, .pllLost] →
      exec .perst s = .next { s.deviceReset .perst with perstLow := true, phase := .inReset }) ∧
    (s.perstLow = false → s.phase ∈ [.strapWait, .borHeld, .supplyWait, .pllWait, .dftHeld] →
      exec .perst s = .next { s with perstLow := true, aon := { s.aon with history := s.aon.history ||| 16 } }) ∧
    (s.running = true → s.flrWait = none →
      let t := if s.stationsOn then (List.finRange 8).foldl (fun s c => if (s.bound c).valid then s.sendAbort (s.bound c).job [0, 1] else s) s
        else s
      ((∀ l : Fin 32, (t.lun l).writing = false) → exec (.flr b) s = .next (({ t with flrWait := some b }.deviceReset .flr).startMain b)) ∧
      ((∃ l : Fin 32, (t.lun l).writing = true) → exec (.flr b) s = .next { t with flrWait := some b })) ∧
    (s.flrWait = some b → exec .flrNandWait s = .next ((((List.finRange 32).foldl (fun s u =>
      if (s.lun u).writing then s.giveUp u stTimeoutNand else s) s).deviceReset .flr).startMain b)) ∧
    (s.phase ∈ [.bootPcie, .bootFw, .bootFailed, .serving, .inReset] → ∃ u, exec .dftEn s = .next u ∧ u.phase = .dftHeld ∧
      u.dftHigh = true ∧ u.main.time = 0 ∧ u.main.glb.ready = false ∧ (∀ q, u.queue q = {}) ∧ u.aon.ring = s.aon.ring ∧ u.aon.cause = s.aon.cause)

/-- R26, R37, R300, R301, R303, R369, R381: the wake sequence with good rails and a PLL that locks starts the boot ROM, unless
DFT_EN is high or PERST_N low; a bad rail is tried three times; the management port wakes Dormant at its own bus address alone
(R335); a PLL that does not lock, or loses lock, stops the main domain. The model's choices: log entries 2, 4 and 92. -/
def Obligations.StartSequence : Prop :=
  ∀ (s : State) (b : BootInputs) (straps : BitVec 7),
    let up := s.modAon fun a => { a with pwrEn := true, wakeOut := true, supplyTries := 0 }
    (b.vcoreOk = true → b.vsramOk = true → b.pllOk = true →
      (s.dftHigh = true → s.wakeSequence b = { up with phase := .dftHeld }) ∧
      (s.dftHigh = false → s.perstLow = true → s.wakeSequence b = { up with phase := .inReset }) ∧
      (s.dftHigh = false → s.perstLow = false → s.wakeSequence b = up.startBoot b)) ∧
    (b.vcoreOk = true → b.vsramOk = true → b.pllOk = false → s.wakeSequence b = { up with phase := .pllWait }) ∧
    ((b.vcoreOk && b.vsramOk) = false →
      (s.aon.supplyTries < 2 → (s.wakeSequence b).phase = .supplyWait ∧ (s.wakeSequence b).aon.supplyTries = s.aon.supplyTries + 1) ∧
      (s.aon.supplyTries = 2 → (s.wakeSequence b).phase = .supplyDead ∧ (s.wakeSequence b).aon.faultN = true) ∧
      (s.wakeSequence b).aon.pwrEn = false ∧ (s.wakeSequence b).main = s.main) ∧
    (s.phase = .strapWait → exec (.strapLatch straps b) s = .next ((s.modAon fun a => { a with
      bootSel := straps.extractLsb' 0 2, linkId := (straps.extractLsb' 2 3).toFin, mgtAddr := straps.extractLsb' 5 2 }).wakeSequence b)) ∧
    (s.phase = .borHeld → exec (.borVsysRelease b) s = .next (s.wakeSequence b)) ∧
    (s.phase = .supplyWait → exec (.supplyRetry b) s = .next (s.wakeSequence b)) ∧
    (∀ bus : BitVec 7, s.phase = .dormant → exec (.dormantWake { bus := bus, boot := b }) s =
      .next (if bus = 0x48 + s.aon.mgtAddr.setWidth 7 then (s.deviceReset .dormantWake).wakeSequence b else s)) ∧
    (s.phase = .inReset → s.dftHigh = false → exec (.perstNRelease b) s = .next (if b.pllOk
      then ({ s with perstLow := false }).startBoot b else { s with perstLow := false, phase := .pllWait })) ∧
    (s.phase = .dftHeld → exec (.dftEnLow b) s = .next (if s.perstLow
      then { s with dftHigh := false, phase := .inReset } else ({ s with dftHigh := false }).startBoot b)) ∧
    (s.running = true ∨ s.phase = .inReset ∨ s.phase = .dftHeld → exec .pllUnlock s =
      .next (((({ s with phase := .pllLost }).setLink .down).assertFault.fbEntry 0 0x002 1).flush 0x002)) ∧
    (s.phase = .pllWait → exec .pllNoLock s = .next (((((({ s with phase := .pllNever }).setLink .down).modAon fun a =>
      { a with bootBad := true }).assertFault.fbEntry 0 0x002 0).fbEntry 0 0x010 0x0800).flush 0x002))

/-- R38 to R41, R43, R198, R220, R221, R344, R345, R354: which image the boot ROM takes and how a boot ends: the straps and OTP
first, then NAND or PCI Express; from NAND the first copy that is OK, which has a valid header and signature; a terminal failure
sets BOOT_FAILED and FAULT_N and writes the field book; GLB_BOOT_GO; the firmware's start discovers the NAND, checks the region
table and sets READY. The model's choices: log entries 1, 28, 32, 33, 37 and 76 (1: a command whose condition does not hold
changes nothing). -/
def Obligations.BootResults : Prop :=
  ∀ (s : State) (b : BootInputs) (reply : HostReply) (found : Discovery),
    let linked := if s.main.pcie.link = .down then s.setLink .training else s
    let booted := ({ linked with phase := .bootFw, aon := { s.aon with certReady := true } }).fbEntry 1 0x001
      (BitVec.ofNat 64 (s.aon.cause.toNat + 65536 * s.aon.history.toNat + 0x100000000 * s.aon.rstCount.toNat))
    (s.aon.bootSel = 3 → s.startBoot b = booted.bootFail 0 0x01) ∧
    (s.aon.bootSel ≠ 3 → s.otp.shmGroups = 0 → s.startBoot b = booted.bootFail 1 0x02) ∧
    (s.aon.bootSel ≠ 3 → s.otp.shmGroups ≠ 0 → s.otp.stationMap = 0 → s.startBoot b = booted.bootFail 1 0x03) ∧
    (s.otp.shmGroups ≠ 0 → s.otp.stationMap ≠ 0 →
      (s.aon.bootSel = 1 → s.startBoot b = booted.bootFromPcie) ∧
      (s.aon.bootSel = 0 ∨ s.aon.bootSel = 2 →
        (∀ p img, b.param = some p → firstImage (booted.copyImages b p) = some img →
          imageHeaderOk img.length img = true ∧ s.imageSigned img.length img = true ∧
          ∃ u, s.startBoot b = u ∧ u.phase = .bootFw ∧ u.main.glb.bootStage = 6 ∧
            u.main.idk.fwHash = word 256 (sha256 (img.take (img.length - 64))) ∧ u.main.idk.fwVersion = word 64 ((img.drop 16).take 8)) ∧
        ((∀ p, b.param = some p → firstImage (booted.copyImages b p) = none) →
          (b.param = none → (s.startBoot b).main.glb.bootLog = 0x05555) ∧
          (s.aon.bootSel = 2 → (s.startBoot b).phase = .bootPcie) ∧
          (s.aon.bootSel = 0 → (s.startBoot b).phase = .bootFailed ∧
            (s.startBoot b).main.glb.bootErr = if b.param.isSome then 0x05 else 0x04)))) ∧
    (∀ stage err, let u := s.bootFail stage err
      u.phase = .bootFailed ∧ u.aon.faultN = true ∧ u.aon.flushing.isSome = true ∧ u.aon.fbHead = s.aon.fbHead + 1 ∧
      u.aon.ring[s.aon.fbHead] = fbWord (s.time.setWidth 48) 1 0x010
        (BitVec.ofNat 64 (stage.toNat + 256 * err.toNat + 65536 * s.main.glb.bootLog.toNat)) ∧
      u.main = { s.main with glb := { s.main.glb with bootFailed := true, booting := false, bootStage := stage, bootErr := err } }) ∧
    (s.phase = .bootPcie → let len := s.main.glb.bootLen.toNat
      let failed := fun (o : Nat) => s.modGlb fun g =>
        { g with bootLog := (g.bootLog &&& 0x0FFFF) ||| BitVec.ofNat 20 (65536 * o), bootErr := 6 }
      (len < 256 ∨ 0x100000 < len ∨ len % 16 ≠ 0 → exec (.glbBootGo reply) s = .next (failed 4)) ∧
      (256 ≤ len → len ≤ 0x100000 → len % 16 = 0 →
        exec (.glbBootGo .busError) s = .next (failed 6) ∧
        ∀ bs : List Byte, bs.length = len →
          (imageHeaderOk len bs = false → exec (.glbBootGo (.data bs)) s = .next (failed 4)) ∧
          (imageHeaderOk len bs = true → s.imageSigned len bs = false → exec (.glbBootGo (.data bs)) s = .next (failed 3)) ∧
          (imageHeaderOk len bs = true → s.imageSigned len bs = true → ∃ u, exec (.glbBootGo (.data bs)) s = .next u ∧
            u.phase = .bootFw ∧ u.main.glb.bootStage = 6 ∧ u.main.idk.fwHash = word 256 (sha256 (bs.take (len - 64)))))) ∧
    (s.phase ≠ .bootPcie → exec (.glbBootGo reply) s = .next s) ∧
    (s.phase = .bootFw → exec .fwStartTimeout s = .next (s.bootFail 6 0x07) ∧ ∃ u, exec (.firmwareStart found) s = .next u ∧
      u.phase = .serving ∧ u.main.glb.ready = true ∧ u.main.glb.booting = false ∧ u.main.glb.bootStage = 7 ∧ u.main.nfc.ready = true ∧
      u.main.nfc.rtChosen = !(u.main.nfc.rt0.any tableOk) ∧
      u.main.nfc.rtBad = (!(u.main.nfc.rt0.any tableOk) && !(u.main.nfc.rt1.any tableOk)) ∧
      ((∀ i : Fin 16, targetParam found.targets[i] = none) →
        u.main.nfc.present = s.main.nfc.present ∧ u.aon.fbHead = s.aon.fbHead + 17) ∧
      ∀ (i : Fin 16) (p : TargetParam), targetParam found.targets[i] = some p → (∀ j : Fin 16, j < i → targetParam found.targets[j] = none) →
        u.main.nfc.present.getLsbD (i.val / 4 + 8 * (i.val % 4)) = true)

/-! ## Clocks, power states, supply and the field book -/

/-- R29: a write of DIV with VCORE, in units of 5 mV, below the minimum of the requested divider sets REFUSED and leaves the
divider unchanged; any other one records the request and sets SWITCHING. -/
def Obligations.DividerRequests : Prop :=
  ∀ (div : BitVec 2) (vcore : BitVec 8) (s : State), s.running = true →
    let need := fun (d : BitVec 2) => if d = 0 then 160 else if d = 1 then 140 else if d = 2 then 124 else 110
    (vcore.toNat < need div → exec (.pwrClkCtrl div vcore) s = .next (s.modPwr fun p => { p with vcoreMv := vcore, refused := true })) ∧
    (need div ≤ vcore.toNat → exec (.pwrClkCtrl div vcore) s =
      .next (s.modPwr fun p => { p with vcoreMv := vcore, div := div, switching := true, vcoreForce := false }))

/-- R28, R30 to R32, R354: a pending switch of the divider takes effect once no conversion runs, at the largest divider in
force; VCORE more than 20 mV below the minimum of the active divider forces divide-by-8.
R293 to R299, R302, R314: each command of the power states has its effect under its condition, on the state alone; what those
effects leave is said by PowerStates. The model's choices: log entries 1 and 2 (1: a command whose condition does not hold
changes nothing). -/
def Obligations.StationDivider : Prop :=
  ∀ (vcore : BitVec 8) (s : State), s.running = true →
    let need := fun (d : BitVec 2) => if d = 0 then 160 else if d = 1 then 140 else if d = 2 then 124 else 110
    let conv := ∃ n, ∃ i ∈ (s.station n).arrQ, i.convs ≠ []
    (s.main.pwr.switching = true → ¬ conv → exec .dividerSwitch s = .next (s.modPwr fun p => { p with
      switching := false, effDiv := if p.vcoreForce then 3 else if p.dipForce ∧ p.div.toNat < 2 then 2 else p.div })) ∧
    (s.main.pwr.switching = false ∨ conv → exec .dividerSwitch s = .next s) ∧
    (vcore.toNat + 4 < need s.main.pwr.effDiv → ∃ u, exec (.vcoreForce vcore) s = .next u ∧
      u.main = { s.main with pwr := { s.main.pwr with
        vcoreMv := vcore, vcoreForce := true, switching := s.main.pwr.switching || s.main.pwr.effDiv != 3 } } ∧
      u.aon.ring = s.aon.ring.set s.aon.fbHead
        (fbWord (s.time.setWidth 48) 0 0x003 (BitVec.ofNat 64 (vcore.toNat + 256 * s.main.pwr.effDiv.toNat)))) ∧
    (need s.main.pwr.effDiv ≤ vcore.toNat + 4 → exec (.vcoreForce vcore) s = .next (s.modPwr fun p => { p with vcoreMv := vcore })) ∧
    (s.serving = true → let p := s.main.pwr
      (p.state = .run → s.trimIdle = true → p.idleTrim ≠ 0 → exec .trimEntry s = .next (s.modPwr fun p => { p with state := .trim })) ∧
      (p.state ≠ .hold → s.holdIdle = true → p.idleHold ≠ 0 → exec .holdEntry s = .next s.enterHold) ∧
      (p.state = .hold → p.force = false → p.d3hot = false → exec .holdWake s = .next s.wakeHold) ∧
      exec .d3hot s = .next (s.modPwr fun p => { p with d3hot := true }) ∧
      (p.d3hot = true → ∃ u, exec .returnToD0 s = .next u ∧ u.main.pwr.d3hot = false) ∧
      (s.main.glb.outOfService = false → exec .pwrForceHoldSet s = .next (s.modPwr fun p => { p with force := true }) ∧
        ∃ u, exec .pwrForceHoldClear s = .next u ∧ u.main.pwr.force = false) ∧
      (p.force = true ∨ p.d3hot = true → p.state ≠ .hold → s.main.resetOrder = [] →
        (s.workLeft = false → s.recordLeft = false → exec .forcedHold s = .next s.enterHold) ∧ exec .drainAbort s = .next s.drainAbort) ∧
      (s.dormantIdle = true → p.state = .hold → p.idleDormant ≠ 0 → p.notice = false → p.wakeCause = false →
        ∃ u, exec .dormantNotice s = .next u ∧ u.main.pwr.notice = true) ∧
      (∃ u, exec .dormantNoticeCancel s = .next u ∧ u.main.pwr.notice = false) ∧
      (p.notice = true → s.dormantIdle = true → p.wakeCause = false → exec .dormantEntry s = .next s.enterDormant) ∧
      exec (.pwrPadRelease true) s = .next (s.modAon fun a => { a with padHeld := false, padZ := false }) ∧
      (∃ u, exec .pcieLinkL0 s = .next u ∧ u.aon.wakeOut = false) ∧ ∃ u, exec .wakeOutNTimeout s = .next u ∧ u.aon.wakeOut = false)

/-- R292 to R299, R302, R313, R314, R316: the transitions between Run, Trim, Hold and Dormant, each under its condition and not
otherwise; forced Hold and its end; what Hold entry and Dormant entry leave; the release of the pads and of WAKE_OUT_N. The
model's choices: log entries 1, 2, 62, 63, 64 and 94 (1: a command whose condition does not hold changes nothing). -/
def Obligations.PowerStates : Prop :=
  ∀ s : State, s.serving = true → let p := s.main.pwr
    (s.trimIdle = true ↔ ∀ n, (s.station n).running = false ∧ (s.station n).claim = none ∧ (s.station n).benchBusy = false) ∧
    (p.state = .run → s.trimIdle = true → p.idleTrim ≠ 0 → exec .trimEntry s = .next (s.modPwr fun p => { p with state := .trim })) ∧
    (p.state ≠ .run ∨ s.trimIdle = false ∨ p.idleTrim = 0 → exec .trimEntry s = .next s) ∧
    (p.state ≠ .hold → s.holdIdle = true → p.idleHold ≠ 0 → exec .holdEntry s = .next s.enterHold) ∧
    (p.state = .hold ∨ s.holdIdle = false ∨ p.idleHold = 0 → exec .holdEntry s = .next s) ∧
    (s.enterHold.main.pwr.state = .hold ∧ s.enterHold.aon.padHeld = true ∧
      s.enterHold.aon.padFault = (if s.aon.padHeld then s.aon.padFault else s.aon.faultN) ∧
      s.enterHold.main.marks = s.main.marks ∧ s.enterHold.main.shm = s.main.shm ∧ s.enterHold.nv = s.nv ∧
      (∀ k, (s.enterHold.port k).state = 0) ∧
      ∀ n, (s.enterHold.station n).mem.known = [] ∧ (s.enterHold.station n).running = false) ∧
    (p.force = true ∨ p.d3hot = true → p.state ≠ .hold → s.main.resetOrder = [] →
      (s.workLeft = false → s.recordLeft = false → exec .forcedHold s = .next s.enterHold) ∧
      (s.workLeft = true ∨ s.recordLeft = true → exec .forcedHold s = .next s) ∧ exec .drainAbort s = .next s.drainAbort) ∧
    ((p.force = false ∧ p.d3hot = false) ∨ p.state = .hold ∨ s.main.resetOrder ≠ [] →
      exec .forcedHold s = .next s ∧ exec .drainAbort s = .next s) ∧
    (∀ q j, s.job q = some j → j.doomed = false →
      (s.draining j = true ↔ (j.phase = .started ∨ j.phase = .running) ∧ (j.cmd = 1 ∨ j.cmd = 2 ∨ j.cmd = 3 ∨
        (j.cmd = 9 ∧ s.downAddr j.spSource = true) ∨ (j.cmd = 8 ∧ s.downAddr (j.le 48 5) = true))) ∧
      (s.draining j = false → s.abortJob q = s) ∧
      (s.draining j = true → j.cmd = 2 ∨ j.cmd = 8 ∨ j.cmd = 9 → let other := fun (w : SigWork) => w != .attest q j.order
        s.abortJob q = (s.modIdk fun i =>
          { i with sigQueue := i.sigQueue.filter other, sigBusy := i.sigBusy.filter other }).setEnd q stPowerAbort 0) ∧
      (j.phase = .running → j.cmd = 1 → j.faulted = false → s.abortJob q = (s.modJob q fun j =>
        { j with status := stPowerAbort, detail := j.stations.setWidth 32, faulted := true }).stopJob q j.order)) ∧
    (∀ a : Nat, s.downAddr a = true ↔ if inHostWindow a = true then p.d3hot = true else 0x100000000 ≤ a) ∧
    (s.main.glb.outOfService = true → exec .pwrForceHoldSet s = .next s ∧ exec .pwrForceHoldClear s = .next s) ∧
    (s.main.glb.outOfService = false → exec .pwrForceHoldSet s = .next (s.modPwr fun p => { p with force := true }) ∧
      (p.force = true → p.d3hot = true → exec .pwrForceHoldClear s = .next (s.modPwr fun p => { p with force := false })) ∧
      (p.force = true → p.d3hot = false → p.state = .hold → exec .pwrForceHoldClear s =
        .next (s.modPwr fun p => { p with force := false, wakeCause := true }).cancelNotice) ∧
      (p.force = true → p.d3hot = false → p.state ≠ .hold → exec .pwrForceHoldClear s =
        .next (s.modPwr fun p => { p with force := false }).pumpNand.chanStreams.chansSettle) ∧
      (p.force = false → exec .pwrForceHoldClear s = .next s)) ∧
    (p.state = .hold → p.force = false → p.d3hot = false → exec .holdWake s = .next s.wakeHold) ∧
    (p.state ≠ .hold ∨ p.force = true ∨ p.d3hot = true → exec .holdWake s = .next s) ∧
    exec .d3hot s = .next (s.modPwr fun p => { p with d3hot := true }) ∧
    (p.d3hot = false → exec .returnToD0 s = .next s) ∧
    (p.d3hot = true → exec .returnToD0 s =
      .next ((List.finRange 16).foldl State.drainHeld (s.modPwr fun p => { p with d3hot := false })).forceEnds) ∧
    (s.dormantIdle = true → p.state = .hold → p.idleDormant ≠ 0 → p.notice = false → p.wakeCause = false →
      exec .dormantNotice s = .next ((s.modPwr fun p => { p with notice := true }).powerEvent 0x02)) ∧
    (s.dormantIdle = false ∨ p.state ≠ .hold ∨ p.idleDormant = 0 ∨ p.notice = true ∨ p.wakeCause = true → exec .dormantNotice s = .next s) ∧
    (p.notice = false → exec .dormantEntry s = .next s) ∧
    (∃ u, exec .dormantNoticeCancel s = .next u ∧ u.main.pwr = { p with
      notice := false, evt := (p.evt &&& 0x1D) ||| (if p.notice then 0x04 else 0) }) ∧
    (p.notice = true → s.dormantIdle = false ∨ p.wakeCause = true → exec .dormantEntry s = .next s.cancelNotice) ∧
    (p.notice = true → s.dormantIdle = true → p.wakeCause = false → ∃ u, exec .dormantEntry s = .next u ∧
      u.phase = .dormant ∧ u.aon.pwrEn = false ∧ u.aon.padHeld = true ∧ u.main.time = 0 ∧ u.slots = s.slots ∧
      u.aon.ring = s.aon.ring.set s.aon.fbHead (fbWord (s.time.setWidth 48) 0 0x060 0) ∧ u.nand = s.nand) ∧
    exec (.pwrPadRelease true) s = .next (s.modAon fun a => { a with padHeld := false, padZ := false }) ∧
    exec (.pwrPadRelease false) s = .next s ∧
    exec .pcieLinkL0 s = .next ((if s.main.pcie.link = .training then s.setLink .up else s).modAon fun a => { a with wakeOut := false }) ∧
    exec .wakeOutNTimeout s = .next (s.modAon fun a => { a with wakeOut := false })

/-- R306, R307, R311, R312, R354: VSYS below the warning level of PWR_VSYS_WARN warns, above the recovery level it recovers, and
in between neither does anything; both hold in every phase in which the comparator runs; the end of the hold-off; a sample of
the charge counter, and what it does when the charge falls to the empty level; only a 64-bit write sets the charge. The model's
choices: log entries 1, 2, 29 and 93 (1: a command whose condition does not hold changes nothing). -/
def Obligations.SupplyResults : Prop :=
  ∀ (vsys : BitVec 13) (sense : Int) (v : BitVec 64) (h : BitVec 32) (s : State),
    let level := 2900 + 50 * s.aon.vsysWarn.toNat
    (s.phase ≠ .strapWait → s.phase ≠ .borHeld → s.phase ≠ .dormant →
      (s.aon.warn = false → vsys.toNat < level → ∃ u, exec (.supplyWarn vsys) s = .next u ∧
        u.aon.warn = true ∧ u.aon.dip = true ∧ u.aon.holdoff = false ∧ u.aon.flushing.isSome = true ∧ u.main.sup.vsys = vsys ∧
        u.main.pwr.dipForce = true ∧ u.main.pwr.notice = false ∧
        u.aon.ring = s.aon.ring.set s.aon.fbHead (fbWord (if s.running then s.time.setWidth 48 else 0xFFFFFFFFFFFF) 0 0x020
          (BitVec.ofNat 64 (vsys.toNat + 65536 * s.aon.vsysWarn.toNat))) ∧
        u.main.queues = s.main.queues ∧ u.main.stations = s.main.stations ∧ u.phase = s.phase) ∧
      (s.aon.warn = true → level + 50 < vsys.toNat → exec (.warningRecovery vsys) s =
        .next ((s.modAon fun a => { a with warn := false, holdoff := true }).modSup fun x => { x with vsys := vsys }))) ∧
    (s.aon.warn = true ∨ level ≤ vsys.toNat → exec (.supplyWarn vsys) s = .next s) ∧
    (s.aon.warn = false ∨ vsys.toNat ≤ level + 50 → exec (.warningRecovery vsys) s = .next s) ∧
    (s.phase = .strapWait ∨ s.phase = .borHeld ∨ s.phase = .dormant →
      exec (.supplyWarn vsys) s = .next s ∧ exec (.warningRecovery vsys) s = .next s) ∧
    (s.aon.holdoff = false → exec .holdoffEnd s = .next s) ∧
    (s.aon.holdoff = true → ∃ u, exec .holdoffEnd s = .next u ∧ u.aon = { s.aon with holdoff := false } ∧
      u.main = { s.main with pwr := { s.main.pwr with dipForce := false, switching := u.main.pwr.switching } } ∧
      (s.main.pwr.effDiv ≠ (if s.main.pwr.vcoreForce then 3 else s.main.pwr.div) → u.main.pwr.switching = true)) ∧
    (s.serving = true → let x := s.main.sup
     let c := max (-32768) (min 32767 sense)
     let y := { x with vsys := vsys, sense := BitVec.ofInt 16 c, adcSat := x.adcSat || decide (sense < -32768 ∨ 32767 < sense),
                       charge := x.charge - BitVec.ofInt 64 c }
     let empty := x.emptyLevel.toInt < x.charge.toInt ∧ y.charge.toInt ≤ x.emptyLevel.toInt
     (x.en = false → exec (.chargeSample sense vsys) s = .next s) ∧
     (x.en = true → ¬ empty → exec (.chargeSample sense vsys) s = .next (s.modSup fun _ => y)) ∧
     (x.en = true → empty → exec (.chargeSample sense vsys) s = .next ((s.modSup fun _ =>
       { y with chargeEmpty := true, capCharge := y.charge, capVsys := vsys, capTime := s.time }).raiseIf x.irqEn 42)) ∧
     (x.charge.toInt ≤ x.emptyLevel.toInt ∨ x.emptyLevel.toInt < v.toInt →
       exec (.supCharge (.both v)) s = .next (s.modSup fun x => { x with charge := v }))) ∧
    exec (.supCharge (.low h)) s = .next s ∧ exec (.supCharge (.high h)) s = .next s

/-- R355: a write of FBK_DRV_DATA changes only its staging copy; a write of FBK_DRV_LOG commits it and writes one entry at once,
with SOURCE 7, CODE 0xE00 + CODE and the committed data. -/
def Obligations.DriverLogEntry : Prop :=
  ∀ (code : BitVec 8) (v : BitVec 64) (s : State), s.serving = true →
    (s.write64 0x0B0010 (.both v) = { s with main := { s.main with fbkDrv := { s.main.fbkDrv with staging := v } } }) ∧
    (∃ u, exec (.fbkDrvLog code) s = .next u ∧ u.aon.fbHead = s.aon.fbHead + 1 ∧
      u.aon.ring = s.aon.ring.set s.aon.fbHead (fbWord (s.time.setWidth 48) 7 (0xE00 + code.toNat) s.main.fbkDrv.staging) ∧
      u.main = { s.main with fbkDrv := ⟨s.main.fbkDrv.staging, s.main.fbkDrv.staging, none⟩ })

/-- R308, R353, R354, R356, R357: a flush starts, or merges into the one that waits; at its end the slot holds the bytes that
were fixed at its start, DONE among them, and the pending flush starts; every slot that a flush writes is valid. The model's
choices: log entries 1 and 35 (1: a command whose condition does not hold changes nothing). -/
def Obligations.FieldBookResults : Prop :=
  ∀ s : State, s.serving = true →
    (s.aon.flushing = none → ∃ u f, exec .fbkFlush s = .next u ∧ u.aon.flushing = some f ∧
      f.slot = (if s.aon.seq = 0 then 0 else s.aon.lastSlot + 1) ∧ f.seq = s.aon.seq + 1 ∧
      f.bytes = slotBytes f.seq s.aon.rstCount 0x0FF s.aon.newest ∧ (u.slots[f.slot]).getD 63 0 = 0 ∧
      (∀ k, k ≠ f.slot → u.slots[k] = s.slots[k]) ∧ u.aon.ring = s.aon.ring) ∧
    (∀ f, s.aon.flushing = some f → ∃ u, exec .fbkFlush s = .next u ∧ u.aon.flushing = some f ∧
      u.aon.flushPend = some (s.aon.flushPend.getD 0x0FF) ∧ u.slots = s.slots) ∧
    (s.aon.flushing = none → exec .fieldBookFlushEnd s = .next s) ∧
    (∀ f, s.aon.flushing = some f →
      (s.aon.flushPend = none → exec .fieldBookFlushEnd s = .next { s with
        slots := s.slots.set f.slot f.bytes, aon := { s.aon with flushing := none, seq := f.seq, lastSlot := f.slot } }) ∧
      (∀ k, s.aon.flushPend = some k → exec .fieldBookFlushEnd s = .next ({ s with
        slots := s.slots.set f.slot f.bytes,
        aon := { s.aon with flushing := none, flushPend := none, seq := f.seq, lastSlot := f.slot } }.flushStart k))) ∧
    (∀ (seq : BitVec 32) (rst trigger : BitVec 16) (es : List (BitVec 128)), es.length ≤ 128 →
      slotValid (slotBytes seq rst trigger es) = true ∧ leAt (slotBytes seq rst trigger es) 4 4 = seq.toNat ∧
      ∀ i < es.length, ((slotBytes seq rst trigger es).drop (64 + 16 * i)).take 16 = toBytes (es.getD i 0) 16)

/-! ## Identity and the management port -/

/-- R346 to R349, R352, R354: a commit of the maker's key is checked against the burnt hash; a burn is refused in the cases of
R346, and its end writes the hash of the key that was active at its start; a verify request is queued, or refused while one is
busy; the engine serves in order. The model's choices: log entries 1, 33, 38, 39 and 78 (1: a command whose condition does not
hold changes nothing). -/
def Obligations.IdentityResults : Prop :=
  ∀ (v : BitVec 32) (s : State), s.serving = true → let i := s.main.idk
    let sum := fun (k : BitVec 512) => word 256 (sha256 (toBytes k 64))
    (s.otp.pmkState ≠ 0 ∨ i.pmkKey.active = 0 ∨ i.burnBusy = true ∨ v ≠ 0x5A5A →
      exec (.idkPmkBurn v) s = .next (s.modIdk fun i => { i with burnRefused := true })) ∧
    (s.otp.pmkState = 0 → i.pmkKey.active ≠ 0 → i.burnBusy = false →
      exec (.idkPmkBurn 0x5A5A) s =
        .next (s.modIdk fun i => { i with burnBusy := true, burnHash := sum i.pmkKey.active })) ∧
    (i.burnBusy = false → exec .pmkBurnEnd s = .next s) ∧
    (i.burnBusy = true → ∃ u, exec .pmkBurnEnd s = .next u ∧ u.otp = { s.otp with pmkHash := i.burnHash, pmkState := 1 } ∧
      u.main.idk = { i with burnBusy := false } ∧ u.aon.ring = s.aon.ring.set s.aon.fbHead (fbWord (s.time.setWidth 48) 6 0x071 1)) ∧
    (∃ u, exec .idkCommit s = .next u ∧ u.main.idk.pmkKey = ⟨i.pmkKey.staging, i.pmkKey.staging, none⟩ ∧
      (u.main.idk.keyLoaded = true ↔ s.otp.pmkState = 1 ∧ sum i.pmkKey.staging = s.otp.pmkHash) ∧
      u.main.idk.keyBad = (i.keyBad || !u.main.idk.keyLoaded) ∧ (u.main.idk.keyLoaded = false → u.main.idk.rtStat = 4) ∧
      (u.main.idk.keyLoaded = true → s.main.nfc.rtBad = true → u.main.idk.rtStat = 3) ∧ u.otp = s.otp ∧
      u.aon.ring = s.aon.ring.set s.aon.fbHead (fbWord (s.time.setWidth 48) 6 0x070 (u.main.idk.rtStat.setWidth 64))) ∧
    (i.vfyBusy = true → exec .idkVfyGo s = .next (s.modIdk fun i => { i with vfyRefused := true })) ∧
    (i.vfyBusy = false → exec .idkVfyGo s = .next (s.modIdk fun i => { i with vfyBusy := true, sigQueue := i.sigQueue ++
      [.verify ((i.vfyReq &&& 0xFFFFFFFFC0).setWidth 40) i.pmkKey.active i.keyLoaded] })) ∧
    (∀ w rest, i.sigBusy = none → i.sigQueue = w :: rest → let t := s.modIdk fun i => { i with sigQueue := rest, sigBusy := some w }
      (∀ a key loaded, w = .verify a key loaded → exec .signatureEngineStart s = .next t) ∧
      (∀ q order j, w = .attest q order → s.jobOrder q order = some j →
        exec .signatureEngineStart s = .next (t.modJobOrder q order fun k => { k with report := t.reportBytes j }))) ∧
    (∀ w, i.sigBusy = some w → exec .signatureEngineStart s = .next s) ∧
    (s.memWf = true → ∀ (a : BitVec 40) (key : BitVec 512) (loaded : Bool) (k kk : Nat) (req img : HostReply), i.sigBusy = some (.verify a key loaded) →
      s.place a.toNat 128 = some (.shm k) → let r := s.main.shm.mem.readBytes k 128
      s.place (leAt r 0 5) (leAt r 8 4) = some (.shm kk) → let h := sha256 (s.main.shm.mem.readBytes kk (leAt r 8 4))
      let good := loaded = true ∧ ecdsaVerify (leAt (toBytes key 64) 0 32) (leAt (toBytes key 64) 32 32) (leAt r 16 32) (leAt r 48 32) h = true
      ∃ u, exec (.verifyEnd req img) s = .next u ∧ u.main.idk = { i with vfyBusy := false, sigBusy := none } ∧
        (good → u.main.shm.mem.readBytes (k + 112) 2 = toBytes stOk 2) ∧
        (¬ good → u.main.shm.mem.readBytes (k + 112) 2 = toBytes stSignatureFail 2 ∧
          u.main.shm.mem.readBytes (k + 114) 1 = [if loaded then 0 else 1]) ∧
        u.main.shm.mem.readBytes (k + 80) 32 = h ∧
        ∀ b, (b < k + 80 ∨ k + 115 ≤ b) → u.main.shm.mem.read b = s.main.shm.mem.read b)

/-- R335 to R340, R297, R314, R356: only the latched address is answered; reads of the management port's items, with the capture
of a multi-byte item at its lowest byte; its three writable items; MGT_PWR_CMD, of which only the flush acts while the main
domain is down; the bus timeout; the copies. The model's choices: log entries 1, 26, 27 and 92 (1: a command whose condition
does not hold changes nothing). -/
def Obligations.ManagementPort : Prop :=
  ∀ (s : State) (b : BitVec 8) (vsys : BitVec 13), let bus := s.aon.mgtBus
    (∀ (x : MgtAddr) (n : Nat) (bs : List (BitVec 8)), x.bus ≠ bus →
      exec (.mgtRead x n) s = .next { s with mgtData := [] } ∧ exec (.mgtWrite x bs) s = .next s) ∧
    (s.phase = .strapWait ∨ s.phase = .dormant → ∀ (a : BitVec 16) (n : Nat) (bs : List (BitVec 8)),
      exec (.mgtRead ⟨bus, a⟩ n) s = .next { s with mgtData := List.replicate n 0xFF } ∧
      exec (.mgtWrite ⟨bus, a⟩ bs) s = .next s ∧ exec .busTimeout s = .next s ∧ exec .mgtPwrCmdFlush s = .next s) ∧
    (s.phase ≠ .strapWait → s.phase ≠ .dormant →
      (exec (.mgtRead ⟨bus, 0⟩ 4) s = .next { s with
        mgtData := [0xB0, 0x24, 0x47, 0x4C], aon := { s.aon with mgmt := s.aon.mgmt.capture 0 [0xB0, 0x24, 0x47, 0x4C] } }) ∧
      (s.serving = false → exec (.mgtRead ⟨bus, 4⟩ 1) s = .next { s with mgtData := [0x20] }) ∧
      (∀ i : Fin 512, let e := toBytes s.aon.ring[i] 16
        exec (.mgtRead ⟨bus, BitVec.ofNat 16 (0x1000 + 16 * i.val)⟩ 16) s = .next { s with
          mgtData := e, aon := { s.aon with mgmt := s.aon.mgmt.capture (0x1000 + 16 * i.val) e } }) ∧
      (∀ (base : Nat) (bs : List Byte), base = 8 → s.aon.mgmt.captures.find? (fun p => p.1 == base) = some (base, bs) → bs.length = 4 →
        exec (.mgtRead ⟨bus, 9⟩ 3) s = .next { s with mgtData := bs.drop 1 }) ∧
      exec (.mgtRead ⟨bus, 0x0200⟩ 1) s = .next { s with mgtData := [0] } ∧
      exec (.mgtWrite ⟨bus, 0x0011⟩ [b]) s =
        .next (s.modAon fun a => { a with vsysWarn := if 10 < b.toNat % 16 then 10 else b.setWidth 4 }) ∧
      exec (.mgtWrite ⟨bus, 0x0024⟩ [b]) s = .next (s.modAon fun a => { a with slotSel := (b.setWidth 4).toFin }) ∧
      exec (.mgtWrite ⟨bus, 0x0000⟩ [b]) s = .next s ∧ exec (.mgtWrite ⟨bus, 0x0100⟩ [3]) s = .next s ∧
      exec (.mgtWrite ⟨bus, 0x0100⟩ [4]) s = exec .mgtPwrCmdFlush s ∧
      exec .mgtPwrCmdFlush s = .next ((s.flush 0x0FF).noticeCheck) ∧
      exec .busTimeout s = .next (s.modAon fun a => { a with mgmt := { a.mgmt with timeout := true } })) ∧
    (s.serving = false → exec .mgtPwrCmdHoldSet s = .next s ∧ exec .mgtPwrCmdHoldClear s = .next s ∧
      exec .mgtPwrCmdPadRelease s = .next s ∧ exec (.mgtCopyRefresh vsys) s = .next s) ∧
    (s.serving = true → exec .mgtPwrCmdHoldSet s = exec .pwrForceHoldSet s ∧ exec .mgtPwrCmdHoldClear s = exec .pwrForceHoldClear s ∧
      (s.main.glb.outOfService = false → exec .mgtPwrCmdHoldSet s = .next (s.modPwr fun p => { p with force := true })) ∧
      (s.main.glb.outOfService = false → s.main.pwr.force = true → s.main.pwr.d3hot = true →
        exec .mgtPwrCmdHoldClear s = .next (s.modPwr fun p => { p with force := false })) ∧
      exec .mgtPwrCmdPadRelease s = .next (s.modAon fun a => { a with padHeld := false, padZ := false }) ∧
      exec (.mgtCopyRefresh vsys) s = .next { s with
        aon := { s.aon with mgmt := { s.aon.mgmt with vsysCopy := vsys, chargeCopy := s.main.sup.charge } },
        main := { s.main with sup := { s.main.sup with vsys := vsys } } } ∧
      (s.main.pwr.state ≠ .run → exec (.mgtRead ⟨bus, 0x0014⟩ 2) s = .next { s with
        mgtData := toBytes (s.aon.mgmt.vsysCopy.setWidth 16) 2
        aon := { s.aon with mgmt := s.aon.mgmt.capture 0x0014 (toBytes (s.aon.mgmt.vsysCopy.setWidth 16) 2) } }))

/-! ## Serial ports -/

/-- R322: with RXEN 1 a finished character moves into the holding register and sets RXFULL; with RXFULL 1 it is discarded and OE
is set, and the holding register and the other flags keep their values. A bit is the majority of its samples (R319); FE, PE,
NOISE and BRK follow from the samples of the bits that the format has (R319, R320). -/
def Obligations.ReceivedCharacters : Prop :=
  ∀ (u : Fin 2) (c : RxChar) (s : State), s.serving = true → let x := s.main.uarts[u]
    let high := fun (b : Samples) => 2 ≤ [b.s7, b.s8, b.s9].count true
    let noisy := fun (b : Samples) => ¬ (b.s7 = b.s8 ∧ b.s8 = b.s9)
    let low := fun (b : Samples) => b.s7 = false ∧ b.s8 = false ∧ b.s9 = false
    let n := 5 + x.cfg.active.dbits.toNat
    let par := x.cfg.active.parity = 1 ∨ x.cfg.active.parity = 2
    s.main.pwr.state ≠ .hold → s.aon.padHeld = false → s.frameMode u = false → x.cfg.active.rxen = true →
    16 ≤ c.start.high → ¬ high c.start.samples →
    (x.rxFull = true →
      exec (.characterReceived u c) s = .next (s.modUart u fun x => { x with flags := x.flags ||| 4, marks := x.marks &&& ~~~4 })) ∧
    (x.rxFull = false → ∃ t, exec (.characterReceived u c) s = .next t ∧ let y := t.main.uarts[u]
      y.rxFull = true ∧ (∀ i : Fin 8, y.rxHold.getLsbD i = true ↔ i.val < n ∧ high c.data[i]) ∧
      (y.flags.getLsbD 0 = true ↔ x.flags.getLsbD 0 = true ∨ ¬ high c.stop) ∧
      (y.flags.getLsbD 1 = true ↔ x.flags.getLsbD 1 = true ∨
        (x.cfg.active.parity = 1 ∧ (high c.parity ↔ popCount y.rxHold % 2 = 0)) ∨
        (x.cfg.active.parity = 2 ∧ (high c.parity ↔ popCount y.rxHold % 2 = 1))) ∧
      (y.flags.getLsbD 2 = x.flags.getLsbD 2) ∧
      (y.flags.getLsbD 3 = true ↔ x.flags.getLsbD 3 = true ∨ noisy c.start.samples ∨ (∃ i : Fin 8, i.val < n ∧ noisy c.data[i]) ∨
        (par ∧ noisy c.parity) ∨ noisy c.stop) ∧
      (y.flags.getLsbD 4 = true ↔ x.flags.getLsbD 4 = true ∨
        ((∀ i : Fin 8, i.val < n → low c.data[i]) ∧ (par → low c.parity) ∧ low c.stop)) ∧
      y = { x with rxHold := y.rxHold, rxFull := true, flags := y.flags, marks := y.marks })

/-- R317, R319 to R321, R324, R327, R362: a byte for the transmitter, and the bits that it becomes on the line; the reads of
SERn_STAT and SERn_DATA with the marks of the error flags; a false start; the committed set and when it becomes active. The
model's choices: log entries 1, 66 and 69 (1: a command whose condition does not hold changes nothing). -/
def Obligations.SerialPorts : Prop :=
  (∀ (x : Uart) (b : BitVec 8), let n := 5 + x.cfg.active.dbits.toNat
    let par := x.cfg.active.parity = 1 ∨ x.cfg.active.parity = 2
    let line := x.charBits b
    line.getD 0 true = false ∧ (∀ i < n, line.getD (1 + i) false = b.getLsbD i) ∧
    (x.cfg.active.parity = 1 → ((line.drop 1).take (n + 1)).count true % 2 = 0) ∧
    (x.cfg.active.parity = 2 → ((line.drop 1).take (n + 1)).count true % 2 = 1) ∧
    line.drop (1 + n + if par then 1 else 0) = List.replicate (if x.cfg.active.stop2 then 2 else 1) true) ∧
  ∀ (u : Fin 2) (b : BitVec 8) (c : RxChar) (st : StartBit) (s : State), s.serving = true → let x := s.main.uarts[u]
    let high := 2 ≤ [st.samples.s7, st.samples.s8, st.samples.s9].count true
    let noisy := ¬ (st.samples.s7 = st.samples.s8 ∧ st.samples.s8 = st.samples.s9)
    (s.frameMode u = true → exec (.sernDataWrite u b) s = .next (s.modUart u fun x => { x with txLost := true }) ∧
      exec (.sernDataRead u) s = .next { s with readData := [0, 0, 0, 0] }) ∧
    (s.frameMode u = false →
      (x.cfg.active.txen = false → exec (.sernDataWrite u b) s = .next s) ∧
      (x.cfg.active.txen = true → x.txHold = none → exec (.sernDataWrite u b) s = .next (s.modUart u fun x => { x with txHold := some b })) ∧
      (x.cfg.active.txen = true → x.txHold ≠ none → exec (.sernDataWrite u b) s = .next (s.modUart u fun x => { x with txLost := true })) ∧
      exec (.sernDataRead u) s = .next ({ s with readData := [x.rxHold, 0, 0, 0] }.modUart u fun x =>
        { x with rxFull := false, flags := x.flags &&& ~~~x.marks, marks := 0 }) ∧
      (∃ t v, exec (.sernStatRead u) s = .next t ∧ exec (.sernDataRead u) t = .next v ∧ v.main.uarts[u].flags = 0 ∧
        v.main.uarts[u].rxFull = false ∧ t.readData = toBytes x.stat 4 ∧ v.readData = [x.rxHold, 0, 0, 0])) ∧
    exec (.sernCommit u) s = .next (s.modUart u fun x => { x with cfg := { x.cfg with pending := some x.cfg.staging } }) ∧
    (∀ p, x.cfg.pending = some p → x.txShift = none → (u = 1 → s.main.lin.state = 0) →
      exec (.serSetActivate u) s = .next (s.modUart u fun x => { x with cfg := { x.cfg with active := p, pending := none } })) ∧
    (x.txShift ≠ none → exec (.serSetActivate u) s = .next s) ∧
    (s.main.pwr.state = .hold ∨ s.aon.padHeld = true →
      exec (.characterStart u) s = .next s ∧ exec (.characterReceived u c) s = .next s ∧ exec (.falseStart u st) s = .next s) ∧
    (st.high < 16 ∨ ¬ high ∨ ¬ noisy → exec (.falseStart u st) s = .next s) ∧
    (s.main.pwr.state ≠ .hold → s.aon.padHeld = false → 16 ≤ st.high → high → noisy → s.frameMode u = true →
      exec (.falseStart u st) s = .next (s.modLin fun l => { l with noise := l.noise || l.inFrame })) ∧
    (s.main.pwr.state ≠ .hold → s.aon.padHeld = false → s.frameMode u = false →
      (x.cfg.pending = none → exec (.characterStart u) s =
        .next (s.modUart u fun x => { x with txShift := x.txHold.map x.charBits, txHold := none })) ∧
      (x.cfg.pending ≠ none → exec (.characterStart u) s = .next (s.modUart u fun x => { x with txShift := none })) ∧
      (x.cfg.active.rxen = false → exec (.characterReceived u c) s = .next s) ∧
      (x.cfg.active.rxen = true → 16 ≤ st.high → high → noisy → exec (.falseStart u st) s =
        .next (s.modUart u fun x => { x with flags := x.flags ||| 8, marks := x.marks &&& ~~~8 })))

/-- R328 to R334: headers, wake pulses and breaks; what a PID begins, for a commander and for a responder; how a response ends,
and what every end of a frame does; the bits of a header and of a published response, the checksum and the parity of an
identifier. The model's choices: log entries 1, 65, 67 and 68 (1: a command whose condition does not hold changes nothing; 65:
whether samples disagreed in a part of a frame that no command reports is a free value). -/
def Obligations.LinFrames : Prop :=
  (∀ id : BitVec 6, (pidOf id).setWidth 6 = id ∧
    (pidOf id).getLsbD 6 = (id.getLsbD 0 ^^ id.getLsbD 1 ^^ id.getLsbD 2 ^^ id.getLsbD 4) ∧
    (pidOf id).getLsbD 7 = !(id.getLsbD 1 ^^ id.getLsbD 3 ^^ id.getLsbD 4 ^^ id.getLsbD 5)) ∧
  (∀ (c : SerCfg) (id : BitVec 6), c.headerBits id = List.replicate (13 + c.linBreak.toNat) false ++
    List.replicate (1 + c.linDelim.toNat) true ++ [false, true, false, true, false, true, false, true, false, true] ++
    [false] ++ (List.range 8).map (fun i => (pidOf id).getLsbD i) ++ [true]) ∧
  (∀ (l : Lin) (r : BitVec 4), l.endFrame r = { l with
    state := 0, out := [], clocks := 0, result := r, lastId := l.id, done := true, err := l.err || r != 0,
    cntOk := if r = 0 then l.cntOk + 1 else l.cntOk, cntErr := if r = 0 then l.cntErr else l.cntErr + 1 }) ∧
  (∀ (l : Lin) (id : BitVec 6), let k := { l with id := id, pidByte := pidOf id, sending := l.buf.getD id.toNat 0, state := 5 }
    (k.dir = 0 → l.accept id = k.endFrame 0) ∧
    (k.dir = 1 → l.accept id = { k with out := lineBits k.published }) ∧
    (2 ≤ k.dir → l.accept id = { k with out := [] }) ∧
    k.published.length = min 8 k.len + 1 ∧ ∀ i < min 8 k.len, k.published.getD i 0 = byteOf k.sending i) ∧
  (∀ (id : BitVec 6) (pid : BitVec 8) (data : List Byte), id = 0x3C ∨ id = 0x3D →
    linChecksum id true pid data = linChecksum id false pid data) ∧
  ∀ (id : BitVec 6) (us : BitVec 13) (h : LinHeader) (bytes : List Byte) (sum : BitVec 8) (r : PartResponse) (e go : Bool) (s : State),
    s.serving = true → let l := s.main.lin
    let noted := fun (e : Bool) => { l with noise := l.noise || e }
    exec (.ser1LinWake us false) s = .next s ∧
    (l.state ≠ 0 → exec (.ser1LinHdr id go) s = .next (s.modLin fun l => { l with hdrLost := true })) ∧
    (l.state = 0 → go = false ∨ s.lin.linEn = false ∨ s.lin.linRole = false → exec (.ser1LinHdr id go) s = .next s) ∧
    (s.lin.linEn = true → s.lin.linRole = true → s.main.pwr.state ≠ .hold → s.main.uarts[(1 : Fin 2)].cfg.pending = none →
      l.state = 0 → exec (.ser1LinHdr id true) s =
        .next (s.modLin fun l => { l with state := 1, id := id, out := s.lin.headerBits id, clocks := 0 })) ∧
    (s.lin.linEn = true → s.main.pwr.state ≠ .hold →
      (l.state = 0 → exec (.ser1LinWake us true) s =
        .next (s.modLin fun l => { l with state := 6, wakeUs := if us.toNat < 250 then 250 else if 5000 < us.toNat then 5000 else us })) ∧
      (l.state ≠ 0 → exec (.ser1LinWake us true) s = .next s)) ∧
    (l.state = 6 → exec .wakePulseEnd s = .next (s.modLin fun l => { l with state := 0 })) ∧
    (s.linOn = true →
      exec .wakeSeen s = .next (s.modLin fun l => { l with wakeSeen := true }) ∧
      (s.lin.linRole = false → s.main.uarts[(1 : Fin 2)].cfg.pending = none → l.state = 0 ∨ l.inFrame = true →
        ∃ t e, exec .breakSeen s = .next t ∧
          t.main.lin = { (if l.inFrame then (noted e).endFrame 9 else l) with state := 1, id := t.main.lin.id }) ∧
      (1 ≤ l.state.toNat → l.state.toNat ≤ 4 →
        (∃ e, exec .hdrTimeout s = .next (s.modLin fun _ => (noted e).endFrame 5).nextStamp) ∧
        (s.lin.linRole = true → exec (.frameEnd (.bitError e)) s = .next (s.modLin fun _ => (noted e).endFrame 1)) ∧
        (s.lin.linRole = true → exec (.pid h) s = .next (s.modLin fun l => (noted h.noise).accept l.id)) ∧
        (s.lin.linRole = false → s.lin.linAdapt = false → h.syncOk = false →
          exec (.pid h) s = .next (s.modLin fun _ => (noted h.noise).endFrame 4)) ∧
        (s.lin.linRole = false → s.lin.linAdapt = false → h.syncOk = true → h.pid = pidOf (h.pid.setWidth 6) →
          exec (.pid h) s = .next (s.modLin fun _ => (noted h.noise).accept (h.pid.setWidth 6))) ∧
        (s.lin.linRole = false → s.lin.linAdapt = false → h.syncOk = true → h.pid ≠ pidOf (h.pid.setWidth 6) →
          exec (.pid h) s = .next (s.modLin fun l => { l with noise := l.noise || h.noise, id := h.pid.setWidth 6 }.endFrame 3)) ∧
        (s.lin.linRole = false → s.lin.linAdapt = true → let d := 2 * h.t8.toNat
          (114 * s.lin.divisor.toNat < 100 * d ∨ 100 * d < 86 * s.lin.divisor.toNat →
            exec (.pid h) s = .next (s.modLin fun _ => (noted h.noise).endFrame 4)) ∧
          (100 * d ≤ 114 * s.lin.divisor.toNat → 86 * s.lin.divisor.toNat ≤ 100 * d → h.pid = pidOf (h.pid.setWidth 6) →
            exec (.pid h) s = .next (s.modLin fun l =>
              { l with noise := l.noise || h.noise, meas := BitVec.ofNat 24 d }.accept (h.pid.setWidth 6))))) ∧
      (l.state = 5 →
        (l.dir = 2 → r.received.val ≤ l.len → exec (.noResponse r) s =
          .next (s.modLin fun _ => (noted r.noise).endFrame (if r.received = 0 then 6 else 7))) ∧
        (l.dir = 1 → exec (.frameEnd (.published e)) s = .next (s.modLin fun _ => (noted e).endFrame 0)) ∧
        (l.dir = 1 → s.lin.linRole = true → exec (.frameEnd (.bitError e)) s = .next (s.modLin fun _ => (noted e).endFrame 1)) ∧
        (l.dir = 2 → exec (.frameEnd (.received bytes sum true e)) s = .next (s.modLin fun _ => (noted e).endFrame 8)) ∧
        (l.dir = 2 → bytes.length = l.len → l.len ≤ 8 → let good := linChecksum l.id (bit (l.tab.getD l.id.toNat 8) 6) l.pidByte bytes
          (sum ≠ good → exec (.frameEnd (.received bytes sum false e)) s = .next (s.modLin fun _ => (noted e).endFrame 2)) ∧
          (sum = good → ∃ t, exec (.frameEnd (.received bytes sum false e)) s = .next t ∧
            t.main.lin = { (noted e).endFrame 0 with buf := t.main.lin.buf } ∧
            (∀ i < 8, byteOf (t.main.lin.buf.getD l.id.toNat 0) i =
              if i < l.len then bytes.getD i 0 else byteOf (l.buf.getD l.id.toNat 0) i) ∧
            ∀ j < 64, j ≠ l.id.toNat → t.main.lin.buf.getD j 0 = l.buf.getD j 0))))

/-! ## The traverse engine -/

/-- R223, R226, R227, R238, R241 to R244, R252: START, PAUSE, RESUME and CANCEL, the owner, the format, the tick generators:
each under its condition, and what a start sets; a tick is counted up to 15 on a channel that cannot use it; which channel a
side of the engine grants. The model's choices: log entries 1, 55 and 87 (1: a command whose condition does not hold changes
nothing; 55: PAUSED shows that the fabric clocks until the channel had drained have passed). -/
def Obligations.ChannelControl : Prop :=
  (∀ (sd : Side) (prio : ChanNo → BitVec 2) (ready : List ChanNo),
    (ready ≠ [] → ∃ c, sd.pick prio ready = some c) ∧
    ∀ c, sd.pick prio ready = some c → c ∈ ready ∧ (∀ d ∈ ready, (prio d).toNat ≤ (prio c).toNat) ∧
      ∀ l, sd.last = some l → l ∈ ready → prio l = prio c → sd.run < 16 → c = l) ∧
  (∀ (g : Fin 4) (s : State), s.running = true →
    (∃ u, exec .tckCommit s = .next u ∧ u = { s with main := { s.main with gens := u.main.gens } } ∧ ∀ k : Fin 4, let y := s.main.gens[k]
      u.main.gens[k] = if y.en
        then { y with period := { y.period with pending := some y.period.staging }, phase := { y.phase with pending := some y.phase.staging } }
        else { y with period := ⟨y.period.staging, y.period.staging, none⟩, phase := ⟨y.phase.staging, y.phase.staging, none⟩ }) ∧
    let y := s.main.gens[g]
    let due := y.en = true ∧ y.ticked ≠ some s.time ∧ y.phase.active.toNat ≤ s.time.toNat ∧
      (s.time.toNat - y.phase.active.toNat) % y.period.active.toNat = 0
    (¬ due → exec (.tick g) s = .next s) ∧
    (due → exec (.tick g) s = .next ((List.finRange 16).foldl (State.tickChan g) (s.modMain fun m =>
      { m with gens := upd m.gens g fun y => { y with period := y.period.activate, phase := y.phase.activate, ticked := some m.time } })).chansSettle)) ∧
  ∀ (ch : Fin 16) (c : Fin 8) (valid : Bool) (g : Fin 4) (s : State), s.serving = true → let x := s.chan ch
    let free := x.state = .idle ∨ x.state = .halted
    (x.state = .armed ∨ x.state = .running ∨ x.ownValid = false ∨ x.startHeld ≠ none → exec (.trvStart ch) s = .next s) ∧
    (x.ownValid = true → x.startHeld = none → free →
      (x.trig = 0 → s.main.pwr.force = false → s.main.pwr.d3hot = false → exec (.trvStart ch) s =
        .next (s.chainStart ch .driver x.head x.crcSel none).noticeCheck.chansSettle) ∧
      (x.trig = 0 → s.main.pwr.force = true ∨ s.main.pwr.d3hot = true → exec (.trvStart ch) s =
        .next (s.modChan ch fun x => { x with startHeld := some x.head }).noticeCheck.chansSettle) ∧
      (x.trig ≠ 0 → exec (.trvStart ch) s = .next (s.modChan ch fun x => { x with state := .armed }).noticeCheck.chansSettle)) ∧
    (∀ who head sel spec, let y := (s.chainStart ch who head sel spec).chan ch
      y.state = .running ∧ y.starter = who ∧ y.descCount = 0 ∧ y.crc = 0xFFFFFFFF ∧ y.crcActive = sel ∧ y.wantFetch = true ∧
      y.descAddr = head.setWidth 40 ∧ y.gen = (s.ctx x.ownCtx).gen ∧ y.bytes = x.bytes ∧ y.ownCtx = x.ownCtx) ∧
    exec (.trvPause ch) s = .next (s.modChan ch fun x => { x with pause := true }) ∧
    (x.pause = false → x.cancelling = false → exec (.paused ch) s = .next s) ∧
    (x.pause = true ∨ x.cancelling = true → let v := s.until fun v => v.chanDrained ch
      (v.chanDrained ch = false → exec (.paused ch) s = .next v) ∧
      (v.chanDrained ch = true → (v.chan ch).cancelling = true → exec (.paused ch) s = .next (v.cancelDone ch).chansSettle) ∧
      (v.chanDrained ch = true → (v.chan ch).cancelling = false →
        exec (.paused ch) s = .next (v.modChan ch fun x => { x with paused := true }))) ∧
    (∀ p : State → Bool, p s = true → s.until p = s) ∧
    (∀ t, s.cancelDone ch = t → (t.chan ch).state = .idle ∧ (t.chan ch).cancelled = true ∧ (t.chan ch).cur = none ∧
      (∀ k, k ≠ ch → t.chan k = s.chan k)) ∧
    ((x.cur.all fun a => !a.needTick || x.pendCount == 0) = true → exec (.trvResume ch) s =
      .next (((s.modChan ch fun x => { x with pause := false, paused := false }).pumpNand.chanStreams.peerStep ch)).chansSettle) ∧
    (x.state = .armed → exec (.trvCancel ch) s = .next (s.cancelDone ch).chansSettle) ∧
    (x.state = .running → x.starter = .driver → (s.chanDrained ch = true → exec (.trvCancel ch) s = .next (s.cancelDone ch).chansSettle) ∧
      (s.chanDrained ch = false → exec (.trvCancel ch) s = .next (s.modChan ch fun x => { x with cancelling := true }))) ∧
    (x.state = .running → x.starter ≠ .driver → exec (.trvCancel ch) s = .next (s.modChan ch fun x => { x with cancelRefused := true })) ∧
    (free → exec (.trvCancel ch) s = .next (s.modChan ch fun x => { x with startHeld := none })) ∧
    (free → x.pendKick = none → x.classify = none → x.startHeld = none →
      exec (.trvChnOwner ch c valid) s = .next (s.modChan ch fun x => { x with ownCtx := c, ownValid := valid })) ∧
    (¬ free ∨ x.pendKick ≠ none ∨ x.classify ≠ none ∨ x.startHeld ≠ none → exec (.trvChnOwner ch c valid) s = .next (s.modChan ch fun x => { x with ownerBusy := true })) ∧
    exec (.trvChnCommit ch) s = .next (s.modChan ch fun x => { x with fmt := { x.fmt with pending := some x.fmt.staging } }) ∧
    (x.trig = 1 ∨ x.how = 1 → x.tsel = g → x.state = .armed ∨ x.state = .running → x.cur = none → s.tickChan g ch =
      s.modChan ch fun x => if x.pendCount = 15 then { x with overrun := true } else { x with pendCount := x.pendCount + 1 }) ∧
    ((x.trig ≠ 1 ∧ x.how ≠ 1) ∨ x.tsel ≠ g → s.tickChan g ch = s)

/-- R225, R228, R231 to R236, R239, R245 to R247, R250: a fetched descriptor is checked before it moves a byte; data that was
read enters the holding buffer in the order of the stream, and a write moves it to the destination and no other byte changes; a
failed access is tried again and then halts; the end of a descriptor; a kick. The model's choices: log entries 1, 4, 54, 55 and
87 (1: a command whose condition does not hold changes nothing; 55: an event of the engine shows that the fabric clocks until it
was possible have passed). -/
def Obligations.ChannelWork : Prop :=
  ∀ (ch : Fin 16) (s : State), s.serving = true → let x := s.chan ch
    let st := x.starter.station
    (x.classify = none → x.state = .running → x.wantFetch = true → 2 ≤ x.fetchBeats → ∀ reply,
      (∀ d, s.descAt x.descAddr.toNat reply = some d →
        exec (.traverseDescriptorFetch ch reply) s = .next (s.loadDesc ch d).chanStreams.chansSettle) ∧
      (s.descAt x.descAddr.toNat reply = none → exec (.traverseDescriptorFetch ch reply) s = .next s)) ∧
    (∀ d, let t := s.modChan ch fun x =>
        { x with fmt := x.fmt.activate, wantFetch := false, fetchBeats := 0, descCount := x.descCount + 1, retries := 0 }
      let f := (t.chan ch).fmt.active
      (∀ b, t.descBad ch d f = some b → s.loadDesc ch d = t.chanHalt ch stBadDescriptor (haltDetail ch 4 st b) none) ∧
      (t.descBad ch d f = none → ∀ e, t.descBound ch st d f = some e → s.loadDesc ch d = t.chanHalt ch stBoundFault e none) ∧
      (t.descBad ch d f = none → t.descBound ch st d f = none →
        (x.spec = none ∨ t.dstSpec ch d = true → s.loadDesc ch d = (t.beginDesc ch d f).goDesc ch) ∧
        (x.spec ≠ none → t.dstSpec ch d = false → s.loadDesc ch d = t.chanHalt ch stSpecViolation (specDetail d st) none))) ∧
    (∀ a r rest gen data, x.cur = some a → a.reads = r :: rest → r.dead = false → a.srcPeer = none → x.state = .running →
      r.index = true ∨ a.got.length + r.len ≤ 64 → gen = (s.ctx x.ownCtx).gen →
      (s.place r.addr r.len = none → exec (.traverseReadCompletion (.chan ch) gen data) s = .next s.chansSettle) ∧
      (s.place r.addr r.len ≠ none → exec (.traverseReadCompletion (.chan ch) gen data) s = .next (s.nextStamp.modChan ch fun x =>
        { x with retries := 0 }.withCur (a.gotRead r (s.overlapped a r.addr (s.readAt r.addr r.len data)))).chansSettle)) ∧
    (∀ gen data, let v := s.until fun v => (v.readDue ch).isSome
      gen ≠ (v.ctx (v.chan ch).ownCtx).gen → exec (.traverseReadCompletion (.chan ch) gen data) s =
        .next (v.modCtx (v.chan ch).ownCtx fun c => { c with staleDrops := c.staleDrops + 1 }).chansSettle) ∧
    (∀ (a : Active) (r : TrvRead) (bs : List Byte), let b := a.gotRead r bs
      b.reads = a.reads.drop 1 ∧ (r.index = true → b.got = a.got ∧ b.out = a.out ∧ b.idxs = a.idxs ++ idxWords (r.len / 4) bs) ∧
      (r.index = false → b.idxs = a.idxs ∧ (a.fmt.pack = false → b.out ++ b.got = a.out ++ a.got ++ bs))) ∧
    (s.memWf = true → ∀ a k, a.dstPeer = none → s.place a.dstNext a.out.length = some (.shm k) → a.out ≠ [] → let n := a.out.length
      let u := s.writeOut ch a
      u.main.shm.mem.readBytes k n = a.out ∧ (∀ i, (i < k ∨ k + n ≤ i) → u.main.shm.mem.read i = s.main.shm.mem.read i) ∧
      (∀ m, (u.station m).mem = (s.station m).mem) ∧ (u.chan ch).bytes = x.bytes + BitVec.ofNat 64 n ∧
      (u.chan ch).crc = if x.crcActive = 0 then x.crc else crcRun x.crcActive.toNat x.crc a.out) ∧
    (∀ c, s.access ch = some c → s.accessFails c = true →
      exec (.accessFail (.chan ch)) s = .next (((s.chanFail ch).chansSettle.until (State.noDead ch)).chansSettle)) ∧
    (∀ c, x.classify = none → s.access ch = some c → s.accessFails c = true →
      (c.code = 2 → x.retries < s.main.trvRetry.toNat → s.chanFail ch = s.modChan ch fun x => { x with retries := x.retries + 1 }) ∧
      (c.code = 2 → s.main.trvRetry.toNat ≤ x.retries →
        s.chanFail ch = s.chanHalt ch stBusError (haltDetail ch 2 st 0) (some (BitVec.ofNat 48 c.adr))) ∧
      (c.code = 1 → x.wrRetries < s.main.trvRetry.toNat → s.chanFail ch = s.modChan ch fun x => { x with wrRetries := x.wrRetries + 1 }) ∧
      (c.code = 1 → s.main.trvRetry.toNat ≤ x.wrRetries →
        s.chanFail ch = s.chanHalt ch stBusError (haltDetail ch 1 st 0) (some (errAddrOf c.adr c.peer))) ∧
      (c.code = 0 ∨ c.code = 3 → x.retries < s.main.trvRetry.toNat →
        s.chanFail ch = s.modChan ch fun x => { x with retries := x.retries + 1 }) ∧
      (c.code = 0 ∨ c.code = 3 → s.main.trvRetry.toNat ≤ x.retries → ∀ a r rest, x.cur = some a → a.reads = r :: rest →
        s.chanFail ch = s.modChan ch fun x => x.withCur { a with reads := { r with dead := true } :: rest })) ∧
    (∀ a r rest, x.cur = some a → a.reads = r :: rest → r.dead = true → a.got = [] → a.out = [] → x.state = .running →
      x.wantFetch = false → a.done = false → a.kind ≠ 4 → s.chanNext ch = some (s.chanHalt ch stBusError
        (haltDetail ch (if r.index then 3 else 0) st 0) (some (errAddrOf r.addr a.srcPeer)))) ∧
    (∀ status detail adr, let y := (s.chanHalt ch status detail adr).chan ch
      x.starter = .driver → y.state = .halted ∧ y.lastStatus = status ∧ y.errDetail = detail ∧ y.cur = none ∧ y.wantFetch = false) ∧
    (∀ a, x.cur = some a → x.state = .running → x.cancelling = false → a.done = true → x.spec = none →
      exec (.descriptorEnd ch) s = .next ((s.descSignals ch a).descNext ch a).chansSettle ∧
      (dSig a.raw = true → dIrq a.raw = false → a.dstPeer = none → s.descSignals ch a = s.setMark (dMark a.raw) (s.main.marks[dMark a.raw] + 1)) ∧
      (dSig a.raw = false → dIrq a.raw = false → s.descSignals ch a = s) ∧
      (a.last = false → x.descCount.toNat < s.main.chainLimit.toNat →
        s.descNext ch a = s.modChan ch fun x => { x with cur := none, wantFetch := true, descAddr := dNext a.raw }) ∧
      (a.last = false → s.main.chainLimit.toNat ≤ x.descCount.toNat →
        s.descNext ch a = s.chanHalt ch stChainLimit (haltDetail ch 4 st 0) none) ∧
      (a.last = true → s.descNext ch a = s.chanEnd ch)) ∧
    (let y := (s.chanEnd ch).chan ch
     x.starter = .driver → y.state = (if x.rearm = true ∧ x.how ≠ 0 then .armed else .idle) ∧ y.lastStatus = stOk ∧ y.cur = none) ∧
    (∀ a, let v := s.until fun v => (v.chan ch).cur.all Active.done
      (v.chan ch).cur = some a → a.done = false ∨ (v.chan ch).cancelling = true → exec (.descriptorEnd ch) s = .next v) ∧
    (∀ n k rest, (s.station n).kicks = k :: rest → k.ch = ch → x.pendKick = none → x.classify = none →
      ((s.station n).writesBefore k.seq = true → exec (.kick n) s =
        .next ((((s.kickArrive n k).modStation n fun t => { t with kicks := rest }).chansSettle).settle n)) ∧
      ((s.station n).writesBefore k.seq = false → exec (.kick n) s = .next s) ∧
      (k.epoch = none → x.ownValid = false ∨ x.ownCtx ≠ (s.station n).ctx → s.kickArrive n k = s) ∧
      (k.epoch = none → x.ownValid = true → x.ownCtx = (s.station n).ctx → ∃ p, (p.head = k.head ∧ p.station = n ∧ p.epoch = none) ∧
        s.kickArrive n k = s.nextStamp.modChan ch fun x => { x with pendKick := some p })) ∧
    crcRun 1 0xFFFFFFFF [0x31, 0x32, 0x33, 0x34, 0x35, 0x36, 0x37, 0x38, 0x39] ^^^ 0xFFFFFFFF = 0xE3069283 ∧
    crcRun 2 0xFFFFFFFF [0x31, 0x32, 0x33, 0x34, 0x35, 0x36, 0x37, 0x38, 0x39] ^^^ 0xFFFFFFFF = 0xCBF43926

/-! ## NAND -/

/-- R197, R201, R204 to R219, R362: which command a channel bus carries and which operation starts, what it writes to the die,
its status, the decoding of its codewords with the ladder and the counters, its end, its timeout, the write protection of block
0 of LUN 0, and the staged set. The model's choices: log entries 1, 2, 4, 50, 51, 52 and 91 (1: a command whose condition does
not hold changes nothing). -/
def Obligations.NandOperations : Prop :=
  ∀ (u : Fin 32) (s : State), s.serving = true → let n := s.main.nfc
    let l := s.lun u
    let bus := u.val % 4
    (s.nandMayStart = false → s.busCommand bus = none) ∧
    (∀ v o, s.busCommand bus = some (v, o) → v.val % 4 = bus ∧ s.nextCommand v = some o ∧
      ∀ w o', w.val % 4 = bus → s.nextCommand w = some o' → o'.before o = false) ∧
    (∀ a b : NandOp, a.before b = true ↔
      let spec := fun (o : NandOp) => o.spec ≠ none ∧ o.owner ≠ .ctrl
      (¬ spec a ∧ spec b) ∨ ((spec a ↔ spec b) ∧ a.arrived < b.arrived)) ∧
    ((∀ o, s.busCommand bus ≠ some (u, o)) → exec (.nandOperationStart u) s = .next s) ∧
    (∀ o, s.busCommand bus = some (u, o) →
      (o.kind = .reset → exec (.nandOperationStart u) s = .next (s.startReset u o)) ∧
      (o.kind ≠ .reset → o.owner = .ctrl → exec (.nandOperationStart u) s = .next (s.startSetup u o)) ∧
      (o.kind ≠ .reset → o.owner ≠ .ctrl →
        let guarded := o.writes = true ∧ u = 0 ∧ o.block = 0 ∧ n.bootWrite = false
        let q := leaveQueue l.queue o
        let c : InFlight := { op := o, pair := pairOf q o }
        (guarded → exec (.nandOperationStart u) s = .next ((s.modLun u fun l => { l with queue := q }).opEnded o
          (some (stBusError, nandDetail u.val 5 (n.opRow o)))).nandSettle) ∧
        (¬ guarded → exec (.nandOperationStart u) s = .next ((c.ops.foldl (fun s o => s.writeDie u o)
          (s.modLun u fun l => { l with cur := some c, queue := c.pair.elim q (leaveQueue q) })).send u (c.cycles n)).nandSettle))) ∧
    (∀ o : NandOp, o.writes = false → s.writeDie u o = s) ∧
    (∀ q o p, pairOf q o = some p → p ∈ q ∧ p.kind = o.kind ∧ p.seq = o.seq ∧ p.page = o.page ∧ p.block = o.block ^^^ 1 ∧
      o.mp = true ∧ p.mp = true) ∧
    (∀ o, let v := s.startReset u o
      (v.lun u).cur = some { op := o } ∧ (v.lun u).resetPend = false ∧ (v.lun (lunMate u)).resetPend = false ∧
      (∀ c, (s.lun (lunMate u)).cur = some c → c.op.kind = .read → c.ignored = false → c.decodedAll n = false →
        (v.lun (lunMate u)).cur = some { c with ready := false, moved := false, tried := 0, again := true })) ∧
    (∀ (a o : NandOp) (q : List NandOp), a.writes = true → o.kind = .read →
      (pickOp (a :: q) = some o → o.block ≠ a.block) ∧ (64 ≤ a.overtaken → pickOp (a :: q) = some a) ∧
      (a.overtaken < 64 → o.spec = none → o.block ≠ a.block → pickOp [a, o] = some o) ∧ (o.block = a.block → pickOp [a, o] = some a) ∧
      (∀ p ∈ leaveQueue (a :: q) a, p.overtaken = 0) ∧ leaveQueue [a, o] o = [{ a with overtaken := a.overtaken + 1 }]) ∧
    (s.nand.wf = true → ∀ o, o.kind = .program → let img := pageImage n u.val (n.row o.block o.page) o.profile.val (s.programData o)
      (s.writeDie u o).flash u.val (n.row o.block o.page) 0 img.length = img ∧
      ∀ a, (a < nandKey u.val (n.row o.block o.page) ∨ nandKey u.val (n.row o.block o.page) + img.length ≤ a) →
        (s.writeDie u o).nand.read a = s.nand.read a) ∧
    (s.nand.wf = true → ∀ o, o.kind = .erase → ∀ a < 2 ^ 15 * 2 ^ n.pageBits.toNat,
      (s.writeDie u o).nand.read (nandKey u.val (n.row o.block 0) + a) = 0) ∧
    (∀ ready fail c, l.cur = some c → let sent := s.send u [.command 0x78, .row (n.opRow c.op)]
      (c.ready = true ∨ c.again = true → exec (.statusPoll u ready fail) s = .next s) ∧
      (c.ready = false → c.again = false →
        (ready = false → exec (.statusPoll u ready fail) s = .next sent) ∧
        (ready = true → c.ignored = true → l.resetPend = false →
          exec (.statusPoll u ready fail) s = .next (sent.modLun u fun l => { l with cur := none }).nandSettle) ∧
        (ready = true → c.ignored = false → c.phase = .setting → exec (.statusPoll u ready fail) s =
          .next ((sent.modLun u fun l => { l with cur := some { c with phase := .page } }).send u (c.op.cycles n true))) ∧
        (ready = true → c.ignored = false → c.phase = .restoring → exec (.statusPoll u ready fail) s =
          .next (sent.modLun u fun l => { l with cur := some { c with ready := true, phase := .restored } })) ∧
        (ready = true → c.ignored = false → c.phase = .page → exec (.statusPoll u ready fail) s =
          .next (sent.modLun u fun l => { l with cur := some { c with ready := true, fail := fail } }).flrCheck))) ∧
    (∀ c k bits, l.cur = some c → c.op.kind = .read → c.phase = .page → c.ready = true → c.ignored = false → c.op.raw = false →
      c.decodedAll n = false → c.op.cwFirst ≤ k.val → k.val ≤ c.op.cwLast → c.decoded.getLsbD k.val = false →
      c.tried.getLsbD k.val = false → s.readStale c.op = false → s.mayMove u c = true →
      let row := n.row c.op.block c.op.page
      let t := s.beginMove u c
      let c := { c with moved := true }
      let erased := c.ladder = 0 ∧ s.cwErased u.val row k.val c.op.profile.val = true
      (erased → exec (.codewordDecode u k (.corrected bits)) s = .next (((t.modNfc fun n => { n with counts := upd n.counts 4 (· + 1) }).setRead u
        { c with decoded := setBit c.decoded k.val true }).ladderStep u)) ∧
      (¬ erased → s.metaOk u.val row k.val c.op.profile.val = true → exec (.codewordDecode u k (.corrected bits)) s =
        .next (((t.modNfc fun n => { n with
          counts := upd n.counts (if c.ladder = 0 then 0 else if c.ladder ≤ n.softCount then 1 else 2) (· + 1)
          hist := upd n.hist (n.bin bits.toNat) (· + 1) }).setRead u { c with decoded := setBit c.decoded k.val true }).ladderStep u)) ∧
      (¬ erased → exec (.codewordDecode u k .fails) s = .next ((t.setRead u { c with tried := setBit c.tried k.val true }).ladderStep u))) ∧
    (∀ c, l.cur = some c → let left := c.op.wanted.filter fun k => !c.decoded.getLsbD k.val
      (left = [] → s.ladderStep u = if c.applied n then s.restoreSet u c else s.setRead u c) ∧
      (left ≠ [] → (∃ k ∈ left, c.tried.getLsbD k.val = false) → s.ladderStep u = s) ∧
      (left ≠ [] → (∀ k ∈ left, c.tried.getLsbD k.val = true) → c.ladder < n.softCount + n.retryCount →
        s.ladderStep u = (s.setRead u { c with ladder := c.ladder + 1, phase := .setting, tried := 0, ready := false, moved := false }).send u
          (setCycles (n.stepSet (c.ladder + 1))))) ∧
    (∀ c data, l.cur = some c → c.ready = true → c.ignored = false → let detail := fun x => nandDetail u.val x (n.opRow c.op)
      (c.op.kind = .program ∨ c.op.kind = .erase → c.fail = false → exec (.nandOperationEnd u data) s = .next (s.endOp u c none)) ∧
      (c.op.kind = .program ∨ c.op.kind = .erase → c.fail = true → exec (.nandOperationEnd u data) s =
        .next ((s.spoil u.val c.op).endOp u c (some (stBusError, detail (nandClass c.op.kind))))) ∧
      (c.op.kind = .read → s.readStale c.op = false → c.decodedAll n = false → exec (.nandOperationEnd u data) s = .next s) ∧
      (c.op.kind = .read → s.readStale c.op = false → c.decodedAll n = true → c.op.raw = false ∨ s.mayMove u c = true →
        (c.applied n = true → c.phase ≠ .restored → exec (.nandOperationEnd u data) s = .next (s.restoreSet u c)) ∧
        (c.applied n = false ∨ c.phase = .restored → exec (.nandOperationEnd u data) s = .next
          (((s.nandData c.op (s.deliverPage u c)).nextStamp).endOp u c (c.uncorr.map fun k => (stEcc, detail k.val))))) ∧
      (c.op.kind = .setFeatures → c.op.owner ≠ .ctrl → exec (.nandOperationEnd u data) s = .next (s.endOp u c none)) ∧
      (c.op.kind = .setFeatures → c.op.owner = .ctrl → exec (.nandOperationEnd u data) s = .next ((s.setupDone u).endOp u c none)) ∧
      (c.op.kind = .getFeatures → exec (.nandOperationEnd u data) s = .next ((s.nandData c.op (padTo 4 data)).endOp u c none)) ∧
      (c.op.kind = .readParam → data = [] → exec (.nandOperationEnd u data) s = .next (s.endOp u c (some (stBusError, detail 3)))) ∧
      (c.op.kind = .readParam → data ≠ [] → exec (.nandOperationEnd u data) s = .next ((s.nandData c.op (padTo 256 data)).endOp u c none)) ∧
      (c.op.kind = .reset → exec (.nandOperationEnd u data) s =
        .next (((s.modLun u fun l => { l with setup := true }).modLun (lunMate u) fun l => { l with setup := true }).endOp u c none))) ∧
    (∀ c, l.cur = some c → c.ready = false → c.again = false →
      (c.op.kind = .reset → exec (.nandTimeout u) s = .next (s.loseTarget u c.op).nandSettle) ∧
      (c.op.kind ≠ .reset → c.ignored = false →
        let marked := if c.op.writes then c.ops.foldl (fun s o => (s.suspect u o stTimeoutNand).spoil u.val o) s else s
        exec (.nandTimeout u) s = .next (c.ops.foldl (fun s o =>
            s.opEnded o (some (stTimeoutNand, nandDetail u.val (nandClass o.kind) (s.main.nfc.opRow o))))
          (marked.modLun u fun l => { l.needReset c.op with cur := some { c with ignored := true } })).nandSettle)) ∧
    (l.needReset { kind := .read, owner := .ctrl, ctx := 0, gen := 0 }).resetPend = true ∧
    (∃ t, exec .nfcCommit s = .next t ∧ t = { s with main := { s.main with nfc := { n with cfg := { n.cfg with pending := t.main.nfc.cfg.pending } } } } ∧
      ∃ p, t.main.nfc.cfg.pending = some p ∧ p = { n.cfg.staging with prof := p.prof } ∧
        ∀ k : Fin 16, p.prof[k] = if n.pageBytes < profCpp n.cfg.staging.prof[k] * profWords n.cfg.staging.prof[k] ∨ 47 < field n.cfg.staging.prof[k] 5 0
          then n.cfg.staging.prof[k] &&& ~~~0x700 else n.cfg.staging.prof[k]) ∧
    (∀ p, n.cfg.pending = some p → (∀ v : Fin 32, ∀ c, (s.lun v).cur = some c → c.op.writes = true ∨ c.ignored = true ∨ c.again = true) →
      exec .nfcSetActivate s = .next (s.modNfc fun n => { n with cfg := { n.cfg with active := p, pending := none } })) ∧
    (∀ c, l.cur = some c → c.op.writes = false → c.ignored = false → c.again = false → exec .nfcSetActivate s = .next s)

/-! ## The link -/

/-- R255, R256: a message as bytes reads back as that message, with every field that its operation has at every value; and a
header with a reserved OP, or with a bit set that is reserved in every operation or in the one that it names, is refused. The
model's reading: log entry 83. -/
def Obligations.LinkMessagesReadBack : Prop :=
  (∀ m : Msg, m.data.length = dataLen m.op m.len → ∃ r, msgOf (msgBytes m) = some r ∧ msgLength (msgBytes m) = (msgBytes m).length ∧
    r.op = m.op ∧ r.src = m.src ∧ r.dst = m.dst ∧ r.job = m.job ∧ r.gen = m.gen ∧ r.data = m.data ∧
    (m.op = .write ∨ m.op = .read ∨ m.op = .readResp → r.len = m.len) ∧ (m.op = .write → r.ch = m.ch) ∧
    (m.op ∈ [MsgOp.read, .flush, .readResp, .flushAck, .errResp] → r.tag = m.tag) ∧ (m.op = .markAdd → r.mark = m.mark) ∧
    (m.op = .flushAck → r.refused = m.refused) ∧ (m.op ≠ .abort → r.off = m.off) ∧
    (m.op = .abort → r.origin = m.origin ∧ r.aseq = m.aseq)) ∧
  ∀ bs : List Byte, (bs.getD 0 0 = 0 ∨ 10 ≤ (bs.getD 0 0).toNat) ∨ (bs.getD 13 0 ≠ 0 ∨ bs.getD 14 0 ≠ 0 ∨ bs.getD 15 0 ≠ 0) ∨
    64 ≤ (bs.getD 1 0).toNat ∨ (bs.getD 0 0 = 1 ∧ 16 ≤ (bs.getD 5 0).toNat) ∨
    (bs.getD 0 0 = 8 ∧ (8 ≤ (bs.getD 8 0).toNat ∨ bs.getD 10 0 ≠ 0 ∨ bs.getD 11 0 ≠ 0)) → msgOf bs = none

/-- R254, R260, R265 to R269: what each message does at its target, and that another chip's goes on through the port of the
route, or is dropped and counted; a refused write is counted and noted; the messages that answer a channel; ABORT; HELLO. The
model's choices: log entries 1, 2, 56, 84 and 90 (1: a command whose condition does not hold changes nothing). -/
def Obligations.LinkMessages : Prop :=
  ∀ (p : Fin 2) (m : Msg) (tag : Fin 64) (s : State), s.stationsOn = true →
    let rows : List (MsgOp × (Fin 2 → Msg → Instr)) := [(.write, .write), (.read, .read), (.flush, .flush), (.readResp, .readResp),
      (.flushAck, .flushAck), (.errResp, .errResp)]
    ((s.port p).state ≠ 2 → (∀ row ∈ rows, exec (row.2 p m) s = .next s) ∧ exec (.markAdd p m) s = .next s ∧ exec (.abort p m) s = .next s) ∧
    ((s.port p).state = 2 → m.dst ≠ s.chipId → ∀ row ∈ rows,
      (∀ r, s.routeOf m.dst = some r → exec (row.2 p m) s = .next (s.sendOn r { m with op := row.1 }).linkSettle) ∧
      (s.routeOf m.dst = none → exec (row.2 p m) s = .next (s.modPort p fun x => { x with cntBad := x.cntBad + 1 }).linkSettle)) ∧
    ((s.port p).state = 2 → m.dst = s.chipId →
      let refused := s.main.link.refusedNotes.find? fun x => x.1 == m.src && x.2.1 == m.ch
      (∀ c, s.jobCtx m.job = some c → let b := s.bound c
        let inside := m.off.toNat + m.len.toNat + 1 ≤ b.bound.toNat
        (inside → b.rights.getLsbD 1 = true → exec (.write p m) s =
          .next (s.spaceWrite .shm (b.base.toNat + m.off.toNat) (padTo (m.len.toNat + 1) m.data)).linkSettle) ∧
        (¬ inside ∨ b.rights.getLsbD 1 = false → exec (.write p m) s = .next (s.refuse m.src m.ch m.off).linkSettle) ∧
        (inside → b.rights.getLsbD 0 = true → exec (.read p m) s = .next (s.sendMsg
          { op := .readResp, src := s.chipId, dst := m.src, job := m.job, gen := m.gen, tag := m.tag, ch := m.ch, len := m.len,
            data := s.spaceRead .shm (b.base.toNat + m.off.toNat) (m.len.toNat + 1) }).linkSettle) ∧
        (¬ inside ∨ b.rights.getLsbD 0 = false → exec (.read p m) s = .next (s.sendMsg
          { op := .errResp, src := s.chipId, dst := m.src, job := m.job, gen := m.gen, tag := m.tag, ch := m.ch }).linkSettle) ∧
        exec (.markAdd p m) s = .next (s.setMark m.mark (s.main.marks[m.mark] + 1)).linkSettle ∧
        (refused = none → exec (.flush p m) s = .next (s.sendMsg
          { op := .flushAck, src := s.chipId, dst := m.src, job := m.job, gen := m.gen, tag := m.tag, ch := m.ch }).linkSettle)) ∧
      (∀ note, refused = some note → exec (.flush p m) s =
        .next ((s.modLink fun l => { l with refusedNotes := l.refusedNotes.erase note }).sendMsg
          { op := .flushAck, src := s.chipId, dst := m.src, job := m.job, gen := m.gen, tag := m.tag, ch := m.ch,
            refused := true, off := note.2.2 }).linkSettle) ∧
      (s.jobCtx m.job = none → exec (.write p m) s = .next (s.refuse m.src m.ch m.off).linkSettle ∧
        exec (.markAdd p m) s = .next (s.refuse m.src 0 m.off).linkSettle ∧
        let answer := (s.sendMsg
          { op := .errResp, src := s.chipId, dst := m.src, job := m.job, gen := m.gen, tag := m.tag, ch := m.ch }).linkSettle
        exec (.read p m) s = .next answer ∧ (refused = none → exec (.flush p m) s = .next answer)) ∧
      (∀ src ch off, (s.refuse src ch off).main.link.cntRefused = s.main.link.cntRefused + 1 ∧
        (s.refuse src ch off).main.link.irqStat = s.main.link.irqStat ||| 8 ∧
        ((∀ x ∈ s.main.link.refusedNotes, ¬ (x.1 = src ∧ x.2.1 = ch)) →
          (s.refuse src ch off).main.link.refusedNotes = s.main.link.refusedNotes ++ [(src, ch, off)])) ∧
      (∀ row ∈ [Instr.readResp, .flushAck, .errResp], (∀ t, s.main.link.tags[m.tag] = some t → m.gen ≠ t.gen) →
        exec (row p m) s = .next (s.lostTag m.tag m.gen).linkSettle) ∧
      ((∀ x ∈ s.main.link.lost, ¬ (x.1 = m.tag ∧ x.2.2 = m.gen)) → s.lostTag m.tag m.gen = s) ∧
      (∀ t, s.main.link.tags[m.tag] = some t → m.gen = t.gen → let v := s.setTag m.tag none
        (t.gen ≠ (s.ctx t.ctx).gen → ∀ row ∈ [Instr.readResp, .flushAck, .errResp], exec (row p m) s =
          .next (v.modCtx t.ctx fun x => { x with staleDrops := x.staleDrops + 1 }).linkSettle) ∧
        ∀ a, t.gen = (s.ctx t.ctx).gen → (s.chan t.ch).cur = some a → (s.chan t.ch).state = .running → a.awaits m.tag = true →
          (t.isFlush = false → exec (.readResp p m) s = .next (v.modChan t.ch fun x => { x with retries := 0 }.withCur
            (Active.takeReplies a.reads.length { a with reads := setReply m.tag m.data a.reads })).linkSettle) ∧
          (t.isFlush = true → m.refused = false → exec (.flushAck p m) s =
            .next (v.modChan t.ch fun x => x.withCur { a with tag := none, done := true, flushing := false }).linkSettle) ∧
          (t.isFlush = true → m.refused = true → exec (.flushAck p m) s = .next (v.chanHalt t.ch stBusError
            (haltDetail t.ch 1 (s.chan t.ch).starter.station 0) (some (errAddrOf m.off.toNat a.dstPeer))).linkSettle) ∧
          exec (.errResp p m) s = .next (State.tagFails m.tag v t a).linkSettle)) ∧
    (∀ t a, t.isFlush = false → State.tagFails tag s t a =
      if (s.chan t.ch).retries < s.main.trvRetry.toNat
      then s.modChan t.ch fun x => { x with retries := x.retries + 1 }.withCur { a with reads := loseReply tag false a.reads }
      else s.modChan t.ch fun x => x.withCur { a with reads := loseReply tag true a.reads }) ∧
    (∀ t a, s.main.link.tags[tag] = some t → (s.chan t.ch).cur = some a → (s.chan t.ch).state = .running → a.awaits tag = true →
      exec (.responseTimeout tag) s = .next (State.tagFails tag (s.setTag tag none) t a).linkSettle) ∧
    (s.main.link.tags[tag] = none → exec (.responseTimeout tag) s = .next s) ∧
    ((s.port p).state = 2 → m.origin = s.chipId ∨ (m.origin, m.aseq) ∈ s.main.link.seen → exec (.abort p m) s = .next s.linkSettle) ∧
    ((s.port p).state = 2 → m.origin ≠ s.chipId → (m.origin, m.aseq) ∉ s.main.link.seen →
      let noted := (s.modLink fun l => { l with
        abortLog := abortWord m ((s.jobCtx m.job).filter fun c => (s.ctx c).reset.isNone).isSome
        seen := (m.origin, m.aseq) :: l.seen.filter fun x => x.1 != m.origin }).linkEvent 4
      let forwarded := noted.sendOn (1 - p) { m with op := .abort }
      (∀ c, s.jobCtx m.job = some c → (s.ctx c).reset = none → exec (.abort p m) s = .next (forwarded.triggerReset c 2).linkSettle) ∧
      (s.jobCtx m.job = none → exec (.abort p m) s = .next forwarded.linkSettle)) ∧
    ((s.port p).state = 1 → (s.port p).trained = true →
      (m.src ≠ s.chipId → exec (.hello p m) s = .next (s.modPort p fun x => { x with state := 2, neighbour := m.src, idConflict := false }).linkSettle) ∧
      (m.src = s.chipId → exec (.hello p m) s = .next ((s.modPort p fun x =>
        { x.restart with state := 0, trained := false, cause := 5, idConflict := true }).linkEvent 16).linkSettle))

/-- R254, R255, R257, R258, R262, R263, R270: flits that are good, bad or out of order; NAKs, ACKs and silence; training and
RETRAIN; a port that goes down; the staged routes and bindings. The model's choices: log entries 1, 57 and 90 (1: a command
whose condition does not hold changes nothing). -/
def Obligations.LinkPorts : Prop :=
  ∀ (p : Fin 2) (f : BitVec 512) (ack : BitVec 8) (c : Fin 8) (s : State), s.stationsOn = true → let x := s.port p
    let bs := toBytes f 64
    let good := crc32 (bs.take 60) = word 32 (bs.drop 60)
    let idle := fun (nak : Bool) => flitBytes x.txSeq (x.rxSeq - 1) 3 nak false x.creditReturn.1 x.creditReturn.2 0
    let nakFlit := if x.nakSent then [] else [idle true]
    (x.state = 0 → exec (.flit p f) s = .next s ∧ exec (.nak p ack) s = .next s ∧ exec (.ackInterval p) s = .next s) ∧
    (x.state = 2 →
      (¬ good → ∃ u, exec (.flit p f) s = .next u ∧ u = s.modPort p (fun _ => u.port p) ∧ (u.port p).cntCrc = x.cntCrc + 1 ∧
        (u.port p).nakSent = true ∧ (u.port p).rxSeq = x.rxSeq ∧ (u.port p).wire = x.wire ++ nakFlit) ∧
      (good → bs.getD 0 0 ≠ x.rxSeq → ∃ u, exec (.flit p f) s = .next u ∧ u = s.modPort p (fun _ => u.port p) ∧
        (u.port p).cntCrc = x.cntCrc ∧ (u.port p).nakSent = true ∧ (u.port p).rxSeq = x.rxSeq ∧
        (u.port p).wire = x.wire ++ nakFlit) ∧
      (good → bs.getD 0 0 = x.rxSeq → exec (.flit p f) s = .next (s.takeFlit p bs).linkSettle)) ∧
    (x.state ≠ 0 → (∃ u, exec (.ackInterval p) s = .next u ∧ u = s.modPort p (fun _ => u.port p) ∧
        u.port p = { x.returned with ackDue := 0, ackSent := x.rxSeq - 1, wire := x.wire ++ [idle false] }) ∧
      exec (.nak p ack) s = .next ((((s.modPort p fun x => x.nakSeen ack).pumpAll p).checkNaks p).linkSettle)) ∧
    ((x.nakSeen ack).cntReplay = x.cntReplay + 1 ∧ (x.nakSeen ack).naks = (x.ack ack).naks + 1 ∧
      (x.nakSeen ack).replay = (x.ack ack).replay ∧ (x.nakSeen ack).wire = x.wire ++ (x.ack ack).replay.map SentFlit.bytes ∧
      ((∀ g ∈ x.replay, g.seq ≠ ack) → x.ack ack = x) ∧
      (∀ pre g post, x.replay = pre ++ g :: post → g.seq = ack → (∀ y ∈ pre, y.seq ≠ ack) → x.ack ack = { x with replay := post, naks := 0 })) ∧
    (64 ≤ x.replay.length → ∀ k, State.pumpPort k s p = s) ∧
    (x.state = 2 ∨ x.trained = true → exec (.linkSilence p) s = .next (s.portDown p 2).linkSettle) ∧
    (x.enable = true → exec (.retrain p) s = .next ((s.modPort p fun x => { x.restart with state := 1, trained := false }).cutFrom p)) ∧
    (x.enable = false → exec (.retrain p) s = .next s) ∧
    exec (.portDisable p) s = .next ((s.modPort p fun x => { x with enable := false }).portDown p 4).linkSettle ∧
    (x.state = 1 → x.trained = false → exec (.linkTrainingEnd p none) s = .next (s.portDown p 3).linkSettle ∧
      ∀ w : Fin 3, exec (.linkTrainingEnd p (some w)) s = .next ((s.modPort p fun x =>
        { x with trained := true, width := BitVec.ofNat 2 w.val }).queueMsg p { op := .hello, src := s.chipId, dst := s.chipId })) ∧
    (∀ cause, x.state ≠ 0 → let u := s.portDown p cause
      (u.port p).state = 0 ∧ (u.port p).cause = cause ∧ (u.port p).replay = [] ∧ (u.port p).outReq = [] ∧ (u.port p).rxReq = none ∧
      u.main.link.irqStat = s.main.link.irqStat ||| (if p = 0 then 1 else 2) ∧
      ∀ k, ((s.bound k).valid = true → (s.ctx k).reset = none → (u.ctx k).reset.isSome = true ∧ (u.ctx k).cause = 3) ∧
        ((s.bound k).valid = false → u.ctx k = s.ctx k)) ∧
    exec .oklCommit s = .next (s.modLink fun l => { l with route := ⟨l.route.staging, l.route.staging, none⟩ }) ∧
    exec (.oklCtxCommit c) s = .next ((s.noteWaits c).modBind c fun b => { b with set := { b.set with pending := some b.set.staging } }) ∧
    (∀ b, s.main.link.binds[c].set.pending = some b →
      (s.ctxRuns c = true → exec (.bindingActivate c) s = .next s) ∧
      (s.ctxRuns c = false → let a := b.base.toNat
        let n := b.bound.toNat
        let bad := a % 64 ≠ 0 ∨ n % 64 ≠ 0 ∨ n = 0 ∨ 0x10000000 < a + n ∨ (s.main.shm.split = true ∧ oneGroup a n = false) ∨ s.shmPresent a n = false
        let conflict := ∃ k, k ≠ c ∧ (s.bound k).valid = true ∧ (s.bound k).job = b.job
        ∃ u, exec (.bindingActivate c) s = .next u ∧ let y := u.main.link.binds[c]
          y.set.pending = none ∧ y.set.active = { b with valid := (u.bound c).valid } ∧
          ((u.bound c).valid = true ↔ b.valid = true ∧ ¬ bad ∧ ¬ conflict) ∧
          (y.badBind = true ↔ s.main.link.binds[c].badBind = true ∨ bad) ∧ (y.bindConflict = true ↔ s.main.link.binds[c].bindConflict = true ∨ conflict) ∧
          ∀ k, k ≠ c → u.main.link.binds[k] = s.main.link.binds[k]))

/-! ## Contexts, modes and counters -/

/-- R91, R264, R273 to R276, R283 to R286, R288, R289, R291: what a driver's trigger does, and when it puts the device out of
service; the steps of the context whose turn it is; the bound of the sample and of the drains; the generation, the binding and
the windows. The model's choices: log entries 1, 53 and 61 (1: a command whose condition does not hold changes nothing). -/
def Obligations.ContextResets : Prop :=
  ∀ (c : Fin 8) (s : State), s.serving = true → let x := s.ctx c
    exec (.ctxReset c false) s = .next s ∧
    (x.reset ≠ none ∨ s.main.glb.outOfService = true → exec (.ctxReset c true) s = .next s.noticeCheck) ∧
    (x.reset = none → s.main.glb.outOfService = false → let times := (s.time :: s.main.esc.history).take 15
      let n := times.countP fun t => s.time.toNat ≤ t.toNat + s.main.esc.window.active.toNat * 100000000
      ∃ u, exec (.ctxReset c true) s = .next u ∧ (u.ctx c).reset.isSome = true ∧ (u.ctx c).cause = 1 ∧ (u.ctx c).step = 1 ∧
        (u.ctx c).resets = x.resets + 1 ∧ (∀ q, ∀ j ∈ (u.queue q).jobs, j.ctx = c → j.doomed = true) ∧
        (n < s.main.esc.limit.active.toNat → u.main.resetOrder = s.main.resetOrder ++ [c] ∧ u.main.glb = s.main.glb ∧
          u.main.esc = { s.main.esc with history := times, count := BitVec.ofNat 4 n } ∧ ∀ k, k ≠ c → u.ctx k = s.ctx k) ∧
        (s.main.esc.limit.active.toNat ≤ n → u.main.glb.outOfService = true ∧ u.aon.faultN = true ∧ u.aon.flushing.isSome = true ∧
          u.main.esc.lastCtx = c ∧ u.main.esc.time = s.time ∧
          ∀ k, k ≠ c → (u.ctx k).reset.isSome = true ∧ ((s.ctx k).reset = none → (u.ctx k).cause = 4))) ∧
    (s.main.resetOrder.head? ≠ some c → exec (.contextResetSequence c) s = .next s ∧ exec (.sampleTimeout c) s = .next s ∧
      exec (.revocation c) s = .next s) ∧
    (∀ r, s.main.resetOrder.head? = some c → x.reset = some r →
      exec (.contextResetSequence c) s = .next (s.resetSteps c r) ∧
      (x.step = 1 → r.en = false → s.resetSteps c r = ((s.setStep c 2).resetEpochs c).resetFrom4 c r) ∧
      (x.step = 3 → r.sampling = true → let cut := ((s.modCtx c fun x =>
          { x with sampleErr := true, reset := some { r with sampling := false } }).noteCut c r).resetFrom4 c r
        exec (.sampleTimeout c) s = .next cut ∧ exec (.accessFail (.sample c)) s = .next cut) ∧
      (x.step = 4 → exec (.revocation c) s = .next ((s.revokeStations c).resetFrom5 c r)) ∧
      (x.step = 5 → exec (.revocation c) s = .next ((s.revokeChans c).resetFrom6 c r) ∧
        (∀ (k : Fin 64) use, (s.revokeChans c).main.link.tags[k] = some use → use.ctx ≠ c) ∧
        ∀ ch, (s.chan ch).ownValid = true → (s.chan ch).ownCtx = c → (s.chan ch).state = .running →
          ((s.revokeChans c).chan ch).state = .idle ∧ ((s.revokeChans c).chan ch).ownValid = false) ∧
      (x.step = 6 → exec (.revocation c) s =
        .next ((((s.writesOf c).foldl (fun s u => s.giveUp u (resetStatus r.cause)) s).stopProgramming c).finishReset c r))) ∧
    (((s.nextGen c).ctx c).gen = x.gen + 1 ∧ ((s.nextGen c).bound c).valid = false ∧ (∀ k, k ≠ c → (s.nextGen c).ctx k = s.ctx k)) ∧
    (s.memWf = true → ∀ (t : PTable) (sp : Space) (a : Nat),
      let hit := fun (e : Parcel) => e.valid = true ∧ e.has 4 = false ∧ e.base.toNat ≤ a ∧ a < e.base.toNat + e.bound.toNat ∧
        (match sp with
         | .shm => e.space = 0x1F
         | .station k => s.present k = true ∧ (e.space = 0x1E ∨ e.space.toNat = k.val))
      ((∃ i : Fin 32, hit t[i]) → (s.zeroWindows t).spaceByte sp a = 0) ∧
      ((∀ i : Fin 32, ¬ hit t[i]) → (s.zeroWindows t).spaceByte sp a = s.spaceByte sp a))

/-- R291: a write of CTX_ESC_LIMIT or CTX_ESC_WINDOW changes only its staging copy; CTX_ESC_COMMIT makes the pair active at once
and keeps the history; the next trigger that counts is judged by the new pair. -/
def Obligations.EscalationPairCommits : Prop :=
  ∀ (v : BitVec 32) (c : Fin 8) (s : State), s.serving = true →
    (∀ reply, ∀ a ∈ [0x021000, 0x021004], ∃ u, s.write32 reply a v = u ∧ u.main.esc.limit.active = s.main.esc.limit.active ∧
      u.main.esc.window.active = s.main.esc.window.active ∧ u = s.modEsc fun e => { e with
        limit := { e.limit with staging := u.main.esc.limit.staging }, window := { e.window with staging := u.main.esc.window.staging } }) ∧
    ∃ u, exec .ctxEscCommit s = .next u ∧
      u = s.modEsc (fun e => { e with
        limit := ⟨e.limit.staging, e.limit.staging, none⟩, window := ⟨e.window.staging, e.window.staging, none⟩ }) ∧
      u.main.esc.history = s.main.esc.history ∧
      ((s.ctx c).reset = none → s.main.glb.outOfService = false →
        let n := ((s.time :: s.main.esc.history).take 15).countP fun t =>
          s.time.toNat ≤ t.toNat + s.main.esc.window.staging.toNat * 100000000
        ∃ w, exec (.ctxReset c true) u = .next w ∧
          (w.main.glb.outOfService = true ↔ s.main.esc.limit.staging.toNat ≤ n))

/-- R44, R82, R83, R85, R89, R99, R108, R192, R209, R299: the parcel table's commit and activation; SHM_MODE, accepted only
while the device is idle; and the registers that clear counters, each its own counters and nothing else. The model's choices:
log entries 1, 59, 73 and 89 (1: a command whose condition does not hold changes nothing). -/
def Obligations.TablesModeAndCounters : Prop :=
  ∀ (c : Fin 8) (n : Fin 24) (split : Bool) (s : State), s.serving = true →
    exec (.ctxPtCommit c) s = .next ((s.noteWaits c).modCtx c fun x => { x with table := { x.table with pending := some x.table.staging } }) ∧
    (let u := s.noteWaits c
     u = { s with main := { s.main with queues := u.main.queues } } ∧ (∀ q, { u.queue q with jobs := (s.queue q).jobs } = s.queue q) ∧
     (∀ q, (u.queue q).jobs.map (fun j => { j with waiting := false }) = (s.queue q).jobs.map fun j => { j with waiting := false }) ∧
     ∀ q j, s.job q = some j → j.ctx = c → j.phase = .taken → j.headerBad = none → s.admissible q j = true → s.markOk j = false →
       u.ctxRuns c = true) ∧
    ((s.ctx c).table.pending = none → exec (.parcelTableActivate c) s = .next s) ∧
    (∀ t, (s.ctx c).table.pending = some t →
      (s.ctxRuns c = true → exec (.parcelTableActivate c) s = .next s) ∧
      (s.ctxRuns c = false → ∃ u, exec (.parcelTableActivate c) s = .next u ∧ u = s.modCtx c (fun _ => u.ctx c) ∧
        u.ctx c = { s.ctx c with table := { (s.ctx c).table with active := (u.ctx c).table.active, pending := none }, badEntry := (u.ctx c).badEntry } ∧
        ((u.ctx c).badEntry = true ↔ (s.ctx c).badEntry = true ∨ ∃ i : Fin 32, s.entryBad t[i].bytes ≠ none) ∧
        ∀ i : Fin 32, (u.ctx c).table.active[i] =
          if s.entryBad t[i].bytes = none then t[i] else { t[i] with rights := setBit t[i].rights 7 false })) ∧
    (let allowed := split = true ∨ s.otp.shmGroups = 7
     (s.shmIdle = false ∨ ¬ allowed → exec (.shmMode split) s = .next (s.modShm fun m => { m with modeBusy := true })) ∧
     (s.shmIdle = true → allowed → ∃ u, exec (.shmMode split) s = .next u ∧ u.main.shm.split = split ∧ (∀ k, (u.bound k).valid = false) ∧
       (split = s.main.shm.split → u.main.shm = s.main.shm) ∧ (split ≠ s.main.shm.split → u.main.shm.mem.known = []) ∧
       u.main.stations = s.main.stations ∧ u.main.ctxs = s.main.ctxs)) ∧
    exec .shmCntClear s = .next (s.modShm fun m => { m with conflicts := Vector.replicate 64 0 }) ∧
    (∀ (m : Shm) (active : Fin 29 → Bool) (want : Fin 29 → Option (BitVec 28)), let v := m.bankClock active want
      let bank := fun (a : BitVec 28) => shmBank m.split a.toNat
      let req := fun r => if m.waits[r].isSome then m.waits[r] else if active r then want r else none
      (∀ r, req r = none → v.waits[r] = none) ∧
      (∀ r a, req r = some a → ∃ k a', req k = some a' ∧ bank a' = bank a ∧ v.granted[bank a] = k ∧ v.waits[k] = none ∧
        ∀ k' a', req k' = some a' → bank a' = bank a → k' ≠ k → v.waits[k'] = some a') ∧
      ∀ b : Fin 64, v.conflicts[b] = m.conflicts[b] + BitVec.ofNat 64 ((List.finRange 29).countP fun r => v.waits[r].any fun a => bank a == b)) ∧
    (∀ (t : Station) (trv : Bool) (want : Fin 5 → Option (BitVec 19)), let v := t.bankClock trv want
      let bank := fun (a : BitVec 19) => stnBank a.toNat
      let req := fun e => if t.ports[e].isSome then t.ports[e] else if t.portActive trv e then want e else none
      (∀ e, req e = none → v.ports[e] = none) ∧
      (∀ e a, req e = some a → let first := ∀ d < e, ∀ b, req d = some b → bank b ≠ bank a
        (first → v.ports[e] = none) ∧ (¬ first → v.ports[e] = some a)) ∧
      v = { t with ports := v.ports, conflicts := v.conflicts } ∧
      ∀ (b : Fin 12) (e : Fin 5), v.conflicts.getD (5 * b.val + e.val) 0 =
        t.conflicts.getD (5 * b.val + e.val) 0 + if v.ports[e].any (fun a => bank a == b) then 1 else 0) ∧
    exec .nfcCntClear s = .next (s.modNfc fun n => { n with counts := Vector.replicate 7 0, hist := Vector.replicate 16 0 }) ∧
    exec (.ctxSpecClear c) s = .next (s.modCtx c fun x => { x with suppressed := 0, dropped := 0, commits := 0, discards := 0, cbFull := 0 }) ∧
    (s.main.pwr.state ≠ .hold → s.present n = true →
      exec (.stnCntClear n) s = .next (s.modStation n fun t =>
        { t with conflicts := Vector.replicate 60 0, sbWait := 0, sbFull := 0, boardMax := 0 }) ∧
      exec (.stnExecClear n) s = .next (s.modStation n fun t =>
        { t with retired := 0, busy := 0, regWait := 0, queueFull := 0, syncWait := 0 })) ∧
    (s.main.pwr.state = .hold → exec (.stnCntClear n) s = .next (s.powerEvent 0x10) ∧ exec (.stnExecClear n) s = .next (s.powerEvent 0x10)) ∧
    (s.main.pwr.state ≠ .hold → s.present n = false → exec (.stnCntClear n) s = .next s ∧ exec (.stnExecClear n) s = .next s)
end

