-- ==== Sys2Proof/Laws/State.lean ====
section
/-!
SUPPORT. One lemma per field and update of the state: what each operation that changes one part of the state leaves, and
what it makes of its part. They are rewrite rules for simp, so that no proof unfolds a record update.
-/

namespace Sys2Proof.Machine

/-! ## Entries of a vector -/

/-- The changed entry. -/
@[simp] theorem upd_get_same {α : Type} {n : Nat} (v : Vector α n) (i : Fin n) (f : α → α) :
    (upd v i f)[i] = f v[i] := by simp [upd]

/-- The changed entry, by number. -/
@[simp] theorem upd_get_same_val {α : Type} {n : Nat} (v : Vector α n) (i : Fin n) (f : α → α) :
    (upd v i f)[i.val] = f v[i.val] := by simp [upd]

/-- An entry after a change, whichever it is. -/
theorem upd_get {α : Type} {n : Nat} (v : Vector α n) (i j : Fin n) (f : α → α) :
    (upd v i f)[j] = if i = j then f v[j] else v[j] := by
  by_cases h : i = j
  · subst h; simp [upd]
  · have : i.val ≠ j.val := fun e => h (Fin.ext e)
    simp [upd, h, this]

/-- Another entry. -/
theorem upd_get_ne {α : Type} {n : Nat} (v : Vector α n) {i j : Fin n} (f : α → α) (h : i ≠ j) :
    (upd v i f)[j] = v[j] := by rw [upd_get, if_neg h]

/-- Two changes of one entry. -/
@[simp] theorem upd_upd {α : Type} {n : Nat} (v : Vector α n) (i : Fin n) (f g : α → α) :
    upd (upd v i f) i g = upd v i (fun x => g (f x)) := by simp [upd]

/-! ## The state -/

@[simp] theorem State.modMain_pending (s : State) (f : Main → Main) : (s.modMain f).pending = s.pending := rfl
@[simp] theorem State.modMain_otp (s : State) (f : Main → Main) : (s.modMain f).otp = s.otp := rfl
@[simp] theorem State.modMain_nv (s : State) (f : Main → Main) : (s.modMain f).nv = s.nv := rfl
@[simp] theorem State.modMain_slots (s : State) (f : Main → Main) : (s.modMain f).slots = s.slots := rfl
@[simp] theorem State.modMain_nand (s : State) (f : Main → Main) : (s.modMain f).nand = s.nand := rfl
@[simp] theorem State.modMain_hostMem (s : State) (f : Main → Main) : (s.modMain f).hostMem = s.hostMem := rfl
@[simp] theorem State.modMain_aon (s : State) (f : Main → Main) : (s.modMain f).aon = s.aon := rfl
@[simp] theorem State.modMain_phase (s : State) (f : Main → Main) : (s.modMain f).phase = s.phase := rfl
@[simp] theorem State.modMain_perstLow (s : State) (f : Main → Main) : (s.modMain f).perstLow = s.perstLow := rfl
@[simp] theorem State.modMain_dftHigh (s : State) (f : Main → Main) : (s.modMain f).dftHigh = s.dftHigh := rfl
@[simp] theorem State.modMain_flrWait (s : State) (f : Main → Main) : (s.modMain f).flrWait = s.flrWait := rfl
@[simp] theorem State.modMain_stamp (s : State) (f : Main → Main) : (s.modMain f).stamp = s.stamp := rfl
@[simp] theorem State.modMain_readData (s : State) (f : Main → Main) : (s.modMain f).readData = s.readData := rfl
@[simp] theorem State.modMain_mgtData (s : State) (f : Main → Main) : (s.modMain f).mgtData = s.mgtData := rfl
@[simp] theorem State.modMain_readUr (s : State) (f : Main → Main) : (s.modMain f).readUr = s.readUr := rfl
@[simp] theorem State.modMain_main (s : State) (f : Main → Main) : (s.modMain f).main = f s.main := rfl

@[simp] theorem State.modGlb_pending (s : State) (f : Glb → Glb) : (s.modGlb f).pending = s.pending := rfl
@[simp] theorem State.modGlb_otp (s : State) (f : Glb → Glb) : (s.modGlb f).otp = s.otp := rfl
@[simp] theorem State.modGlb_nv (s : State) (f : Glb → Glb) : (s.modGlb f).nv = s.nv := rfl
@[simp] theorem State.modGlb_slots (s : State) (f : Glb → Glb) : (s.modGlb f).slots = s.slots := rfl
@[simp] theorem State.modGlb_nand (s : State) (f : Glb → Glb) : (s.modGlb f).nand = s.nand := rfl
@[simp] theorem State.modGlb_hostMem (s : State) (f : Glb → Glb) : (s.modGlb f).hostMem = s.hostMem := rfl
@[simp] theorem State.modGlb_aon (s : State) (f : Glb → Glb) : (s.modGlb f).aon = s.aon := rfl
@[simp] theorem State.modGlb_phase (s : State) (f : Glb → Glb) : (s.modGlb f).phase = s.phase := rfl
@[simp] theorem State.modGlb_perstLow (s : State) (f : Glb → Glb) : (s.modGlb f).perstLow = s.perstLow := rfl
@[simp] theorem State.modGlb_dftHigh (s : State) (f : Glb → Glb) : (s.modGlb f).dftHigh = s.dftHigh := rfl
@[simp] theorem State.modGlb_flrWait (s : State) (f : Glb → Glb) : (s.modGlb f).flrWait = s.flrWait := rfl
@[simp] theorem State.modGlb_stamp (s : State) (f : Glb → Glb) : (s.modGlb f).stamp = s.stamp := rfl
@[simp] theorem State.modGlb_readData (s : State) (f : Glb → Glb) : (s.modGlb f).readData = s.readData := rfl
@[simp] theorem State.modGlb_mgtData (s : State) (f : Glb → Glb) : (s.modGlb f).mgtData = s.mgtData := rfl
@[simp] theorem State.modGlb_readUr (s : State) (f : Glb → Glb) : (s.modGlb f).readUr = s.readUr := rfl
@[simp] theorem State.modGlb_main (s : State) (f : Glb → Glb) : (s.modGlb f).main = { s.main with glb := f s.main.glb } := rfl

@[simp] theorem State.modPwr_pending (s : State) (f : Power → Power) : (s.modPwr f).pending = s.pending := rfl
@[simp] theorem State.modPwr_otp (s : State) (f : Power → Power) : (s.modPwr f).otp = s.otp := rfl
@[simp] theorem State.modPwr_nv (s : State) (f : Power → Power) : (s.modPwr f).nv = s.nv := rfl
@[simp] theorem State.modPwr_slots (s : State) (f : Power → Power) : (s.modPwr f).slots = s.slots := rfl
@[simp] theorem State.modPwr_nand (s : State) (f : Power → Power) : (s.modPwr f).nand = s.nand := rfl
@[simp] theorem State.modPwr_hostMem (s : State) (f : Power → Power) : (s.modPwr f).hostMem = s.hostMem := rfl
@[simp] theorem State.modPwr_aon (s : State) (f : Power → Power) : (s.modPwr f).aon = s.aon := rfl
@[simp] theorem State.modPwr_phase (s : State) (f : Power → Power) : (s.modPwr f).phase = s.phase := rfl
@[simp] theorem State.modPwr_perstLow (s : State) (f : Power → Power) : (s.modPwr f).perstLow = s.perstLow := rfl
@[simp] theorem State.modPwr_dftHigh (s : State) (f : Power → Power) : (s.modPwr f).dftHigh = s.dftHigh := rfl
@[simp] theorem State.modPwr_flrWait (s : State) (f : Power → Power) : (s.modPwr f).flrWait = s.flrWait := rfl
@[simp] theorem State.modPwr_stamp (s : State) (f : Power → Power) : (s.modPwr f).stamp = s.stamp := rfl
@[simp] theorem State.modPwr_readData (s : State) (f : Power → Power) : (s.modPwr f).readData = s.readData := rfl
@[simp] theorem State.modPwr_mgtData (s : State) (f : Power → Power) : (s.modPwr f).mgtData = s.mgtData := rfl
@[simp] theorem State.modPwr_readUr (s : State) (f : Power → Power) : (s.modPwr f).readUr = s.readUr := rfl
@[simp] theorem State.modPwr_main (s : State) (f : Power → Power) : (s.modPwr f).main = { s.main with pwr := f s.main.pwr } := rfl

@[simp] theorem State.modMsix_pending (s : State) (f : Msix → Msix) : (s.modMsix f).pending = s.pending := rfl
@[simp] theorem State.modMsix_otp (s : State) (f : Msix → Msix) : (s.modMsix f).otp = s.otp := rfl
@[simp] theorem State.modMsix_nv (s : State) (f : Msix → Msix) : (s.modMsix f).nv = s.nv := rfl
@[simp] theorem State.modMsix_slots (s : State) (f : Msix → Msix) : (s.modMsix f).slots = s.slots := rfl
@[simp] theorem State.modMsix_nand (s : State) (f : Msix → Msix) : (s.modMsix f).nand = s.nand := rfl
@[simp] theorem State.modMsix_hostMem (s : State) (f : Msix → Msix) : (s.modMsix f).hostMem = s.hostMem := rfl
@[simp] theorem State.modMsix_aon (s : State) (f : Msix → Msix) : (s.modMsix f).aon = s.aon := rfl
@[simp] theorem State.modMsix_phase (s : State) (f : Msix → Msix) : (s.modMsix f).phase = s.phase := rfl
@[simp] theorem State.modMsix_perstLow (s : State) (f : Msix → Msix) : (s.modMsix f).perstLow = s.perstLow := rfl
@[simp] theorem State.modMsix_dftHigh (s : State) (f : Msix → Msix) : (s.modMsix f).dftHigh = s.dftHigh := rfl
@[simp] theorem State.modMsix_flrWait (s : State) (f : Msix → Msix) : (s.modMsix f).flrWait = s.flrWait := rfl
@[simp] theorem State.modMsix_stamp (s : State) (f : Msix → Msix) : (s.modMsix f).stamp = s.stamp := rfl
@[simp] theorem State.modMsix_readData (s : State) (f : Msix → Msix) : (s.modMsix f).readData = s.readData := rfl
@[simp] theorem State.modMsix_mgtData (s : State) (f : Msix → Msix) : (s.modMsix f).mgtData = s.mgtData := rfl
@[simp] theorem State.modMsix_readUr (s : State) (f : Msix → Msix) : (s.modMsix f).readUr = s.readUr := rfl
@[simp] theorem State.modMsix_main (s : State) (f : Msix → Msix) : (s.modMsix f).main = { s.main with msix := f s.main.msix } := rfl

@[simp] theorem State.modPcie_pending (s : State) (f : Pcie → Pcie) : (s.modPcie f).pending = s.pending := rfl
@[simp] theorem State.modPcie_otp (s : State) (f : Pcie → Pcie) : (s.modPcie f).otp = s.otp := rfl
@[simp] theorem State.modPcie_nv (s : State) (f : Pcie → Pcie) : (s.modPcie f).nv = s.nv := rfl
@[simp] theorem State.modPcie_slots (s : State) (f : Pcie → Pcie) : (s.modPcie f).slots = s.slots := rfl
@[simp] theorem State.modPcie_nand (s : State) (f : Pcie → Pcie) : (s.modPcie f).nand = s.nand := rfl
@[simp] theorem State.modPcie_hostMem (s : State) (f : Pcie → Pcie) : (s.modPcie f).hostMem = s.hostMem := rfl
@[simp] theorem State.modPcie_aon (s : State) (f : Pcie → Pcie) : (s.modPcie f).aon = s.aon := rfl
@[simp] theorem State.modPcie_phase (s : State) (f : Pcie → Pcie) : (s.modPcie f).phase = s.phase := rfl
@[simp] theorem State.modPcie_perstLow (s : State) (f : Pcie → Pcie) : (s.modPcie f).perstLow = s.perstLow := rfl
@[simp] theorem State.modPcie_dftHigh (s : State) (f : Pcie → Pcie) : (s.modPcie f).dftHigh = s.dftHigh := rfl
@[simp] theorem State.modPcie_flrWait (s : State) (f : Pcie → Pcie) : (s.modPcie f).flrWait = s.flrWait := rfl
@[simp] theorem State.modPcie_stamp (s : State) (f : Pcie → Pcie) : (s.modPcie f).stamp = s.stamp := rfl
@[simp] theorem State.modPcie_readData (s : State) (f : Pcie → Pcie) : (s.modPcie f).readData = s.readData := rfl
@[simp] theorem State.modPcie_mgtData (s : State) (f : Pcie → Pcie) : (s.modPcie f).mgtData = s.mgtData := rfl
@[simp] theorem State.modPcie_readUr (s : State) (f : Pcie → Pcie) : (s.modPcie f).readUr = s.readUr := rfl
@[simp] theorem State.modPcie_main (s : State) (f : Pcie → Pcie) : (s.modPcie f).main = { s.main with pcie := f s.main.pcie } := rfl

@[simp] theorem State.setLink_pending (s : State) (l : LinkState) : (s.setLink l).pending = s.pending := rfl
@[simp] theorem State.setLink_otp (s : State) (l : LinkState) : (s.setLink l).otp = s.otp := rfl
@[simp] theorem State.setLink_nv (s : State) (l : LinkState) : (s.setLink l).nv = s.nv := rfl
@[simp] theorem State.setLink_slots (s : State) (l : LinkState) : (s.setLink l).slots = s.slots := rfl
@[simp] theorem State.setLink_nand (s : State) (l : LinkState) : (s.setLink l).nand = s.nand := rfl
@[simp] theorem State.setLink_hostMem (s : State) (l : LinkState) : (s.setLink l).hostMem = s.hostMem := rfl
@[simp] theorem State.setLink_aon (s : State) (l : LinkState) : (s.setLink l).aon = s.aon := rfl
@[simp] theorem State.setLink_phase (s : State) (l : LinkState) : (s.setLink l).phase = s.phase := rfl
@[simp] theorem State.setLink_perstLow (s : State) (l : LinkState) : (s.setLink l).perstLow = s.perstLow := rfl
@[simp] theorem State.setLink_dftHigh (s : State) (l : LinkState) : (s.setLink l).dftHigh = s.dftHigh := rfl
@[simp] theorem State.setLink_flrWait (s : State) (l : LinkState) : (s.setLink l).flrWait = s.flrWait := rfl
@[simp] theorem State.setLink_stamp (s : State) (l : LinkState) : (s.setLink l).stamp = s.stamp := rfl
@[simp] theorem State.setLink_readData (s : State) (l : LinkState) : (s.setLink l).readData = s.readData := rfl
@[simp] theorem State.setLink_mgtData (s : State) (l : LinkState) : (s.setLink l).mgtData = s.mgtData := rfl
@[simp] theorem State.setLink_readUr (s : State) (l : LinkState) : (s.setLink l).readUr = s.readUr := rfl
@[simp] theorem State.setLink_main (s : State) (l : LinkState) :
    (s.setLink l).main = { s.main with pcie := { s.main.pcie with link := l } } := rfl

@[simp] theorem State.modQueue_pending (s : State) (q : Fin 16) (f : Queue → Queue) : (s.modQueue q f).pending = s.pending := rfl
@[simp] theorem State.modQueue_otp (s : State) (q : Fin 16) (f : Queue → Queue) : (s.modQueue q f).otp = s.otp := rfl
@[simp] theorem State.modQueue_nv (s : State) (q : Fin 16) (f : Queue → Queue) : (s.modQueue q f).nv = s.nv := rfl
@[simp] theorem State.modQueue_slots (s : State) (q : Fin 16) (f : Queue → Queue) : (s.modQueue q f).slots = s.slots := rfl
@[simp] theorem State.modQueue_nand (s : State) (q : Fin 16) (f : Queue → Queue) : (s.modQueue q f).nand = s.nand := rfl
@[simp] theorem State.modQueue_hostMem (s : State) (q : Fin 16) (f : Queue → Queue) : (s.modQueue q f).hostMem = s.hostMem := rfl
@[simp] theorem State.modQueue_aon (s : State) (q : Fin 16) (f : Queue → Queue) : (s.modQueue q f).aon = s.aon := rfl
@[simp] theorem State.modQueue_phase (s : State) (q : Fin 16) (f : Queue → Queue) : (s.modQueue q f).phase = s.phase := rfl
@[simp] theorem State.modQueue_perstLow (s : State) (q : Fin 16) (f : Queue → Queue) : (s.modQueue q f).perstLow = s.perstLow := rfl
@[simp] theorem State.modQueue_dftHigh (s : State) (q : Fin 16) (f : Queue → Queue) : (s.modQueue q f).dftHigh = s.dftHigh := rfl
@[simp] theorem State.modQueue_flrWait (s : State) (q : Fin 16) (f : Queue → Queue) : (s.modQueue q f).flrWait = s.flrWait := rfl
@[simp] theorem State.modQueue_stamp (s : State) (q : Fin 16) (f : Queue → Queue) : (s.modQueue q f).stamp = s.stamp := rfl
@[simp] theorem State.modQueue_readData (s : State) (q : Fin 16) (f : Queue → Queue) : (s.modQueue q f).readData = s.readData := rfl
@[simp] theorem State.modQueue_mgtData (s : State) (q : Fin 16) (f : Queue → Queue) : (s.modQueue q f).mgtData = s.mgtData := rfl
@[simp] theorem State.modQueue_readUr (s : State) (q : Fin 16) (f : Queue → Queue) : (s.modQueue q f).readUr = s.readUr := rfl
@[simp] theorem State.modQueue_main (s : State) (q : Fin 16) (f : Queue → Queue) : (s.modQueue q f).main = { s.main with queues := upd s.main.queues q f } := rfl

@[simp] theorem State.modCtx_pending (s : State) (c : Fin 8) (f : Ctx → Ctx) : (s.modCtx c f).pending = s.pending := rfl
@[simp] theorem State.modCtx_otp (s : State) (c : Fin 8) (f : Ctx → Ctx) : (s.modCtx c f).otp = s.otp := rfl
@[simp] theorem State.modCtx_nv (s : State) (c : Fin 8) (f : Ctx → Ctx) : (s.modCtx c f).nv = s.nv := rfl
@[simp] theorem State.modCtx_slots (s : State) (c : Fin 8) (f : Ctx → Ctx) : (s.modCtx c f).slots = s.slots := rfl
@[simp] theorem State.modCtx_nand (s : State) (c : Fin 8) (f : Ctx → Ctx) : (s.modCtx c f).nand = s.nand := rfl
@[simp] theorem State.modCtx_hostMem (s : State) (c : Fin 8) (f : Ctx → Ctx) : (s.modCtx c f).hostMem = s.hostMem := rfl
@[simp] theorem State.modCtx_aon (s : State) (c : Fin 8) (f : Ctx → Ctx) : (s.modCtx c f).aon = s.aon := rfl
@[simp] theorem State.modCtx_phase (s : State) (c : Fin 8) (f : Ctx → Ctx) : (s.modCtx c f).phase = s.phase := rfl
@[simp] theorem State.modCtx_perstLow (s : State) (c : Fin 8) (f : Ctx → Ctx) : (s.modCtx c f).perstLow = s.perstLow := rfl
@[simp] theorem State.modCtx_dftHigh (s : State) (c : Fin 8) (f : Ctx → Ctx) : (s.modCtx c f).dftHigh = s.dftHigh := rfl
@[simp] theorem State.modCtx_flrWait (s : State) (c : Fin 8) (f : Ctx → Ctx) : (s.modCtx c f).flrWait = s.flrWait := rfl
@[simp] theorem State.modCtx_stamp (s : State) (c : Fin 8) (f : Ctx → Ctx) : (s.modCtx c f).stamp = s.stamp := rfl
@[simp] theorem State.modCtx_readData (s : State) (c : Fin 8) (f : Ctx → Ctx) : (s.modCtx c f).readData = s.readData := rfl
@[simp] theorem State.modCtx_mgtData (s : State) (c : Fin 8) (f : Ctx → Ctx) : (s.modCtx c f).mgtData = s.mgtData := rfl
@[simp] theorem State.modCtx_readUr (s : State) (c : Fin 8) (f : Ctx → Ctx) : (s.modCtx c f).readUr = s.readUr := rfl
@[simp] theorem State.modCtx_main (s : State) (c : Fin 8) (f : Ctx → Ctx) : (s.modCtx c f).main = { s.main with ctxs := upd s.main.ctxs c f } := rfl

@[simp] theorem State.modStation_pending (s : State) (n : Fin 24) (f : Station → Station) : (s.modStation n f).pending = s.pending := rfl
@[simp] theorem State.modStation_otp (s : State) (n : Fin 24) (f : Station → Station) : (s.modStation n f).otp = s.otp := rfl
@[simp] theorem State.modStation_nv (s : State) (n : Fin 24) (f : Station → Station) : (s.modStation n f).nv = s.nv := rfl
@[simp] theorem State.modStation_slots (s : State) (n : Fin 24) (f : Station → Station) : (s.modStation n f).slots = s.slots := rfl
@[simp] theorem State.modStation_nand (s : State) (n : Fin 24) (f : Station → Station) : (s.modStation n f).nand = s.nand := rfl
@[simp] theorem State.modStation_hostMem (s : State) (n : Fin 24) (f : Station → Station) : (s.modStation n f).hostMem = s.hostMem := rfl
@[simp] theorem State.modStation_aon (s : State) (n : Fin 24) (f : Station → Station) : (s.modStation n f).aon = s.aon := rfl
@[simp] theorem State.modStation_phase (s : State) (n : Fin 24) (f : Station → Station) : (s.modStation n f).phase = s.phase := rfl
@[simp] theorem State.modStation_perstLow (s : State) (n : Fin 24) (f : Station → Station) : (s.modStation n f).perstLow = s.perstLow := rfl
@[simp] theorem State.modStation_dftHigh (s : State) (n : Fin 24) (f : Station → Station) : (s.modStation n f).dftHigh = s.dftHigh := rfl
@[simp] theorem State.modStation_flrWait (s : State) (n : Fin 24) (f : Station → Station) : (s.modStation n f).flrWait = s.flrWait := rfl
@[simp] theorem State.modStation_stamp (s : State) (n : Fin 24) (f : Station → Station) : (s.modStation n f).stamp = s.stamp := rfl
@[simp] theorem State.modStation_readData (s : State) (n : Fin 24) (f : Station → Station) : (s.modStation n f).readData = s.readData := rfl
@[simp] theorem State.modStation_mgtData (s : State) (n : Fin 24) (f : Station → Station) : (s.modStation n f).mgtData = s.mgtData := rfl
@[simp] theorem State.modStation_readUr (s : State) (n : Fin 24) (f : Station → Station) : (s.modStation n f).readUr = s.readUr := rfl
@[simp] theorem State.modStation_main (s : State) (n : Fin 24) (f : Station → Station) : (s.modStation n f).main = { s.main with stations := upd s.main.stations n f } := rfl

@[simp] theorem State.modChan_pending (s : State) (ch : Fin 16) (f : Chan → Chan) : (s.modChan ch f).pending = s.pending := rfl
@[simp] theorem State.modChan_otp (s : State) (ch : Fin 16) (f : Chan → Chan) : (s.modChan ch f).otp = s.otp := rfl
@[simp] theorem State.modChan_nv (s : State) (ch : Fin 16) (f : Chan → Chan) : (s.modChan ch f).nv = s.nv := rfl
@[simp] theorem State.modChan_slots (s : State) (ch : Fin 16) (f : Chan → Chan) : (s.modChan ch f).slots = s.slots := rfl
@[simp] theorem State.modChan_nand (s : State) (ch : Fin 16) (f : Chan → Chan) : (s.modChan ch f).nand = s.nand := rfl
@[simp] theorem State.modChan_hostMem (s : State) (ch : Fin 16) (f : Chan → Chan) : (s.modChan ch f).hostMem = s.hostMem := rfl
@[simp] theorem State.modChan_aon (s : State) (ch : Fin 16) (f : Chan → Chan) : (s.modChan ch f).aon = s.aon := rfl
@[simp] theorem State.modChan_phase (s : State) (ch : Fin 16) (f : Chan → Chan) : (s.modChan ch f).phase = s.phase := rfl
@[simp] theorem State.modChan_perstLow (s : State) (ch : Fin 16) (f : Chan → Chan) : (s.modChan ch f).perstLow = s.perstLow := rfl
@[simp] theorem State.modChan_dftHigh (s : State) (ch : Fin 16) (f : Chan → Chan) : (s.modChan ch f).dftHigh = s.dftHigh := rfl
@[simp] theorem State.modChan_flrWait (s : State) (ch : Fin 16) (f : Chan → Chan) : (s.modChan ch f).flrWait = s.flrWait := rfl
@[simp] theorem State.modChan_stamp (s : State) (ch : Fin 16) (f : Chan → Chan) : (s.modChan ch f).stamp = s.stamp := rfl
@[simp] theorem State.modChan_readData (s : State) (ch : Fin 16) (f : Chan → Chan) : (s.modChan ch f).readData = s.readData := rfl
@[simp] theorem State.modChan_mgtData (s : State) (ch : Fin 16) (f : Chan → Chan) : (s.modChan ch f).mgtData = s.mgtData := rfl
@[simp] theorem State.modChan_readUr (s : State) (ch : Fin 16) (f : Chan → Chan) : (s.modChan ch f).readUr = s.readUr := rfl
@[simp] theorem State.modChan_main (s : State) (ch : Fin 16) (f : Chan → Chan) : (s.modChan ch f).main = { s.main with chans := upd s.main.chans ch f } := rfl

@[simp] theorem State.modNfc_pending (s : State) (f : Nfc → Nfc) : (s.modNfc f).pending = s.pending := rfl
@[simp] theorem State.modNfc_otp (s : State) (f : Nfc → Nfc) : (s.modNfc f).otp = s.otp := rfl
@[simp] theorem State.modNfc_nv (s : State) (f : Nfc → Nfc) : (s.modNfc f).nv = s.nv := rfl
@[simp] theorem State.modNfc_slots (s : State) (f : Nfc → Nfc) : (s.modNfc f).slots = s.slots := rfl
@[simp] theorem State.modNfc_nand (s : State) (f : Nfc → Nfc) : (s.modNfc f).nand = s.nand := rfl
@[simp] theorem State.modNfc_hostMem (s : State) (f : Nfc → Nfc) : (s.modNfc f).hostMem = s.hostMem := rfl
@[simp] theorem State.modNfc_aon (s : State) (f : Nfc → Nfc) : (s.modNfc f).aon = s.aon := rfl
@[simp] theorem State.modNfc_phase (s : State) (f : Nfc → Nfc) : (s.modNfc f).phase = s.phase := rfl
@[simp] theorem State.modNfc_perstLow (s : State) (f : Nfc → Nfc) : (s.modNfc f).perstLow = s.perstLow := rfl
@[simp] theorem State.modNfc_dftHigh (s : State) (f : Nfc → Nfc) : (s.modNfc f).dftHigh = s.dftHigh := rfl
@[simp] theorem State.modNfc_flrWait (s : State) (f : Nfc → Nfc) : (s.modNfc f).flrWait = s.flrWait := rfl
@[simp] theorem State.modNfc_stamp (s : State) (f : Nfc → Nfc) : (s.modNfc f).stamp = s.stamp := rfl
@[simp] theorem State.modNfc_readData (s : State) (f : Nfc → Nfc) : (s.modNfc f).readData = s.readData := rfl
@[simp] theorem State.modNfc_mgtData (s : State) (f : Nfc → Nfc) : (s.modNfc f).mgtData = s.mgtData := rfl
@[simp] theorem State.modNfc_readUr (s : State) (f : Nfc → Nfc) : (s.modNfc f).readUr = s.readUr := rfl
@[simp] theorem State.modNfc_main (s : State) (f : Nfc → Nfc) : (s.modNfc f).main = { s.main with nfc := f s.main.nfc } := rfl

@[simp] theorem State.modLun_pending (s : State) (u : Fin 32) (f : Lun → Lun) : (s.modLun u f).pending = s.pending := rfl
@[simp] theorem State.modLun_otp (s : State) (u : Fin 32) (f : Lun → Lun) : (s.modLun u f).otp = s.otp := rfl
@[simp] theorem State.modLun_nv (s : State) (u : Fin 32) (f : Lun → Lun) : (s.modLun u f).nv = s.nv := rfl
@[simp] theorem State.modLun_slots (s : State) (u : Fin 32) (f : Lun → Lun) : (s.modLun u f).slots = s.slots := rfl
@[simp] theorem State.modLun_nand (s : State) (u : Fin 32) (f : Lun → Lun) : (s.modLun u f).nand = s.nand := rfl
@[simp] theorem State.modLun_hostMem (s : State) (u : Fin 32) (f : Lun → Lun) : (s.modLun u f).hostMem = s.hostMem := rfl
@[simp] theorem State.modLun_aon (s : State) (u : Fin 32) (f : Lun → Lun) : (s.modLun u f).aon = s.aon := rfl
@[simp] theorem State.modLun_phase (s : State) (u : Fin 32) (f : Lun → Lun) : (s.modLun u f).phase = s.phase := rfl
@[simp] theorem State.modLun_perstLow (s : State) (u : Fin 32) (f : Lun → Lun) : (s.modLun u f).perstLow = s.perstLow := rfl
@[simp] theorem State.modLun_dftHigh (s : State) (u : Fin 32) (f : Lun → Lun) : (s.modLun u f).dftHigh = s.dftHigh := rfl
@[simp] theorem State.modLun_flrWait (s : State) (u : Fin 32) (f : Lun → Lun) : (s.modLun u f).flrWait = s.flrWait := rfl
@[simp] theorem State.modLun_stamp (s : State) (u : Fin 32) (f : Lun → Lun) : (s.modLun u f).stamp = s.stamp := rfl
@[simp] theorem State.modLun_readData (s : State) (u : Fin 32) (f : Lun → Lun) : (s.modLun u f).readData = s.readData := rfl
@[simp] theorem State.modLun_mgtData (s : State) (u : Fin 32) (f : Lun → Lun) : (s.modLun u f).mgtData = s.mgtData := rfl
@[simp] theorem State.modLun_readUr (s : State) (u : Fin 32) (f : Lun → Lun) : (s.modLun u f).readUr = s.readUr := rfl
@[simp] theorem State.modLun_main (s : State) (u : Fin 32) (f : Lun → Lun) : (s.modLun u f).main = { s.main with nfc := { s.main.nfc with luns := upd s.main.nfc.luns u f } } := rfl

@[simp] theorem State.modLink_pending (s : State) (f : Link → Link) : (s.modLink f).pending = s.pending := rfl
@[simp] theorem State.modLink_otp (s : State) (f : Link → Link) : (s.modLink f).otp = s.otp := rfl
@[simp] theorem State.modLink_nv (s : State) (f : Link → Link) : (s.modLink f).nv = s.nv := rfl
@[simp] theorem State.modLink_slots (s : State) (f : Link → Link) : (s.modLink f).slots = s.slots := rfl
@[simp] theorem State.modLink_nand (s : State) (f : Link → Link) : (s.modLink f).nand = s.nand := rfl
@[simp] theorem State.modLink_hostMem (s : State) (f : Link → Link) : (s.modLink f).hostMem = s.hostMem := rfl
@[simp] theorem State.modLink_aon (s : State) (f : Link → Link) : (s.modLink f).aon = s.aon := rfl
@[simp] theorem State.modLink_phase (s : State) (f : Link → Link) : (s.modLink f).phase = s.phase := rfl
@[simp] theorem State.modLink_perstLow (s : State) (f : Link → Link) : (s.modLink f).perstLow = s.perstLow := rfl
@[simp] theorem State.modLink_dftHigh (s : State) (f : Link → Link) : (s.modLink f).dftHigh = s.dftHigh := rfl
@[simp] theorem State.modLink_flrWait (s : State) (f : Link → Link) : (s.modLink f).flrWait = s.flrWait := rfl
@[simp] theorem State.modLink_stamp (s : State) (f : Link → Link) : (s.modLink f).stamp = s.stamp := rfl
@[simp] theorem State.modLink_readData (s : State) (f : Link → Link) : (s.modLink f).readData = s.readData := rfl
@[simp] theorem State.modLink_mgtData (s : State) (f : Link → Link) : (s.modLink f).mgtData = s.mgtData := rfl
@[simp] theorem State.modLink_readUr (s : State) (f : Link → Link) : (s.modLink f).readUr = s.readUr := rfl
@[simp] theorem State.modLink_main (s : State) (f : Link → Link) : (s.modLink f).main = { s.main with link := f s.main.link } := rfl

@[simp] theorem State.modPort_pending (s : State) (p : Fin 2) (f : Port → Port) : (s.modPort p f).pending = s.pending := rfl
@[simp] theorem State.modPort_otp (s : State) (p : Fin 2) (f : Port → Port) : (s.modPort p f).otp = s.otp := rfl
@[simp] theorem State.modPort_nv (s : State) (p : Fin 2) (f : Port → Port) : (s.modPort p f).nv = s.nv := rfl
@[simp] theorem State.modPort_slots (s : State) (p : Fin 2) (f : Port → Port) : (s.modPort p f).slots = s.slots := rfl
@[simp] theorem State.modPort_nand (s : State) (p : Fin 2) (f : Port → Port) : (s.modPort p f).nand = s.nand := rfl
@[simp] theorem State.modPort_hostMem (s : State) (p : Fin 2) (f : Port → Port) : (s.modPort p f).hostMem = s.hostMem := rfl
@[simp] theorem State.modPort_aon (s : State) (p : Fin 2) (f : Port → Port) : (s.modPort p f).aon = s.aon := rfl
@[simp] theorem State.modPort_phase (s : State) (p : Fin 2) (f : Port → Port) : (s.modPort p f).phase = s.phase := rfl
@[simp] theorem State.modPort_perstLow (s : State) (p : Fin 2) (f : Port → Port) : (s.modPort p f).perstLow = s.perstLow := rfl
@[simp] theorem State.modPort_dftHigh (s : State) (p : Fin 2) (f : Port → Port) : (s.modPort p f).dftHigh = s.dftHigh := rfl
@[simp] theorem State.modPort_flrWait (s : State) (p : Fin 2) (f : Port → Port) : (s.modPort p f).flrWait = s.flrWait := rfl
@[simp] theorem State.modPort_stamp (s : State) (p : Fin 2) (f : Port → Port) : (s.modPort p f).stamp = s.stamp := rfl
@[simp] theorem State.modPort_readData (s : State) (p : Fin 2) (f : Port → Port) : (s.modPort p f).readData = s.readData := rfl
@[simp] theorem State.modPort_mgtData (s : State) (p : Fin 2) (f : Port → Port) : (s.modPort p f).mgtData = s.mgtData := rfl
@[simp] theorem State.modPort_readUr (s : State) (p : Fin 2) (f : Port → Port) : (s.modPort p f).readUr = s.readUr := rfl
@[simp] theorem State.modPort_main (s : State) (p : Fin 2) (f : Port → Port) : (s.modPort p f).main = { s.main with link := { s.main.link with ports := upd s.main.link.ports p f } } := rfl

@[simp] theorem State.modBind_pending (s : State) (c : Fin 8) (f : BindRegs → BindRegs) : (s.modBind c f).pending = s.pending := rfl
@[simp] theorem State.modBind_otp (s : State) (c : Fin 8) (f : BindRegs → BindRegs) : (s.modBind c f).otp = s.otp := rfl
@[simp] theorem State.modBind_nv (s : State) (c : Fin 8) (f : BindRegs → BindRegs) : (s.modBind c f).nv = s.nv := rfl
@[simp] theorem State.modBind_slots (s : State) (c : Fin 8) (f : BindRegs → BindRegs) : (s.modBind c f).slots = s.slots := rfl
@[simp] theorem State.modBind_nand (s : State) (c : Fin 8) (f : BindRegs → BindRegs) : (s.modBind c f).nand = s.nand := rfl
@[simp] theorem State.modBind_hostMem (s : State) (c : Fin 8) (f : BindRegs → BindRegs) : (s.modBind c f).hostMem = s.hostMem := rfl
@[simp] theorem State.modBind_aon (s : State) (c : Fin 8) (f : BindRegs → BindRegs) : (s.modBind c f).aon = s.aon := rfl
@[simp] theorem State.modBind_phase (s : State) (c : Fin 8) (f : BindRegs → BindRegs) : (s.modBind c f).phase = s.phase := rfl
@[simp] theorem State.modBind_perstLow (s : State) (c : Fin 8) (f : BindRegs → BindRegs) : (s.modBind c f).perstLow = s.perstLow := rfl
@[simp] theorem State.modBind_dftHigh (s : State) (c : Fin 8) (f : BindRegs → BindRegs) : (s.modBind c f).dftHigh = s.dftHigh := rfl
@[simp] theorem State.modBind_flrWait (s : State) (c : Fin 8) (f : BindRegs → BindRegs) : (s.modBind c f).flrWait = s.flrWait := rfl
@[simp] theorem State.modBind_stamp (s : State) (c : Fin 8) (f : BindRegs → BindRegs) : (s.modBind c f).stamp = s.stamp := rfl
@[simp] theorem State.modBind_readData (s : State) (c : Fin 8) (f : BindRegs → BindRegs) : (s.modBind c f).readData = s.readData := rfl
@[simp] theorem State.modBind_mgtData (s : State) (c : Fin 8) (f : BindRegs → BindRegs) : (s.modBind c f).mgtData = s.mgtData := rfl
@[simp] theorem State.modBind_readUr (s : State) (c : Fin 8) (f : BindRegs → BindRegs) : (s.modBind c f).readUr = s.readUr := rfl
@[simp] theorem State.modBind_main (s : State) (c : Fin 8) (f : BindRegs → BindRegs) : (s.modBind c f).main = { s.main with link := { s.main.link with binds := upd s.main.link.binds c f } } := rfl

@[simp] theorem State.modUart_pending (s : State) (u : Fin 2) (f : Uart → Uart) : (s.modUart u f).pending = s.pending := rfl
@[simp] theorem State.modUart_otp (s : State) (u : Fin 2) (f : Uart → Uart) : (s.modUart u f).otp = s.otp := rfl
@[simp] theorem State.modUart_nv (s : State) (u : Fin 2) (f : Uart → Uart) : (s.modUart u f).nv = s.nv := rfl
@[simp] theorem State.modUart_slots (s : State) (u : Fin 2) (f : Uart → Uart) : (s.modUart u f).slots = s.slots := rfl
@[simp] theorem State.modUart_nand (s : State) (u : Fin 2) (f : Uart → Uart) : (s.modUart u f).nand = s.nand := rfl
@[simp] theorem State.modUart_hostMem (s : State) (u : Fin 2) (f : Uart → Uart) : (s.modUart u f).hostMem = s.hostMem := rfl
@[simp] theorem State.modUart_aon (s : State) (u : Fin 2) (f : Uart → Uart) : (s.modUart u f).aon = s.aon := rfl
@[simp] theorem State.modUart_phase (s : State) (u : Fin 2) (f : Uart → Uart) : (s.modUart u f).phase = s.phase := rfl
@[simp] theorem State.modUart_perstLow (s : State) (u : Fin 2) (f : Uart → Uart) : (s.modUart u f).perstLow = s.perstLow := rfl
@[simp] theorem State.modUart_dftHigh (s : State) (u : Fin 2) (f : Uart → Uart) : (s.modUart u f).dftHigh = s.dftHigh := rfl
@[simp] theorem State.modUart_flrWait (s : State) (u : Fin 2) (f : Uart → Uart) : (s.modUart u f).flrWait = s.flrWait := rfl
@[simp] theorem State.modUart_stamp (s : State) (u : Fin 2) (f : Uart → Uart) : (s.modUart u f).stamp = s.stamp := rfl
@[simp] theorem State.modUart_readData (s : State) (u : Fin 2) (f : Uart → Uart) : (s.modUart u f).readData = s.readData := rfl
@[simp] theorem State.modUart_mgtData (s : State) (u : Fin 2) (f : Uart → Uart) : (s.modUart u f).mgtData = s.mgtData := rfl
@[simp] theorem State.modUart_readUr (s : State) (u : Fin 2) (f : Uart → Uart) : (s.modUart u f).readUr = s.readUr := rfl
@[simp] theorem State.modUart_main (s : State) (u : Fin 2) (f : Uart → Uart) : (s.modUart u f).main = { s.main with uarts := upd s.main.uarts u f } := rfl

@[simp] theorem State.modLin_pending (s : State) (f : Lin → Lin) : (s.modLin f).pending = s.pending := rfl
@[simp] theorem State.modLin_otp (s : State) (f : Lin → Lin) : (s.modLin f).otp = s.otp := rfl
@[simp] theorem State.modLin_nv (s : State) (f : Lin → Lin) : (s.modLin f).nv = s.nv := rfl
@[simp] theorem State.modLin_slots (s : State) (f : Lin → Lin) : (s.modLin f).slots = s.slots := rfl
@[simp] theorem State.modLin_nand (s : State) (f : Lin → Lin) : (s.modLin f).nand = s.nand := rfl
@[simp] theorem State.modLin_hostMem (s : State) (f : Lin → Lin) : (s.modLin f).hostMem = s.hostMem := rfl
@[simp] theorem State.modLin_aon (s : State) (f : Lin → Lin) : (s.modLin f).aon = s.aon := rfl
@[simp] theorem State.modLin_phase (s : State) (f : Lin → Lin) : (s.modLin f).phase = s.phase := rfl
@[simp] theorem State.modLin_perstLow (s : State) (f : Lin → Lin) : (s.modLin f).perstLow = s.perstLow := rfl
@[simp] theorem State.modLin_dftHigh (s : State) (f : Lin → Lin) : (s.modLin f).dftHigh = s.dftHigh := rfl
@[simp] theorem State.modLin_flrWait (s : State) (f : Lin → Lin) : (s.modLin f).flrWait = s.flrWait := rfl
@[simp] theorem State.modLin_stamp (s : State) (f : Lin → Lin) : (s.modLin f).stamp = s.stamp := rfl
@[simp] theorem State.modLin_readData (s : State) (f : Lin → Lin) : (s.modLin f).readData = s.readData := rfl
@[simp] theorem State.modLin_mgtData (s : State) (f : Lin → Lin) : (s.modLin f).mgtData = s.mgtData := rfl
@[simp] theorem State.modLin_readUr (s : State) (f : Lin → Lin) : (s.modLin f).readUr = s.readUr := rfl
@[simp] theorem State.modLin_main (s : State) (f : Lin → Lin) : (s.modLin f).main = { s.main with lin := f s.main.lin } := rfl

@[simp] theorem State.modIdk_pending (s : State) (f : Idk → Idk) : (s.modIdk f).pending = s.pending := rfl
@[simp] theorem State.modIdk_otp (s : State) (f : Idk → Idk) : (s.modIdk f).otp = s.otp := rfl
@[simp] theorem State.modIdk_nv (s : State) (f : Idk → Idk) : (s.modIdk f).nv = s.nv := rfl
@[simp] theorem State.modIdk_slots (s : State) (f : Idk → Idk) : (s.modIdk f).slots = s.slots := rfl
@[simp] theorem State.modIdk_nand (s : State) (f : Idk → Idk) : (s.modIdk f).nand = s.nand := rfl
@[simp] theorem State.modIdk_hostMem (s : State) (f : Idk → Idk) : (s.modIdk f).hostMem = s.hostMem := rfl
@[simp] theorem State.modIdk_aon (s : State) (f : Idk → Idk) : (s.modIdk f).aon = s.aon := rfl
@[simp] theorem State.modIdk_phase (s : State) (f : Idk → Idk) : (s.modIdk f).phase = s.phase := rfl
@[simp] theorem State.modIdk_perstLow (s : State) (f : Idk → Idk) : (s.modIdk f).perstLow = s.perstLow := rfl
@[simp] theorem State.modIdk_dftHigh (s : State) (f : Idk → Idk) : (s.modIdk f).dftHigh = s.dftHigh := rfl
@[simp] theorem State.modIdk_flrWait (s : State) (f : Idk → Idk) : (s.modIdk f).flrWait = s.flrWait := rfl
@[simp] theorem State.modIdk_stamp (s : State) (f : Idk → Idk) : (s.modIdk f).stamp = s.stamp := rfl
@[simp] theorem State.modIdk_readData (s : State) (f : Idk → Idk) : (s.modIdk f).readData = s.readData := rfl
@[simp] theorem State.modIdk_mgtData (s : State) (f : Idk → Idk) : (s.modIdk f).mgtData = s.mgtData := rfl
@[simp] theorem State.modIdk_readUr (s : State) (f : Idk → Idk) : (s.modIdk f).readUr = s.readUr := rfl
@[simp] theorem State.modIdk_main (s : State) (f : Idk → Idk) : (s.modIdk f).main = { s.main with idk := f s.main.idk } := rfl

@[simp] theorem State.modSup_pending (s : State) (f : Supply → Supply) : (s.modSup f).pending = s.pending := rfl
@[simp] theorem State.modSup_otp (s : State) (f : Supply → Supply) : (s.modSup f).otp = s.otp := rfl
@[simp] theorem State.modSup_nv (s : State) (f : Supply → Supply) : (s.modSup f).nv = s.nv := rfl
@[simp] theorem State.modSup_slots (s : State) (f : Supply → Supply) : (s.modSup f).slots = s.slots := rfl
@[simp] theorem State.modSup_nand (s : State) (f : Supply → Supply) : (s.modSup f).nand = s.nand := rfl
@[simp] theorem State.modSup_hostMem (s : State) (f : Supply → Supply) : (s.modSup f).hostMem = s.hostMem := rfl
@[simp] theorem State.modSup_aon (s : State) (f : Supply → Supply) : (s.modSup f).aon = s.aon := rfl
@[simp] theorem State.modSup_phase (s : State) (f : Supply → Supply) : (s.modSup f).phase = s.phase := rfl
@[simp] theorem State.modSup_perstLow (s : State) (f : Supply → Supply) : (s.modSup f).perstLow = s.perstLow := rfl
@[simp] theorem State.modSup_dftHigh (s : State) (f : Supply → Supply) : (s.modSup f).dftHigh = s.dftHigh := rfl
@[simp] theorem State.modSup_flrWait (s : State) (f : Supply → Supply) : (s.modSup f).flrWait = s.flrWait := rfl
@[simp] theorem State.modSup_stamp (s : State) (f : Supply → Supply) : (s.modSup f).stamp = s.stamp := rfl
@[simp] theorem State.modSup_readData (s : State) (f : Supply → Supply) : (s.modSup f).readData = s.readData := rfl
@[simp] theorem State.modSup_mgtData (s : State) (f : Supply → Supply) : (s.modSup f).mgtData = s.mgtData := rfl
@[simp] theorem State.modSup_readUr (s : State) (f : Supply → Supply) : (s.modSup f).readUr = s.readUr := rfl
@[simp] theorem State.modSup_main (s : State) (f : Supply → Supply) : (s.modSup f).main = { s.main with sup := f s.main.sup } := rfl

@[simp] theorem State.modShm_pending (s : State) (f : Shm → Shm) : (s.modShm f).pending = s.pending := rfl
@[simp] theorem State.modShm_otp (s : State) (f : Shm → Shm) : (s.modShm f).otp = s.otp := rfl
@[simp] theorem State.modShm_nv (s : State) (f : Shm → Shm) : (s.modShm f).nv = s.nv := rfl
@[simp] theorem State.modShm_slots (s : State) (f : Shm → Shm) : (s.modShm f).slots = s.slots := rfl
@[simp] theorem State.modShm_nand (s : State) (f : Shm → Shm) : (s.modShm f).nand = s.nand := rfl
@[simp] theorem State.modShm_hostMem (s : State) (f : Shm → Shm) : (s.modShm f).hostMem = s.hostMem := rfl
@[simp] theorem State.modShm_aon (s : State) (f : Shm → Shm) : (s.modShm f).aon = s.aon := rfl
@[simp] theorem State.modShm_phase (s : State) (f : Shm → Shm) : (s.modShm f).phase = s.phase := rfl
@[simp] theorem State.modShm_perstLow (s : State) (f : Shm → Shm) : (s.modShm f).perstLow = s.perstLow := rfl
@[simp] theorem State.modShm_dftHigh (s : State) (f : Shm → Shm) : (s.modShm f).dftHigh = s.dftHigh := rfl
@[simp] theorem State.modShm_flrWait (s : State) (f : Shm → Shm) : (s.modShm f).flrWait = s.flrWait := rfl
@[simp] theorem State.modShm_stamp (s : State) (f : Shm → Shm) : (s.modShm f).stamp = s.stamp := rfl
@[simp] theorem State.modShm_readData (s : State) (f : Shm → Shm) : (s.modShm f).readData = s.readData := rfl
@[simp] theorem State.modShm_mgtData (s : State) (f : Shm → Shm) : (s.modShm f).mgtData = s.mgtData := rfl
@[simp] theorem State.modShm_readUr (s : State) (f : Shm → Shm) : (s.modShm f).readUr = s.readUr := rfl
@[simp] theorem State.modShm_main (s : State) (f : Shm → Shm) : (s.modShm f).main = { s.main with shm := f s.main.shm } := rfl

@[simp] theorem State.modEsc_pending (s : State) (f : Esc → Esc) : (s.modEsc f).pending = s.pending := rfl
@[simp] theorem State.modEsc_otp (s : State) (f : Esc → Esc) : (s.modEsc f).otp = s.otp := rfl
@[simp] theorem State.modEsc_nv (s : State) (f : Esc → Esc) : (s.modEsc f).nv = s.nv := rfl
@[simp] theorem State.modEsc_slots (s : State) (f : Esc → Esc) : (s.modEsc f).slots = s.slots := rfl
@[simp] theorem State.modEsc_nand (s : State) (f : Esc → Esc) : (s.modEsc f).nand = s.nand := rfl
@[simp] theorem State.modEsc_hostMem (s : State) (f : Esc → Esc) : (s.modEsc f).hostMem = s.hostMem := rfl
@[simp] theorem State.modEsc_aon (s : State) (f : Esc → Esc) : (s.modEsc f).aon = s.aon := rfl
@[simp] theorem State.modEsc_phase (s : State) (f : Esc → Esc) : (s.modEsc f).phase = s.phase := rfl
@[simp] theorem State.modEsc_perstLow (s : State) (f : Esc → Esc) : (s.modEsc f).perstLow = s.perstLow := rfl
@[simp] theorem State.modEsc_dftHigh (s : State) (f : Esc → Esc) : (s.modEsc f).dftHigh = s.dftHigh := rfl
@[simp] theorem State.modEsc_flrWait (s : State) (f : Esc → Esc) : (s.modEsc f).flrWait = s.flrWait := rfl
@[simp] theorem State.modEsc_stamp (s : State) (f : Esc → Esc) : (s.modEsc f).stamp = s.stamp := rfl
@[simp] theorem State.modEsc_readData (s : State) (f : Esc → Esc) : (s.modEsc f).readData = s.readData := rfl
@[simp] theorem State.modEsc_mgtData (s : State) (f : Esc → Esc) : (s.modEsc f).mgtData = s.mgtData := rfl
@[simp] theorem State.modEsc_readUr (s : State) (f : Esc → Esc) : (s.modEsc f).readUr = s.readUr := rfl
@[simp] theorem State.modEsc_main (s : State) (f : Esc → Esc) : (s.modEsc f).main = { s.main with esc := f s.main.esc } := rfl

@[simp] theorem State.setMark_pending (s : State) (m : Fin 64) (v : BitVec 64) : (s.setMark m v).pending = s.pending := rfl
@[simp] theorem State.setMark_otp (s : State) (m : Fin 64) (v : BitVec 64) : (s.setMark m v).otp = s.otp := rfl
@[simp] theorem State.setMark_nv (s : State) (m : Fin 64) (v : BitVec 64) : (s.setMark m v).nv = s.nv := rfl
@[simp] theorem State.setMark_slots (s : State) (m : Fin 64) (v : BitVec 64) : (s.setMark m v).slots = s.slots := rfl
@[simp] theorem State.setMark_nand (s : State) (m : Fin 64) (v : BitVec 64) : (s.setMark m v).nand = s.nand := rfl
@[simp] theorem State.setMark_hostMem (s : State) (m : Fin 64) (v : BitVec 64) : (s.setMark m v).hostMem = s.hostMem := rfl
@[simp] theorem State.setMark_aon (s : State) (m : Fin 64) (v : BitVec 64) : (s.setMark m v).aon = s.aon := rfl
@[simp] theorem State.setMark_phase (s : State) (m : Fin 64) (v : BitVec 64) : (s.setMark m v).phase = s.phase := rfl
@[simp] theorem State.setMark_perstLow (s : State) (m : Fin 64) (v : BitVec 64) : (s.setMark m v).perstLow = s.perstLow := rfl
@[simp] theorem State.setMark_dftHigh (s : State) (m : Fin 64) (v : BitVec 64) : (s.setMark m v).dftHigh = s.dftHigh := rfl
@[simp] theorem State.setMark_flrWait (s : State) (m : Fin 64) (v : BitVec 64) : (s.setMark m v).flrWait = s.flrWait := rfl
@[simp] theorem State.setMark_stamp (s : State) (m : Fin 64) (v : BitVec 64) : (s.setMark m v).stamp = s.stamp := rfl
@[simp] theorem State.setMark_readData (s : State) (m : Fin 64) (v : BitVec 64) : (s.setMark m v).readData = s.readData := rfl
@[simp] theorem State.setMark_mgtData (s : State) (m : Fin 64) (v : BitVec 64) : (s.setMark m v).mgtData = s.mgtData := rfl
@[simp] theorem State.setMark_readUr (s : State) (m : Fin 64) (v : BitVec 64) : (s.setMark m v).readUr = s.readUr := rfl
@[simp] theorem State.setMark_main (s : State) (m : Fin 64) (v : BitVec 64) : (s.setMark m v).main = { s.main with marks := s.main.marks.set m v } := rfl

@[simp] theorem State.modAon_pending (s : State) (f : Aon → Aon) : (s.modAon f).pending = s.pending := rfl
@[simp] theorem State.modAon_otp (s : State) (f : Aon → Aon) : (s.modAon f).otp = s.otp := rfl
@[simp] theorem State.modAon_nv (s : State) (f : Aon → Aon) : (s.modAon f).nv = s.nv := rfl
@[simp] theorem State.modAon_slots (s : State) (f : Aon → Aon) : (s.modAon f).slots = s.slots := rfl
@[simp] theorem State.modAon_nand (s : State) (f : Aon → Aon) : (s.modAon f).nand = s.nand := rfl
@[simp] theorem State.modAon_hostMem (s : State) (f : Aon → Aon) : (s.modAon f).hostMem = s.hostMem := rfl
@[simp] theorem State.modAon_phase (s : State) (f : Aon → Aon) : (s.modAon f).phase = s.phase := rfl
@[simp] theorem State.modAon_perstLow (s : State) (f : Aon → Aon) : (s.modAon f).perstLow = s.perstLow := rfl
@[simp] theorem State.modAon_dftHigh (s : State) (f : Aon → Aon) : (s.modAon f).dftHigh = s.dftHigh := rfl
@[simp] theorem State.modAon_flrWait (s : State) (f : Aon → Aon) : (s.modAon f).flrWait = s.flrWait := rfl
@[simp] theorem State.modAon_stamp (s : State) (f : Aon → Aon) : (s.modAon f).stamp = s.stamp := rfl
@[simp] theorem State.modAon_readData (s : State) (f : Aon → Aon) : (s.modAon f).readData = s.readData := rfl
@[simp] theorem State.modAon_mgtData (s : State) (f : Aon → Aon) : (s.modAon f).mgtData = s.mgtData := rfl
@[simp] theorem State.modAon_readUr (s : State) (f : Aon → Aon) : (s.modAon f).readUr = s.readUr := rfl
@[simp] theorem State.modAon_main (s : State) (f : Aon → Aon) : (s.modAon f).main = s.main := rfl
@[simp] theorem State.modAon_aon (s : State) (f : Aon → Aon) : (s.modAon f).aon = f s.aon := rfl

@[simp] theorem State.modMgmt_pending (s : State) (f : Mgmt → Mgmt) : (s.modMgmt f).pending = s.pending := rfl
@[simp] theorem State.modMgmt_otp (s : State) (f : Mgmt → Mgmt) : (s.modMgmt f).otp = s.otp := rfl
@[simp] theorem State.modMgmt_nv (s : State) (f : Mgmt → Mgmt) : (s.modMgmt f).nv = s.nv := rfl
@[simp] theorem State.modMgmt_slots (s : State) (f : Mgmt → Mgmt) : (s.modMgmt f).slots = s.slots := rfl
@[simp] theorem State.modMgmt_nand (s : State) (f : Mgmt → Mgmt) : (s.modMgmt f).nand = s.nand := rfl
@[simp] theorem State.modMgmt_hostMem (s : State) (f : Mgmt → Mgmt) : (s.modMgmt f).hostMem = s.hostMem := rfl
@[simp] theorem State.modMgmt_phase (s : State) (f : Mgmt → Mgmt) : (s.modMgmt f).phase = s.phase := rfl
@[simp] theorem State.modMgmt_perstLow (s : State) (f : Mgmt → Mgmt) : (s.modMgmt f).perstLow = s.perstLow := rfl
@[simp] theorem State.modMgmt_dftHigh (s : State) (f : Mgmt → Mgmt) : (s.modMgmt f).dftHigh = s.dftHigh := rfl
@[simp] theorem State.modMgmt_flrWait (s : State) (f : Mgmt → Mgmt) : (s.modMgmt f).flrWait = s.flrWait := rfl
@[simp] theorem State.modMgmt_stamp (s : State) (f : Mgmt → Mgmt) : (s.modMgmt f).stamp = s.stamp := rfl
@[simp] theorem State.modMgmt_readData (s : State) (f : Mgmt → Mgmt) : (s.modMgmt f).readData = s.readData := rfl
@[simp] theorem State.modMgmt_mgtData (s : State) (f : Mgmt → Mgmt) : (s.modMgmt f).mgtData = s.mgtData := rfl
@[simp] theorem State.modMgmt_readUr (s : State) (f : Mgmt → Mgmt) : (s.modMgmt f).readUr = s.readUr := rfl
@[simp] theorem State.modMgmt_main (s : State) (f : Mgmt → Mgmt) : (s.modMgmt f).main = s.main := rfl
@[simp] theorem State.modMgmt_aon (s : State) (f : Mgmt → Mgmt) : (s.modMgmt f).aon = { s.aon with mgmt := f s.aon.mgmt } := rfl

@[simp] theorem State.assertFault_pending (s : State) : (s.assertFault).pending = s.pending := rfl
@[simp] theorem State.assertFault_otp (s : State) : (s.assertFault).otp = s.otp := rfl
@[simp] theorem State.assertFault_nv (s : State) : (s.assertFault).nv = s.nv := rfl
@[simp] theorem State.assertFault_slots (s : State) : (s.assertFault).slots = s.slots := rfl
@[simp] theorem State.assertFault_nand (s : State) : (s.assertFault).nand = s.nand := rfl
@[simp] theorem State.assertFault_hostMem (s : State) : (s.assertFault).hostMem = s.hostMem := rfl
@[simp] theorem State.assertFault_phase (s : State) : (s.assertFault).phase = s.phase := rfl
@[simp] theorem State.assertFault_perstLow (s : State) : (s.assertFault).perstLow = s.perstLow := rfl
@[simp] theorem State.assertFault_dftHigh (s : State) : (s.assertFault).dftHigh = s.dftHigh := rfl
@[simp] theorem State.assertFault_flrWait (s : State) : (s.assertFault).flrWait = s.flrWait := rfl
@[simp] theorem State.assertFault_stamp (s : State) : (s.assertFault).stamp = s.stamp := rfl
@[simp] theorem State.assertFault_readData (s : State) : (s.assertFault).readData = s.readData := rfl
@[simp] theorem State.assertFault_mgtData (s : State) : (s.assertFault).mgtData = s.mgtData := rfl
@[simp] theorem State.assertFault_readUr (s : State) : (s.assertFault).readUr = s.readUr := rfl
@[simp] theorem State.assertFault_main (s : State) : (s.assertFault).main = s.main := rfl
@[simp] theorem State.assertFault_aon (s : State) : (s.assertFault).aon = { s.aon with faultN := true } := rfl

@[simp] theorem State.modNv_pending (s : State) (n : Fin 24) (a : Fin 32) (f : ArrayNv → ArrayNv) : (s.modNv n a f).pending = s.pending := rfl
@[simp] theorem State.modNv_otp (s : State) (n : Fin 24) (a : Fin 32) (f : ArrayNv → ArrayNv) : (s.modNv n a f).otp = s.otp := rfl
@[simp] theorem State.modNv_slots (s : State) (n : Fin 24) (a : Fin 32) (f : ArrayNv → ArrayNv) : (s.modNv n a f).slots = s.slots := rfl
@[simp] theorem State.modNv_nand (s : State) (n : Fin 24) (a : Fin 32) (f : ArrayNv → ArrayNv) : (s.modNv n a f).nand = s.nand := rfl
@[simp] theorem State.modNv_hostMem (s : State) (n : Fin 24) (a : Fin 32) (f : ArrayNv → ArrayNv) : (s.modNv n a f).hostMem = s.hostMem := rfl
@[simp] theorem State.modNv_aon (s : State) (n : Fin 24) (a : Fin 32) (f : ArrayNv → ArrayNv) : (s.modNv n a f).aon = s.aon := rfl
@[simp] theorem State.modNv_phase (s : State) (n : Fin 24) (a : Fin 32) (f : ArrayNv → ArrayNv) : (s.modNv n a f).phase = s.phase := rfl
@[simp] theorem State.modNv_perstLow (s : State) (n : Fin 24) (a : Fin 32) (f : ArrayNv → ArrayNv) : (s.modNv n a f).perstLow = s.perstLow := rfl
@[simp] theorem State.modNv_dftHigh (s : State) (n : Fin 24) (a : Fin 32) (f : ArrayNv → ArrayNv) : (s.modNv n a f).dftHigh = s.dftHigh := rfl
@[simp] theorem State.modNv_flrWait (s : State) (n : Fin 24) (a : Fin 32) (f : ArrayNv → ArrayNv) : (s.modNv n a f).flrWait = s.flrWait := rfl
@[simp] theorem State.modNv_stamp (s : State) (n : Fin 24) (a : Fin 32) (f : ArrayNv → ArrayNv) : (s.modNv n a f).stamp = s.stamp := rfl
@[simp] theorem State.modNv_readData (s : State) (n : Fin 24) (a : Fin 32) (f : ArrayNv → ArrayNv) : (s.modNv n a f).readData = s.readData := rfl
@[simp] theorem State.modNv_mgtData (s : State) (n : Fin 24) (a : Fin 32) (f : ArrayNv → ArrayNv) : (s.modNv n a f).mgtData = s.mgtData := rfl
@[simp] theorem State.modNv_readUr (s : State) (n : Fin 24) (a : Fin 32) (f : ArrayNv → ArrayNv) : (s.modNv n a f).readUr = s.readUr := rfl
@[simp] theorem State.modNv_main (s : State) (n : Fin 24) (a : Fin 32) (f : ArrayNv → ArrayNv) : (s.modNv n a f).main = s.main := rfl
@[simp] theorem State.modNv_nv (s : State) (n : Fin 24) (a : Fin 32) (f : ArrayNv → ArrayNv) : (s.modNv n a f).nv = upd s.nv n fun v => upd v a f := rfl

@[simp] theorem State.nextStamp_pending (s : State) : (s.nextStamp).pending = s.pending := rfl
@[simp] theorem State.nextStamp_otp (s : State) : (s.nextStamp).otp = s.otp := rfl
@[simp] theorem State.nextStamp_nv (s : State) : (s.nextStamp).nv = s.nv := rfl
@[simp] theorem State.nextStamp_slots (s : State) : (s.nextStamp).slots = s.slots := rfl
@[simp] theorem State.nextStamp_nand (s : State) : (s.nextStamp).nand = s.nand := rfl
@[simp] theorem State.nextStamp_hostMem (s : State) : (s.nextStamp).hostMem = s.hostMem := rfl
@[simp] theorem State.nextStamp_aon (s : State) : (s.nextStamp).aon = s.aon := rfl
@[simp] theorem State.nextStamp_phase (s : State) : (s.nextStamp).phase = s.phase := rfl
@[simp] theorem State.nextStamp_perstLow (s : State) : (s.nextStamp).perstLow = s.perstLow := rfl
@[simp] theorem State.nextStamp_dftHigh (s : State) : (s.nextStamp).dftHigh = s.dftHigh := rfl
@[simp] theorem State.nextStamp_flrWait (s : State) : (s.nextStamp).flrWait = s.flrWait := rfl
@[simp] theorem State.nextStamp_readData (s : State) : (s.nextStamp).readData = s.readData := rfl
@[simp] theorem State.nextStamp_mgtData (s : State) : (s.nextStamp).mgtData = s.mgtData := rfl
@[simp] theorem State.nextStamp_readUr (s : State) : (s.nextStamp).readUr = s.readUr := rfl
@[simp] theorem State.nextStamp_main (s : State) : (s.nextStamp).main = s.main := rfl
@[simp] theorem State.nextStamp_stamp (s : State) : (s.nextStamp).stamp = s.stamp + 1 := rfl

@[simp] theorem State.hostWrite_pending (s : State) (a : Nat) (bs : List Byte) : (s.hostWrite a bs).pending = s.pending := rfl
@[simp] theorem State.hostWrite_otp (s : State) (a : Nat) (bs : List Byte) : (s.hostWrite a bs).otp = s.otp := rfl
@[simp] theorem State.hostWrite_nv (s : State) (a : Nat) (bs : List Byte) : (s.hostWrite a bs).nv = s.nv := rfl
@[simp] theorem State.hostWrite_slots (s : State) (a : Nat) (bs : List Byte) : (s.hostWrite a bs).slots = s.slots := rfl
@[simp] theorem State.hostWrite_nand (s : State) (a : Nat) (bs : List Byte) : (s.hostWrite a bs).nand = s.nand := rfl
@[simp] theorem State.hostWrite_aon (s : State) (a : Nat) (bs : List Byte) : (s.hostWrite a bs).aon = s.aon := rfl
@[simp] theorem State.hostWrite_phase (s : State) (a : Nat) (bs : List Byte) : (s.hostWrite a bs).phase = s.phase := rfl
@[simp] theorem State.hostWrite_perstLow (s : State) (a : Nat) (bs : List Byte) : (s.hostWrite a bs).perstLow = s.perstLow := rfl
@[simp] theorem State.hostWrite_dftHigh (s : State) (a : Nat) (bs : List Byte) : (s.hostWrite a bs).dftHigh = s.dftHigh := rfl
@[simp] theorem State.hostWrite_flrWait (s : State) (a : Nat) (bs : List Byte) : (s.hostWrite a bs).flrWait = s.flrWait := rfl
@[simp] theorem State.hostWrite_stamp (s : State) (a : Nat) (bs : List Byte) : (s.hostWrite a bs).stamp = s.stamp := rfl
@[simp] theorem State.hostWrite_readData (s : State) (a : Nat) (bs : List Byte) : (s.hostWrite a bs).readData = s.readData := rfl
@[simp] theorem State.hostWrite_mgtData (s : State) (a : Nat) (bs : List Byte) : (s.hostWrite a bs).mgtData = s.mgtData := rfl
@[simp] theorem State.hostWrite_readUr (s : State) (a : Nat) (bs : List Byte) : (s.hostWrite a bs).readUr = s.readUr := rfl
@[simp] theorem State.hostWrite_main (s : State) (a : Nat) (bs : List Byte) : (s.hostWrite a bs).main = s.main := rfl
@[simp] theorem State.hostWrite_hostMem (s : State) (a : Nat) (bs : List Byte) : (s.hostWrite a bs).hostMem = s.hostMem.writeBytes a bs := rfl

@[simp] theorem State.fbEntry_pending (s : State) (a b : Nat) (d : BitVec 64) : (s.fbEntry a b d).pending = s.pending := rfl
@[simp] theorem State.fbEntry_otp (s : State) (a b : Nat) (d : BitVec 64) : (s.fbEntry a b d).otp = s.otp := rfl
@[simp] theorem State.fbEntry_nv (s : State) (a b : Nat) (d : BitVec 64) : (s.fbEntry a b d).nv = s.nv := rfl
@[simp] theorem State.fbEntry_slots (s : State) (a b : Nat) (d : BitVec 64) : (s.fbEntry a b d).slots = s.slots := rfl
@[simp] theorem State.fbEntry_nand (s : State) (a b : Nat) (d : BitVec 64) : (s.fbEntry a b d).nand = s.nand := rfl
@[simp] theorem State.fbEntry_hostMem (s : State) (a b : Nat) (d : BitVec 64) : (s.fbEntry a b d).hostMem = s.hostMem := rfl
@[simp] theorem State.fbEntry_phase (s : State) (a b : Nat) (d : BitVec 64) : (s.fbEntry a b d).phase = s.phase := rfl
@[simp] theorem State.fbEntry_perstLow (s : State) (a b : Nat) (d : BitVec 64) : (s.fbEntry a b d).perstLow = s.perstLow := rfl
@[simp] theorem State.fbEntry_dftHigh (s : State) (a b : Nat) (d : BitVec 64) : (s.fbEntry a b d).dftHigh = s.dftHigh := rfl
@[simp] theorem State.fbEntry_flrWait (s : State) (a b : Nat) (d : BitVec 64) : (s.fbEntry a b d).flrWait = s.flrWait := rfl
@[simp] theorem State.fbEntry_stamp (s : State) (a b : Nat) (d : BitVec 64) : (s.fbEntry a b d).stamp = s.stamp := rfl
@[simp] theorem State.fbEntry_readData (s : State) (a b : Nat) (d : BitVec 64) : (s.fbEntry a b d).readData = s.readData := rfl
@[simp] theorem State.fbEntry_mgtData (s : State) (a b : Nat) (d : BitVec 64) : (s.fbEntry a b d).mgtData = s.mgtData := rfl
@[simp] theorem State.fbEntry_readUr (s : State) (a b : Nat) (d : BitVec 64) : (s.fbEntry a b d).readUr = s.readUr := rfl
@[simp] theorem State.fbEntry_main (s : State) (a b : Nat) (d : BitVec 64) : (s.fbEntry a b d).main = s.main := rfl

/-! ## Conditions -/

/-- A command whose condition holds. -/
@[simp] theorem State.when_true (s : State) (f : State → State) : s.when true f = f s := rfl

/-- A command whose condition fails changes nothing. -/
@[simp] theorem State.when_false (s : State) (f : State → State) : s.when false f = s := rfl

/-- What holds of the state and of the effect holds after a command under a condition. -/
theorem State.when_cases {P : State → Prop} (s : State) (c : Bool) (f : State → State)
    (h0 : c = false → P s) (h1 : c = true → P (f s)) : P (s.when c f) := by
  cases c
  · exact h0 rfl
  · exact h1 rfl

/-- A step takes the front of the queue alone. -/
theorem State.pending_main (s : State) (l : List Instr) : ({ s with pending := l } : State).main = s.main := rfl

end Sys2Proof.Machine
end

