-- ==== Sys2Proof/Laws/Issue.lean ====
section
/-!
SUPPORT. What issue does with an instruction that nothing holds back (R104), and what a station's registers read after a
write (R100).
-/

namespace Sys2Proof.Machine

/-- The lowest of no reasons. -/
@[simp] theorem minOpt_nil : minOpt [] = none := rfl

/-- A condition that does not hold gives no reason. -/
theorem reasonIf_false {c : Bool} {r : Nat} (h : c = false) : reasonIf c r = [] := by subst h; rfl

/-- A condition that holds gives its reason. -/
theorem reasonIf_true {c : Bool} {r : Nat} (h : c = true) : reasonIf c r = [r] := by subst h; rfl

/-- A field of zeros gives no reason. -/
@[simp] theorem reserved_zero : reserved 0 = [] := rfl

/-- A register field in its range gives no reason. -/
theorem regBelow_of_lt {x b : Nat} (h : x < b) : regBelow x b = [] := by
  unfold regBelow; exact reasonIf_false (by simpa using h)

/-- Nothing waits in an empty list of registers with a pending write. -/
theorem any_pending_false {rs ps : List Nat} (h : ∀ r ∈ rs, r ∉ ps) : (rs.any fun r => ps.contains r) = false := by
  simpa using h

/-- Two changes of one station. -/
theorem State.modStation_modStation (s : State) (n : Fin 24) (f g : Station → Station) :
    (s.modStation n f).modStation n g = s.modStation n fun t => g (f t) := by
  simp [State.modStation, State.modMain, upd_upd]

/-- A station after a change of it. -/
theorem State.modStation_station_same (s : State) (n : Fin 24) (f : Station → Station) :
    (s.modStation n f).station n = f (s.station n) := by
  simp [State.station]

/-- Another station after a change of one. -/
theorem State.modStation_station_ne {s : State} {n m : Fin 24} (h : m ≠ n) (f : Station → Station) :
    (s.modStation n f).station m = s.station m := by
  simp only [State.station, State.modStation_main]
  exact upd_get_ne _ _ (Ne.symm h)

/-- The epoch of a station's work does not depend on what issue notes of its waits. -/
theorem State.tagOf_stalls (s : State) (n : Fin 24) (w : List Stall) :
    (s.modStation n fun t => { t with stalls := w }).tagOf n = s.tagOf n := by
  unfold State.tagOf
  rw [State.modStation_station_same]
  rfl

/-- A wait where the condition does not hold. -/
@[simp] theorem stallIf_false (w : Stall) : stallIf false w = [] := rfl

/-- A wait where the condition holds. -/
@[simp] theorem stallIf_true (w : Stall) : stallIf true w = [w] := rfl

/-- An instruction that issues waits for nothing (R93, R94, R104). -/
theorem State.waitsFor_issues {s : State} {n : Fin 24} {need : Need} (h : s.issues n need) : s.waitsFor n need = [] := by
  obtain ⟨-, -, -, -, -, -, -, -, h9, h10, h11⟩ := h
  have e1 : (match need.range with | some r => (s.station n).board.any r.waits | none => false) = false := by
    cases hr : need.range with
    | none => rfl
    | some r => simpa using (h9 r hr).1
  have e2 : (need.range.isSome && decide (32 ≤ (s.station n).board.length)) = false := by
    cases hr : need.range with
    | none => rfl
    | some r => simpa using (h9 r hr).2
  have e3 : (need.held && decide (64 ≤ (s.ctx (s.station n).ctx).held.length)) = false := by
    cases hh : need.held with
    | false => rfl
    | true => simpa using h10 hh
  unfold State.waitsFor
  dsimp only
  rw [e2, e3, h11]
  simp only [stallIf_false, List.append_nil]
  exact (congrArg (stallIf · .overlap) e1).trans (stallIf_false _)

/-- An instruction that issues takes its effect (R104). -/
theorem State.issue_go {s : State} {n : Fin 24} {need : Need} (h : s.issues n need) (word : BitVec 64) (go : State → State) :
    s.issue n word need go = go (s.modStation n fun t => { t with stalls := [] }) := by
  have hw := State.waitsFor_issues h
  obtain ⟨h1, h2, h3, h4, h5, h6, h7, h8, -⟩ := h
  unfold State.issue
  simp only [h1, h2, any_pending_false h3, any_pending_false h4, h5, h6, h7, h8, minOpt_nil, hw, List.isEmpty_nil,
    Bool.not_true, Bool.or_self, Bool.false_eq_true, if_false, if_true]

/-- A scalar instruction that issues (R108). -/
theorem State.issueScalar_go {s : State} {n : Fin 24} {need : Need} (h : s.issues n need) (word : BitVec 64)
    (f : Station → Station) : s.issueScalar n word need f = s.ran n f := by
  unfold State.issueScalar State.ran
  rw [State.issue_go h]
  rw [State.modStation_modStation]

/-- An instruction of an engine that issues (R104). -/
theorem State.issueEngine_go {s : State} {n : Fin 24} {e : Engine} {need : Need} {i : Issued}
    (h : s.issues n (s.inQueue n e need)) : s.issueEngine n e need i = s.queued n e need.range i := by
  unfold State.issueEngine State.queued
  have h' : s.issues n { need with full := 4 ≤ ((s.station n).queueOf e).length } := h
  dsimp only
  rw [State.issue_go h']
  rw [State.modStation_modStation, State.tagOf_stalls]

/-- A taken branch that issues (R143). -/
theorem State.takeBranch_go {s : State} {n : Fin 24} {need : Need} {target : Nat}
    (h : s.issues n { need with bound := s.targetBound n target }) (word : BitVec 64) (f : Station → Station) :
    s.takeBranch n word need target f = s.jumped n target f := by
  unfold State.takeBranch State.jumped
  rw [State.issue_go h, State.modStation_modStation]

/-! ## Registers (R100) -/

/-- g0 reads as zero. -/
@[simp] theorem Station.rg_zero (t : Station) : t.rg 0 = 0 := rfl

/-- p0 reads as all ones. -/
@[simp] theorem Station.rp_zero (t : Station) : t.rp 0 = BitVec.allOnes 256 := rfl

/-- A write of g0 is discarded. -/
@[simp] theorem Station.wg_zero (t : Station) (v : BitVec 64) : t.wg 0 v = t := rfl

/-- A write of p0 is discarded. -/
@[simp] theorem Station.wp_zero (t : Station) (v : BitVec 256) : t.wp 0 v = t := rfl

/-- A g register read after a write. -/
theorem Station.rg_wg {t : Station} {r k : Nat} (hr : r < 32) (hk : k < 32) (v : BitVec 64) :
    (t.wg r v).rg k = if k = r ∧ r ≠ 0 then v else t.rg k := by
  unfold Station.wg Station.rg
  by_cases h0 : r = 0
  · simp [h0]
  · by_cases hk0 : k = 0
    · subst hk0
      have : ¬ (0 = r) := fun e => h0 e.symm
      simp [h0, this]
    · simp only [h0, hk0, if_false, Vector.getD]
      by_cases e : k = r
      · subst e; simp [h0, Nat.not_le.mpr hk]
      · have e' : ¬ r = k := fun x => e x.symm
        simp [e, e']

end Sys2Proof.Machine
end

