-- ==== Sys2Proof/Laws/Memory.lean ====
section
/-!
SUPPORT. The laws of a Memory: which addresses are known after a write, every operation keeps the canonical form, a read
after a write answers what was written, and a write leaves every other address alone.
-/

namespace Sys2Proof.Machine

/-! ## Ranges -/

/-- The first range of a list begins above a bound. -/
def startsAbove (lo : Nat) : List (Nat × Nat) → Prop
  | [] => True
  | r :: _ => lo < r.1

/-- The canonical form of a list of ranges, by its first range. -/
theorem rangesWf_cons {a b : Nat} {t : List (Nat × Nat)} :
    rangesWf ((a, b) :: t) = true ↔ a < b ∧ startsAbove b t ∧ rangesWf t = true := by
  cases t with
  | nil => simp [rangesWf, startsAbove]
  | cons r t => obtain ⟨c, d⟩ := r; simp [rangesWf, startsAbove, and_assoc]

/-- A bound below the first range of a list may be lowered. -/
theorem startsAbove_le {x y : Nat} {ks : List (Nat × Nat)} (h : startsAbove y ks) (hxy : x ≤ y) : startsAbove x ks := by
  cases ks with
  | nil => trivial
  | cons r t => exact Nat.lt_of_le_of_lt hxy h

/-- Adding a range keeps the canonical form, and what lies below all of it. -/
theorem addRange_wf {ks : List (Nat × Nat)} {lo hi : Nat} (hw : rangesWf ks = true) (hl : lo < hi) :
    rangesWf (addRange lo hi ks) = true ∧ ∀ x, startsAbove x ks → x < lo → startsAbove x (addRange lo hi ks) := by
  induction ks generalizing lo hi with
  | nil => exact ⟨by simp [addRange, rangesWf, hl], fun x _ h => h⟩
  | cons r t ih =>
    obtain ⟨a, b⟩ := r
    obtain ⟨hab, hb, ht⟩ := rangesWf_cons.mp hw
    simp only [addRange]
    split
    · exact ⟨rangesWf_cons.mpr ⟨hl, by assumption, hw⟩, fun x _ h => h⟩
    split
    · have := ih ht hl
      exact ⟨rangesWf_cons.mpr ⟨hab, this.2 b hb (by assumption), this.1⟩, fun x h _ => h⟩
    · have := ih (lo := min lo a) (hi := max hi b) ht (by omega)
      refine ⟨this.1, fun x h hx => this.2 x (startsAbove_le hb ?_) ?_⟩ <;> simp only [startsAbove] at h <;> omega

/-- The addresses covered after a range was added: those of the range and those covered before. -/
theorem covers_addRange {ks : List (Nat × Nat)} {lo hi : Nat} (hw : rangesWf ks = true) (hl : lo < hi) (y : Nat) :
    covers (addRange lo hi ks) y = true ↔ (lo ≤ y ∧ y < hi) ∨ covers ks y = true := by
  induction ks generalizing lo hi with
  | nil => simp [addRange, covers]
  | cons r t ih =>
    obtain ⟨a, b⟩ := r
    obtain ⟨hab, hb, ht⟩ := rangesWf_cons.mp hw
    simp only [addRange]
    have hc : covers ((a, b) :: t) y = true ↔ (a ≤ y ∧ y < b) ∨ covers t y = true := by simp [covers]
    split
    · simp [covers]
    split
    · have := ih ht hl
      have hd : covers ((a, b) :: addRange lo hi t) y = true ↔ (a ≤ y ∧ y < b) ∨ covers (addRange lo hi t) y = true := by
        simp [covers]
      rw [hd, hc, this, or_left_comm]
    · have := ih (lo := min lo a) (hi := max hi b) ht (by omega)
      rw [this, hc]
      have : (min lo a ≤ y ∧ y < max hi b) ↔ (lo ≤ y ∧ y < hi) ∨ (a ≤ y ∧ y < b) := by omega
      rw [this, or_assoc]

/-! ## Cells -/

/-- The cells rise, every one above the one before. -/
theorem cellsRise_iff (cs : List Host.Cell) : cellsRise cs = true ↔ cs.Pairwise (fun c d => c.1 < d.1) := by
  induction cs with
  | nil => simp [cellsRise]
  | cons c t ih =>
    cases t with
    | nil => simp [cellsRise]
    | cons d t =>
      simp only [cellsRise, Bool.and_eq_true, decide_eq_true_eq, ih, List.pairwise_cons]
      constructor
      · rintro ⟨h, h1, h2⟩
        refine ⟨fun e he => ?_, h1, h2⟩
        rcases List.mem_cons.mp he with rfl | he
        · exact h
        · exact Nat.lt_trans h (h1 e he)
      · rintro ⟨h, h1, h2⟩
        exact ⟨h d (by simp), h1, h2⟩

/-- The cells that a list of bytes gives: in the range, none zero, rising. -/
theorem cellsOf_mem {bs : List Byte} {lo : Nat} {c : Host.Cell} (h : c ∈ cellsOf lo bs) :
    lo ≤ c.1 ∧ c.1 < lo + bs.length ∧ c.2 ≠ 0 := by
  induction bs generalizing lo with
  | nil => simp [cellsOf] at h
  | cons b bs ih =>
    simp only [cellsOf] at h
    split at h
    · have := ih h; simp only [List.length_cons]; exact ⟨by omega, by omega, this.2.2⟩
    · rcases List.mem_cons.mp h with rfl | h
      · simp only [List.length_cons]; exact ⟨by omega, by omega, by assumption⟩
      · have := ih h; simp only [List.length_cons]; exact ⟨by omega, by omega, this.2.2⟩

/-- The cells that a list of bytes gives rise. -/
theorem cellsOf_rise (bs : List Byte) (lo : Nat) : (cellsOf lo bs).Pairwise (fun c d => c.1 < d.1) := by
  induction bs generalizing lo with
  | nil => simp [cellsOf]
  | cons b bs ih =>
    simp only [cellsOf]
    split
    · exact ih _
    · exact List.pairwise_cons.mpr ⟨fun c h => (cellsOf_mem h).1, ih _⟩

/-- The cells after a write, and after a fill with zero, rise. -/
theorem splice_rise {cs mid : List Host.Cell} {lo hi : Nat} (hc : cs.Pairwise (fun c d => c.1 < d.1))
    (hm : mid.Pairwise (fun c d => c.1 < d.1)) (hb : ∀ c ∈ mid, lo ≤ c.1 ∧ c.1 < hi) (hl : lo ≤ hi) :
    (cellsBelow cs lo ++ mid ++ cellsFrom cs hi).Pairwise (fun c d => c.1 < d.1) := by
  rw [List.append_assoc, List.pairwise_append, List.pairwise_append]
  refine ⟨hc.filter _, ⟨hm, hc.filter _, ?_⟩, ?_⟩
  · intro c h d h'
    have := hb c h
    simp only [cellsFrom, List.mem_filter, decide_eq_true_eq] at h'
    omega
  · intro c h d h'
    simp only [cellsBelow, List.mem_filter, decide_eq_true_eq] at h
    rcases List.mem_append.mp h' with h' | h'
    · have := hb d h'; omega
    · simp only [cellsFrom, List.mem_filter, decide_eq_true_eq] at h'; omega

/-- The canonical form, part by part. -/
theorem Memory.wf_iff (m : Memory) : m.wf = true ↔
    rangesWf m.known = true ∧ m.cells.Pairwise (fun c d => c.1 < d.1) ∧ ∀ c ∈ m.cells, c.2 ≠ 0 ∧ covers m.known c.1 = true := by
  simp [Memory.wf, cellsRise_iff, and_assoc]

/-- A splice of cells into a range keeps the canonical form. -/
theorem Memory.splice_wf {m : Memory} (hw : m.wf = true) {lo hi : Nat} (hl : lo < hi) {mid : List Host.Cell}
    (hm : mid.Pairwise (fun c d => c.1 < d.1)) (hb : ∀ c ∈ mid, lo ≤ c.1 ∧ c.1 < hi ∧ c.2 ≠ 0) :
    Memory.wf { m with known := addRange lo hi m.known, cells := cellsBelow m.cells lo ++ mid ++ cellsFrom m.cells hi } = true := by
  obtain ⟨h1, h2, h3⟩ := m.wf_iff.mp hw
  refine (Memory.wf_iff _).mpr ⟨(addRange_wf h1 hl).1, splice_rise h2 hm (fun c h => ⟨(hb c h).1, (hb c h).2.1⟩) (by omega), ?_⟩
  intro c hc
  simp only [List.mem_append, cellsBelow, cellsFrom, List.mem_filter] at hc
  rcases hc with (hc | hc) | hc
  · exact ⟨(h3 c hc.1).1, (covers_addRange h1 hl _).mpr (.inr (h3 c hc.1).2)⟩
  · exact ⟨(hb c hc).2.2, (covers_addRange h1 hl _).mpr (.inl ⟨(hb c hc).1, (hb c hc).2.1⟩)⟩
  · exact ⟨(h3 c hc.1).1, (covers_addRange h1 hl _).mpr (.inr (h3 c hc.1).2)⟩

/-! ## Every operation keeps the canonical form -/

/-- A memory with undefined contents. -/
@[simp] theorem Memory.wf_empty (stamp : Nat) : Memory.wf { stamp := stamp } = true := by
  simp [Memory.wf, rangesWf, cellsRise]

/-- Losing the contents. -/
@[simp] theorem Memory.wf_undefined (stamp : Nat) : (Memory.undefined stamp).wf = true := Memory.wf_empty stamp

/-- A write of bytes. -/
@[simp] theorem Memory.wf_writeBytes {m : Memory} (h : m.wf = true) (a : Nat) (bs : List Byte) : (m.writeBytes a bs).wf = true := by
  unfold Memory.writeBytes
  split
  · exact h
  · have : 0 < bs.length := List.length_pos_iff.mpr (by assumption)
    exact Memory.splice_wf h (by omega) (cellsOf_rise _ _) (fun c hc => cellsOf_mem hc)

/-- A write of one byte. -/
@[simp] theorem Memory.wf_write {m : Memory} (h : m.wf = true) (a : Nat) (b : Byte) : (m.write a b).wf = true :=
  Memory.wf_writeBytes h a [b]

/-- A fill with zero. -/
@[simp] theorem Memory.wf_zeroFill {m : Memory} (h : m.wf = true) (a n : Nat) : (m.zeroFill a n).wf = true := by
  unfold Memory.zeroFill
  split
  · exact h
  · have := Memory.splice_wf h (lo := a) (hi := a + n) (by omega) (mid := []) (by simp) (by simp)
    simpa using this

/-! ## Reads after writes -/

/-- The cell at an address among rising cells, where there is one. -/
theorem find_cell {cs : List Host.Cell} (hp : cs.Pairwise (fun c d => c.1 < d.1)) {c : Host.Cell} (h : c ∈ cs) :
    cs.find? (fun d => d.1 == c.1) = some c := by
  induction cs with
  | nil => simp at h
  | cons d t ih =>
    obtain ⟨h1, h2⟩ := List.pairwise_cons.mp hp
    rcases List.mem_cons.mp h with rfl | h
    · simp
    · have : d.1 ≠ c.1 := Nat.ne_of_lt (h1 c h)
      simp [this, ih h2 h]

/-- The cell at an address of a list of bytes. -/
theorem cellsOf_find (bs : List Byte) (lo i : Nat) (hi : i < bs.length) :
    (cellsOf lo bs).find? (fun c => c.1 == lo + i) = if bs[i] = 0 then none else some (lo + i, bs[i]) := by
  induction bs generalizing lo i with
  | nil => simp at hi
  | cons b bs ih =>
    cases i with
    | zero =>
      simp only [cellsOf, List.getElem_cons_zero, Nat.add_zero]
      split
      · rw [List.find?_eq_none]
        intro c hc
        have := cellsOf_mem hc
        simp; omega
      · simp
    | succ i =>
      simp only [cellsOf, List.getElem_cons_succ]
      have e : lo + (i + 1) = lo + 1 + i := by omega
      rw [e]
      split
      · exact ih _ _ (by simpa using hi)
      · have hb : (lo == lo + 1 + i) = false := by simp; omega
        simp only [List.find?_cons, hb]
        exact ih _ _ (by simpa using hi)

/-- The cell at an address outside a spliced range is the one before. -/
theorem splice_find_out (cs mid : List Host.Cell) {lo hi a : Nat} (hb : ∀ c ∈ mid, lo ≤ c.1 ∧ c.1 < hi)
    (ha : a < lo ∨ hi ≤ a) (hp : cs.Pairwise (fun c d => c.1 < d.1)) :
    (cellsBelow cs lo ++ mid ++ cellsFrom cs hi).find? (fun c => c.1 == a) = cs.find? (fun c => c.1 == a) := by
  by_cases h : ∃ c ∈ cs, c.1 = a
  · obtain ⟨c, hc, rfl⟩ := h
    rw [find_cell hp hc]
    have hm : c ∈ cellsBelow cs lo ++ mid ++ cellsFrom cs hi := by
      simp only [List.mem_append, cellsBelow, cellsFrom, List.mem_filter, decide_eq_true_eq, hc, true_and]
      omega
    by_cases h1 : c.1 < lo
    · have : c ∈ cellsBelow cs lo := by simp [cellsBelow, hc, h1]
      have hf : (cellsBelow cs lo).find? (fun d => d.1 == c.1) = some c := find_cell (hp.filter _) this
      rw [List.append_assoc, List.find?_append, hf]; rfl
    · have h2 : hi ≤ c.1 := by omega
      have hc' : c ∈ cellsFrom cs hi := by simp [cellsFrom, hc, h2]
      rw [List.find?_append]
      have : (cellsBelow cs lo ++ mid).find? (fun d => d.1 == c.1) = none := by
        rw [List.find?_eq_none]
        intro d hd
        rcases List.mem_append.mp hd with hd | hd
        · simp only [cellsBelow, List.mem_filter, decide_eq_true_eq] at hd; simp; omega
        · have := hb d hd; simp; omega
      have hf : (cellsFrom cs hi).find? (fun d => d.1 == c.1) = some c := find_cell (hp.filter _) hc'
      rw [this, hf]; rfl
  · have e1 : cs.find? (fun c => c.1 == a) = none := by
      rw [List.find?_eq_none]; intro c hc; simp only [beq_iff_eq]; exact fun e => h ⟨c, hc, e⟩
    rw [e1, List.find?_eq_none]
    intro c hc
    simp only [List.mem_append, cellsBelow, cellsFrom, List.mem_filter] at hc
    simp only [beq_iff_eq]
    rcases hc with (hc | hc) | hc
    · exact fun e => h ⟨c, hc.1, e⟩
    · have := hb c hc; omega
    · exact fun e => h ⟨c, hc.1, e⟩

/-- A write leaves every address outside its bytes as it was. -/
theorem Memory.read_writeBytes_out {m : Memory} (hw : m.wf = true) {a x : Nat} {bs : List Byte}
    (hx : x < a ∨ a + bs.length ≤ x) : (m.writeBytes a bs).read x = m.read x := by
  obtain ⟨h1, h2, -⟩ := m.wf_iff.mp hw
  unfold Memory.writeBytes
  split
  · rfl
  · have hl : 0 < bs.length := List.length_pos_iff.mpr (by assumption)
    have hf := splice_find_out m.cells (cellsOf a bs) (lo := a) (hi := a + bs.length)
      (fun c hc => ⟨(cellsOf_mem hc).1, (cellsOf_mem hc).2.1⟩) hx h2
    have hk : covers (addRange a (a + bs.length) m.known) x = covers m.known x := by
      rw [Bool.eq_iff_iff, covers_addRange h1 (by omega)]
      constructor
      · rintro (h | h)
        · omega
        · exact h
      · exact .inr
    simp only [Memory.read, hf, hk]

/-- A read of what a write wrote. -/
theorem Memory.read_writeBytes_in {m : Memory} (hw : m.wf = true) {a i : Nat} {bs : List Byte} (hi : i < bs.length) :
    (m.writeBytes a bs).read (a + i) = bs[i] := by
  obtain ⟨h1, h2, -⟩ := m.wf_iff.mp hw
  unfold Memory.writeBytes
  split
  · subst bs; simp at hi
  · have hl : 0 < bs.length := by omega
    have hk : covers (addRange a (a + bs.length) m.known) (a + i) = true :=
      (covers_addRange h1 (by omega) _).mpr (.inl (by omega))
    have hb : (cellsBelow m.cells a).find? (fun c => c.1 == a + i) = none := by
      rw [List.find?_eq_none]; intro c hc
      simp only [cellsBelow, List.mem_filter, decide_eq_true_eq] at hc; simp; omega
    have hf : (cellsFrom m.cells (a + bs.length)).find? (fun c => c.1 == a + i) = none := by
      rw [List.find?_eq_none]; intro c hc
      simp only [cellsFrom, List.mem_filter, decide_eq_true_eq] at hc; simp; omega
    simp only [Memory.read, List.find?_append, hb, hf, cellsOf_find bs a i hi, hk]
    by_cases hz : bs[i] = 0
    · simp [hz]
    · rw [if_neg hz]; rfl

/-- A fill leaves every address outside it as it was. -/
theorem Memory.read_zeroFill_out {m : Memory} (hw : m.wf = true) {a n x : Nat} (hx : x < a ∨ a + n ≤ x) :
    (m.zeroFill a n).read x = m.read x := by
  obtain ⟨h1, h2, -⟩ := m.wf_iff.mp hw
  unfold Memory.zeroFill
  split
  · rfl
  · have hf := splice_find_out m.cells [] (lo := a) (hi := a + n) (by simp) hx h2
    rw [List.append_nil] at hf
    have hk : covers (addRange a (a + n) m.known) x = covers m.known x := by
      rw [Bool.eq_iff_iff, covers_addRange h1 (by omega)]
      constructor
      · rintro (h | h)
        · omega
        · exact h
      · exact .inr
    simp only [Memory.read, hf, hk]

/-- A read of what was filled with zero. -/
theorem Memory.read_zeroFill_in {m : Memory} (hw : m.wf = true) {a n x : Nat} (h0 : a ≤ x) (h1 : x < a + n) :
    (m.zeroFill a n).read x = 0 := by
  obtain ⟨hk, -, -⟩ := m.wf_iff.mp hw
  unfold Memory.zeroFill
  split
  · omega
  · have hc : covers (addRange a (a + n) m.known) x = true := (covers_addRange hk (by omega) _).mpr (.inl ⟨h0, h1⟩)
    have hf : (cellsBelow m.cells a ++ cellsFrom m.cells (a + n)).find? (fun c => c.1 == x) = none := by
      rw [List.find?_eq_none]; intro c hc
      simp only [List.mem_append, cellsBelow, cellsFrom, List.mem_filter, decide_eq_true_eq] at hc
      simp; omega
    simp [Memory.read, hf, hc]

/-- Bytes read back from where they were written. -/
theorem Memory.readBytes_writeBytes {m : Memory} (hw : m.wf = true) (a : Nat) (bs : List Byte) :
    (m.writeBytes a bs).readBytes a bs.length = bs := by
  apply List.ext_getElem
  · simp [Memory.readBytes]
  · intro i h1 h2
    simp [Memory.readBytes, Memory.read_writeBytes_in hw h2]

end Sys2Proof.Machine
end

