-- ==== Sys2Proof/Laws/Kept.lean ====
section
/-!
SUPPORT. What every operation keeps: the canonical form of every memory, that the fuses burn only while they are blank,
what manufacture wrote, and the maker's key hash once it is written (Kept). This file holds the relation and its rules for
the operations that change one part of the state.
-/

namespace Sys2Proof.Machine

/-- What a change of state keeps. -/
@[irreducible] def Kept (s t : State) : Prop :=
  (s.memWf = true → t.memWf = true) ∧ (s.otpSafe = true → t.otpSafe = true) ∧ t.otp.made = s.otp.made ∧
    (s.otpSafe = true → s.otp.pmkState ≠ 0 → t.otp = s.otp)

/-- The parts of Kept. -/
theorem Kept.iff (s t : State) : Kept s t ↔
    (s.memWf = true → t.memWf = true) ∧ (s.otpSafe = true → t.otpSafe = true) ∧ t.otp.made = s.otp.made ∧
      (s.otpSafe = true → s.otp.pmkState ≠ 0 → t.otp = s.otp) := by unfold Kept; exact Iff.rfl

/-- No change. -/
theorem Kept.refl (s : State) : Kept s s := (Kept.iff s s).mpr ⟨id, id, rfl, fun _ _ => rfl⟩

/-- One change after another. -/
theorem Kept.trans {a b c : State} (h : Kept a b) (k : Kept b c) : Kept a c := by
  obtain ⟨h1, h2, h3, h4⟩ := (Kept.iff _ _).mp h
  obtain ⟨k1, k2, k3, k4⟩ := (Kept.iff _ _).mp k
  refine (Kept.iff _ _).mpr ⟨k1 ∘ h1, k2 ∘ h2, k3.trans h3, fun hs hp => ?_⟩
  have e := h4 hs hp
  rw [k4 (h2 hs) (by rw [e]; exact hp), e]

/-- The canonical form of every memory, part by part. -/
theorem State.memWf_iff (s : State) : s.memWf = true ↔
    s.nand.wf = true ∧ s.hostMem.wf = true ∧ s.main.shm.mem.wf = true ∧ (∀ n : Fin 24, (s.main.stations[n]).memWf = true) ∧
      ∀ (n : Fin 24) (a : Fin 32), (s.nv[n][a]).image.wf = true := by
  simp only [State.memWf, Bool.and_eq_true, and_assoc, Fin.forall_iff, Fin.getElem_fin]
  simp

/-- A state that has the same memories and fuses as another. -/
theorem Kept.parts {s0 s t : State} (h : Kept s0 s) (e1 : t.otp = s.otp) (e2 : t.nand = s.nand) (e3 : t.hostMem = s.hostMem)
    (e4 : t.main.shm.mem = s.main.shm.mem) (e5 : t.main.stations = s.main.stations) (e6 : t.nv = s.nv)
    (e7 : t.main.idk.burnBusy = s.main.idk.burnBusy) : Kept s0 t := by
  refine h.trans <| (Kept.iff _ _).mpr ⟨?_, ?_, by rw [e1], fun _ _ => e1⟩
  · rw [State.memWf_iff, State.memWf_iff, e2, e3, e4, e5, e6]; exact id
  · simp only [State.otpSafe, e1, e7]; exact id

/-- Fields that hold neither a memory nor a fuse. -/
theorem Kept.rest {s0 s : State} (h : Kept s0 s) {pending : List Instr} {slots : Vector (List Byte) 16} {aon : Aon}
    {phase : Phase} {perstLow dftHigh : Bool} {flrWait : Option BootInputs} {stamp : Nat} {readData : List Byte}
    {readUr : Bool} {mgtData : List Byte} :
    Kept s0 { pending := pending, otp := s.otp, nv := s.nv, slots := slots, nand := s.nand, hostMem := s.hostMem, aon := aon,
              phase := phase, perstLow := perstLow, dftHigh := dftHigh, flrWait := flrWait, stamp := stamp,
              readData := readData, readUr := readUr, mgtData := mgtData, main := s.main } := h.parts rfl rfl rfl rfl rfl rfl rfl

/-- An operation repeated over a list. -/
theorem Kept.foldl {α : Type} {s0 s : State} {f : State → α → State} (l : List α) (h : Kept s0 s)
    (hf : ∀ s a, Kept s0 s → Kept s0 (f s a)) : Kept s0 (l.foldl f s) := by
  induction l generalizing s with
  | nil => exact h
  | cons a l ih => exact ih (hf s a h)

/-- A change of the main domain. -/
theorem State.modMain_kept {s0 s : State} (h : Kept s0 s) {f : Main → Main} (e4 : (f s.main).shm.mem = s.main.shm.mem)
    (e5 : (f s.main).stations = s.main.stations) (e7 : (f s.main).idk.burnBusy = s.main.idk.burnBusy) :
    Kept s0 (s.modMain f) := h.parts rfl rfl rfl e4 e5 rfl e7

/-- A change of the main domain that reaches the stations. -/
theorem State.modMain_stations_kept {s0 s : State} (h : Kept s0 s) {f : Main → Main} (e4 : (f s.main).shm.mem = s.main.shm.mem)
    (e5 : (∀ n : Fin 24, (s.main.stations[n]).memWf = true) → ∀ n : Fin 24, ((f s.main).stations[n]).memWf = true)
    (e7 : (f s.main).idk.burnBusy = s.main.idk.burnBusy) : Kept s0 (s.modMain f) := by
  refine h.trans <| (Kept.iff _ _).mpr ⟨?_, ?_, rfl, fun _ _ => rfl⟩
  · rw [State.memWf_iff, State.memWf_iff]
    rintro ⟨h1, h2, h3, h4, h5⟩
    exact ⟨h1, h2, by rw [State.modMain_main, e4]; exact h3, e5 h4, h5⟩
  · simp only [State.otpSafe, State.modMain_main, State.modMain_otp, e7]; exact id

/-- A change of the main domain that makes every station anew. -/
theorem State.modMain_ofFn_kept {s0 s : State} (h : Kept s0 s) {f : Main → Main} {g : Fin 24 → Station}
    (e : (f s.main).stations = Vector.ofFn g)
    (hg : ∀ n : Fin 24, (s.main.stations[n]).memWf = true → (g n).memWf = true)
    (e4 : (f s.main).shm.mem = s.main.shm.mem) (e7 : (f s.main).idk.burnBusy = s.main.idk.burnBusy) :
    Kept s0 (s.modMain f) := by
  refine State.modMain_stations_kept h e4 (fun hs n => ?_) e7
  rw [e]
  simpa using hg n (hs n)

/-- What decides the canonical form of a station's memories. -/
abbrev Station.mems (t : Station) : List Memory := [t.mem, t.bufA, t.bufB, t.acc, t.vec, t.qnt, t.arr, t.maa, t.latches]

/-- The canonical form of a station's memories, as a list. -/
theorem Station.memWf_eq (t : Station) : t.memWf = t.mems.all Memory.wf := by
  simp [Station.memWf, Station.mems, Bool.and_assoc]

/-- A station that has the same memories as another. -/
theorem Station.memWf_of {t u : Station} (h : t.memWf = true) (e : u.mems = t.mems) : u.memWf = true := by
  rw [Station.memWf_eq, e, ← Station.memWf_eq]; exact h

/-- An operation on a station repeated over a list. -/
theorem Station.foldl_memWf {α : Type} {t : Station} {f : Station → α → Station} (l : List α) (h : t.memWf = true)
    (hf : ∀ t a, t.memWf = true → (f t a).memWf = true) : (l.foldl f t).memWf = true := by
  induction l generalizing t with
  | nil => exact h
  | cons a l ih => exact ih (hf t a h)

/-- A change of one station. -/
theorem State.modStation_kept {s0 s : State} (h : Kept s0 s) {n : Fin 24} {f : Station → Station}
    (hf : ∀ t, t.memWf = true → (f t).memWf = true) : Kept s0 (s.modStation n f) := by
  refine State.modMain_stations_kept h rfl (fun hs k => ?_) rfl
  rw [upd_get]
  split
  · exact hf _ (hs k)
  · exact hs k

/-! ## Parts without memories -/

theorem State.modGlb_kept {s0 s : State} (h : Kept s0 s) {f : Glb → Glb} : Kept s0 (s.modGlb f) :=
  h.parts rfl rfl rfl rfl rfl rfl rfl
theorem State.modPwr_kept {s0 s : State} (h : Kept s0 s) {f : Power → Power} : Kept s0 (s.modPwr f) :=
  h.parts rfl rfl rfl rfl rfl rfl rfl
theorem State.modMsix_kept {s0 s : State} (h : Kept s0 s) {f : Msix → Msix} : Kept s0 (s.modMsix f) :=
  h.parts rfl rfl rfl rfl rfl rfl rfl
theorem State.modPcie_kept {s0 s : State} (h : Kept s0 s) {f : Pcie → Pcie} : Kept s0 (s.modPcie f) :=
  h.parts rfl rfl rfl rfl rfl rfl rfl
theorem State.setLink_kept {s0 s : State} (h : Kept s0 s) {l : LinkState} : Kept s0 (s.setLink l) :=
  h.parts rfl rfl rfl rfl rfl rfl rfl
theorem State.modQueue_kept {s0 s : State} (h : Kept s0 s) {q : Fin 16} {f : Queue → Queue} : Kept s0 (s.modQueue q f) :=
  h.parts rfl rfl rfl rfl rfl rfl rfl
theorem State.modCtx_kept {s0 s : State} (h : Kept s0 s) {c : Fin 8} {f : Ctx → Ctx} : Kept s0 (s.modCtx c f) :=
  h.parts rfl rfl rfl rfl rfl rfl rfl
theorem State.modChan_kept {s0 s : State} (h : Kept s0 s) {ch : Fin 16} {f : Chan → Chan} : Kept s0 (s.modChan ch f) :=
  h.parts rfl rfl rfl rfl rfl rfl rfl
theorem State.modNfc_kept {s0 s : State} (h : Kept s0 s) {f : Nfc → Nfc} : Kept s0 (s.modNfc f) :=
  h.parts rfl rfl rfl rfl rfl rfl rfl
theorem State.modLun_kept {s0 s : State} (h : Kept s0 s) {u : Fin 32} {f : Lun → Lun} : Kept s0 (s.modLun u f) :=
  h.parts rfl rfl rfl rfl rfl rfl rfl
theorem State.modLink_kept {s0 s : State} (h : Kept s0 s) {f : Link → Link} : Kept s0 (s.modLink f) :=
  h.parts rfl rfl rfl rfl rfl rfl rfl
theorem State.modPort_kept {s0 s : State} (h : Kept s0 s) {p : Fin 2} {f : Port → Port} : Kept s0 (s.modPort p f) :=
  h.parts rfl rfl rfl rfl rfl rfl rfl
theorem State.modBind_kept {s0 s : State} (h : Kept s0 s) {c : Fin 8} {f : BindRegs → BindRegs} : Kept s0 (s.modBind c f) :=
  h.parts rfl rfl rfl rfl rfl rfl rfl
theorem State.modUart_kept {s0 s : State} (h : Kept s0 s) {u : Fin 2} {f : Uart → Uart} : Kept s0 (s.modUart u f) :=
  h.parts rfl rfl rfl rfl rfl rfl rfl
theorem State.modLin_kept {s0 s : State} (h : Kept s0 s) {f : Lin → Lin} : Kept s0 (s.modLin f) :=
  h.parts rfl rfl rfl rfl rfl rfl rfl
theorem State.modSup_kept {s0 s : State} (h : Kept s0 s) {f : Supply → Supply} : Kept s0 (s.modSup f) :=
  h.parts rfl rfl rfl rfl rfl rfl rfl
theorem State.modEsc_kept {s0 s : State} (h : Kept s0 s) {f : Esc → Esc} : Kept s0 (s.modEsc f) :=
  h.parts rfl rfl rfl rfl rfl rfl rfl
theorem State.modAon_kept {s0 s : State} (h : Kept s0 s) {f : Aon → Aon} : Kept s0 (s.modAon f) :=
  h.parts rfl rfl rfl rfl rfl rfl rfl
theorem State.modMgmt_kept {s0 s : State} (h : Kept s0 s) {f : Mgmt → Mgmt} : Kept s0 (s.modMgmt f) :=
  h.parts rfl rfl rfl rfl rfl rfl rfl
theorem State.setMark_kept {s0 s : State} (h : Kept s0 s) {m : Fin 64} {v : BitVec 64} : Kept s0 (s.setMark m v) :=
  h.parts rfl rfl rfl rfl rfl rfl rfl
theorem State.nextStamp_kept {s0 s : State} (h : Kept s0 s) : Kept s0 (s.nextStamp) :=
  h.parts rfl rfl rfl rfl rfl rfl rfl

/-! ## Parts with memories or fuses -/

/-- The identity block, where no burn begins or ends. -/
theorem State.modIdk_kept {s0 s : State} (h : Kept s0 s) {f : Idk → Idk} (e : (f s.main.idk).burnBusy = s.main.idk.burnBusy) :
    Kept s0 (s.modIdk f) := h.parts rfl rfl rfl rfl rfl rfl e

/-- Shared memory. -/
theorem State.modShm_kept {s0 s : State} (h : Kept s0 s) {f : Shm → Shm} (hf : ∀ m, m.mem.wf = true → (f m).mem.wf = true) :
    Kept s0 (s.modShm f) := by
  refine h.trans <| (Kept.iff _ _).mpr ⟨?_, id, rfl, fun _ _ => rfl⟩
  rw [State.memWf_iff, State.memWf_iff]
  rintro ⟨h1, h2, h3, h4, h5⟩
  exact ⟨h1, h2, hf _ h3, h4, h5⟩

/-- Host memory. -/
theorem State.hostWrite_kept {s0 s : State} (h : Kept s0 s) {a : Nat} {bs : List Byte} : Kept s0 (s.hostWrite a bs) := by
  refine h.trans <| (Kept.iff _ _).mpr ⟨?_, id, rfl, fun _ _ => rfl⟩
  rw [State.memWf_iff, State.memWf_iff]
  rintro ⟨h1, h2, h3, h4, h5⟩
  exact ⟨h1, Memory.wf_writeBytes h2 _ _, h3, h4, h5⟩

/-- Flash. -/
theorem Kept.nand {s0 s : State} (h : Kept s0 s) {m : Memory} (hm : s.nand.wf = true → m.wf = true) :
    Kept s0 { s with nand := m } := by
  refine h.trans <| (Kept.iff _ _).mpr ⟨?_, id, rfl, fun _ _ => rfl⟩
  rw [State.memWf_iff, State.memWf_iff]
  rintro ⟨h1, h2, h3, h4, h5⟩
  exact ⟨hm h1, h2, h3, h4, h5⟩

/-- The arrays' non-volatile state. -/
theorem Kept.nv {s0 s : State} (h : Kept s0 s) {x : Vector (Vector ArrayNv 32) 24}
    (hx : ∀ (n : Fin 24) (a : Fin 32), (s.nv[n][a]).image.wf = true → (x[n][a]).image.wf = true) :
    Kept s0 { s with nv := x } := by
  refine h.trans <| (Kept.iff _ _).mpr ⟨?_, id, rfl, fun _ _ => rfl⟩
  rw [State.memWf_iff, State.memWf_iff]
  rintro ⟨h1, h2, h3, h4, h5⟩
  exact ⟨h1, h2, h3, h4, fun n a => hx n a (h5 n a)⟩

/-- One array's non-volatile state. -/
theorem State.modNv_kept {s0 s : State} (h : Kept s0 s) {n : Fin 24} {a : Fin 32} {f : ArrayNv → ArrayNv}
    (hf : ∀ v, v.image.wf = true → (f v).image.wf = true) : Kept s0 (s.modNv n a f) := by
  refine Kept.nv h fun k b hk => ?_
  rw [upd_get]
  split
  · rw [upd_get]
    split
    · exact hf _ hk
    · exact hk
  · exact hk

/-- A command under a condition. -/
theorem State.when_kept {s0 s : State} (h : Kept s0 s) {c : Bool} {f : State → State} (hf : ∀ s, Kept s0 s → Kept s0 (f s)) :
    Kept s0 (s.when c f) := by
  unfold State.when
  split
  · exact hf s h
  · exact h

end Sys2Proof.Machine
end

