-- ==== Sys2Proof/Laws/KeptOps.lean ====
section
/-!
SUPPORT. What each shared operation keeps (Kept, Sys2Proof/Laws/Kept.lean), one lemma per operation.
-/

namespace Sys2Proof.Machine

section
set_option Elab.async false
set_option linter.unusedTactic false
set_option linter.unreachableTactic false

theorem Station.fresh_memWf (k : Nat) : (Station.fresh k).memWf = true := rfl

theorem State.raise_kept {s0 s : State} (h : Kept s0 s) {v : Fin 64} :
    Kept s0 (State.raise s v) := by
  unfold State.raise
  try dsimp only
  repeat' first
    | with_reducible assumption
    | with_reducible apply State.hostWrite_kept
    | with_reducible apply State.modMsix_kept
    | intro _
    | split

theorem State.raiseIf_kept {s0 s : State} (h : Kept s0 s) {c : Bool} {v : Fin 64} :
    Kept s0 (State.raiseIf s c v) := by
  unfold State.raiseIf
  try dsimp only
  repeat' first
    | with_reducible assumption
    | with_reducible apply State.raise_kept
    | intro _
    | split

theorem State.powerEvent_kept {s0 s : State} (h : Kept s0 s) {bits : BitVec 5} :
    Kept s0 (State.powerEvent s bits) := by
  unfold State.powerEvent
  try dsimp only
  repeat' first
    | with_reducible assumption
    | with_reducible apply State.modPwr_kept
    | with_reducible apply State.raiseIf_kept
    | intro _
    | split

theorem State.nandEvent_kept {s0 s : State} (h : Kept s0 s) {bits : BitVec 3} :
    Kept s0 (State.nandEvent s bits) := by
  unfold State.nandEvent
  try dsimp only
  repeat' first
    | with_reducible assumption
    | with_reducible apply State.modNfc_kept
    | with_reducible apply State.raiseIf_kept
    | intro _
    | split

theorem State.linkEvent_kept {s0 s : State} (h : Kept s0 s) {bits : BitVec 5} :
    Kept s0 (State.linkEvent s bits) := by
  unfold State.linkEvent
  try dsimp only
  repeat' first
    | with_reducible assumption
    | with_reducible apply State.modLink_kept
    | with_reducible apply State.raiseIf_kept
    | intro _
    | split

theorem State.fbEntry_kept {s0 s : State} (h : Kept s0 s) {source : Nat} {code : Nat} {data : BitVec 64} :
    Kept s0 (State.fbEntry s source code data) := by
  unfold State.fbEntry
  try dsimp only
  repeat' first
    | with_reducible assumption
    | with_reducible apply State.modAon_kept
    | intro _
    | split

theorem State.flushStart_kept {s0 s : State} (h : Kept s0 s) {trigger : BitVec 16} :
    Kept s0 (State.flushStart s trigger) := by
  unfold State.flushStart
  try dsimp only
  repeat' first
    | with_reducible assumption
    | intro _
    | split
    | with_reducible apply Kept.rest

theorem State.flush_kept {s0 s : State} (h : Kept s0 s) {trigger : BitVec 16} :
    Kept s0 (State.flush s trigger) := by
  unfold State.flush
  try dsimp only
  repeat' first
    | with_reducible assumption
    | with_reducible apply State.flushStart_kept
    | with_reducible apply State.modAon_kept
    | intro _
    | split

theorem State.assertFault_kept {s0 s : State} (h : Kept s0 s) :
    Kept s0 (State.assertFault s) := by
  unfold State.assertFault
  try dsimp only
  repeat' first
    | with_reducible assumption
    | with_reducible apply State.modAon_kept
    | intro _
    | split

theorem State.addMark_kept {s0 s : State} (h : Kept s0 s) {m : Fin 64} {v : BitVec 64} :
    Kept s0 (State.addMark s m v) := by
  unfold State.addMark
  try dsimp only
  repeat' first
    | with_reducible assumption
    | with_reducible apply State.setMark_kept
    | intro _
    | split

theorem State.writePlace_kept {s0 s : State} (h : Kept s0 s) {p : Place} {bs : List Byte} :
    Kept s0 (State.writePlace s p bs) := by
  unfold State.writePlace
  try dsimp only
  repeat' first
    | with_reducible assumption
    | with_reducible apply State.hostWrite_kept
    | with_reducible apply State.modShm_kept
    | with_reducible apply State.modStation_kept
    | exact ‹Station.memWf _ = true›
    | intro _
    | split
    | exact Station.memWf_of ‹Station.memWf _ = true› (by with_reducible rfl)
    | (simp only [Station.memWf, Bool.and_eq_true] at *; simp_all)
    | with_reducible apply Kept.rest

theorem State.devWrite_kept {s0 s : State} (h : Kept s0 s) {a : Nat} {bs : List Byte} :
    Kept s0 (State.devWrite s a bs) := by
  unfold State.devWrite
  try dsimp only
  repeat' first
    | with_reducible assumption
    | with_reducible apply State.writePlace_kept
    | intro _
    | split

theorem State.spaceWrite_kept {s0 s : State} (h : Kept s0 s) {sp : Space} {a : Nat} {bs : List Byte} :
    Kept s0 (State.spaceWrite s sp a bs) := by
  unfold State.spaceWrite
  try dsimp only
  repeat' first
    | with_reducible assumption
    | with_reducible apply State.modShm_kept
    | with_reducible apply State.modStation_kept
    | exact ‹Station.memWf _ = true›
    | intro _
    | split
    | exact Station.memWf_of ‹Station.memWf _ = true› (by with_reducible rfl)
    | (simp only [Station.memWf, Bool.and_eq_true] at *; simp_all)
    | with_reducible apply Kept.rest

theorem State.progress_kept {s0 s : State} (h : Kept s0 s) {c : Fin 8} :
    Kept s0 (State.progress s c) := by
  unfold State.progress
  try dsimp only
  repeat' first
    | with_reducible assumption
    | with_reducible apply State.modCtx_kept
    | intro _
    | split

theorem State.retire_kept {s0 s : State} (h : Kept s0 s) {n : Fin 24} :
    Kept s0 (State.retire s n) := by
  unfold State.retire
  try dsimp only
  repeat' first
    | with_reducible assumption
    | with_reducible apply State.modCtx_kept
    | with_reducible apply State.modStation_kept
    | with_reducible apply State.progress_kept
    | exact ‹Station.memWf _ = true›
    | intro _
    | split
    | exact Station.memWf_of ‹Station.memWf _ = true› (by with_reducible rfl)
    | with_reducible apply Kept.rest

theorem State.modJob_kept {s0 s : State} (h : Kept s0 s) {q : Fin 16} {f : Job → Job} :
    Kept s0 (State.modJob s q f) := by
  unfold State.modJob
  try dsimp only
  repeat' first
    | with_reducible assumption
    | with_reducible apply State.modQueue_kept
    | intro _
    | split

theorem State.modJobOrder_kept {s0 s : State} (h : Kept s0 s) {q : Fin 16} {order : Nat} {f : Job → Job} :
    Kept s0 (State.modJobOrder s q order f) := by
  unfold State.modJobOrder
  try dsimp only
  repeat' first
    | with_reducible assumption
    | with_reducible apply State.modQueue_kept
    | intro _
    | split

theorem State.setEnd_kept {s0 s : State} (h : Kept s0 s) {q : Fin 16} {status : BitVec 16} {detail : BitVec 32} :
    Kept s0 (State.setEnd s q status detail) := by
  unfold State.setEnd
  try dsimp only
  repeat' first
    | with_reducible assumption
    | with_reducible apply State.modJob_kept
    | intro _
    | split
    | with_reducible apply Kept.rest

theorem State.badDescriptor_kept {s0 s : State} (h : Kept s0 s) {q : Fin 16} {off : Nat} :
    Kept s0 (State.badDescriptor s q off) := by
  unfold State.badDescriptor
  try dsimp only
  repeat' first
    | with_reducible assumption
    | with_reducible apply State.setEnd_kept
    | intro _
    | split

theorem State.writeRec_kept {s0 s : State} (h : Kept s0 s) {q : Fin 16} {r : Rec} :
    Kept s0 (State.writeRec s q r) := by
  unfold State.writeRec
  try dsimp only
  repeat' first
    | with_reducible assumption
    | with_reducible apply State.hostWrite_kept
    | with_reducible apply State.modQueue_kept
    | with_reducible apply State.raiseIf_kept
    | intro _
    | split
    | with_reducible apply Kept.rest

theorem State.deliver_kept {s0 s : State} (h : Kept s0 s) {q : Fin 16} {r : Rec} :
    Kept s0 (State.deliver s q r) := by
  unfold State.deliver
  try dsimp only
  repeat' first
    | with_reducible assumption
    | with_reducible apply State.modQueue_kept
    | with_reducible apply State.writeRec_kept
    | intro _
    | split

theorem State.drainHold_kept {s0 : State} {k : Nat} {s : State} (h : Kept s0 s) {q : Fin 16} :
    Kept s0 (State.drainHold k s q) := by
  induction k generalizing s with
  | zero => exact h
  | succ k ih =>
    unfold State.drainHold
    split
    · split
      · exact ih (State.writeRec_kept (State.modQueue_kept h))
      · exact h
    · exact h

theorem State.drainHeld_kept {s0 s : State} (h : Kept s0 s) {q : Fin 16} :
    Kept s0 (State.drainHeld s q) := by
  unfold State.drainHeld
  try dsimp only
  repeat' first
    | with_reducible assumption
    | with_reducible apply State.drainHold_kept
    | intro _
    | split

theorem State.countEnd_kept {s0 s : State} (h : Kept s0 s) {q : Fin 16} {j : Job} {r : Rec} :
    Kept s0 (State.countEnd s q j r) := by
  unfold State.countEnd
  try dsimp only
  repeat' first
    | with_reducible assumption
    | with_reducible apply State.modQueue_kept
    | with_reducible apply State.progress_kept
    | intro _
    | split

theorem State.completeUnder_kept {s0 s : State} (h : Kept s0 s) {q : Fin 16} {j : Job} {tag : Option (BitVec 16)} :
    Kept s0 (State.completeUnder s q j tag) := by
  unfold State.completeUnder
  try dsimp only
  repeat' first
    | with_reducible assumption
    | with_reducible apply State.addMark_kept
    | with_reducible apply State.countEnd_kept
    | with_reducible apply State.deliver_kept
    | with_reducible apply State.modCtx_kept
    | intro _
    | split

theorem State.complete_kept {s0 s : State} (h : Kept s0 s) {q : Fin 16} {j : Job} :
    Kept s0 (State.complete s q j) := by
  unfold State.complete
  try dsimp only
  repeat' first
    | with_reducible assumption
    | with_reducible apply State.completeUnder_kept
    | intro _
    | split

theorem Station.stop_memWf {t : Station} (h : t.memWf = true) :
    (Station.stop t).memWf = true := by
  unfold Station.stop
  try dsimp only
  repeat' first
    | with_reducible assumption
    | exact ‹Station.memWf _ = true›
    | intro _
    | split
    | exact Station.memWf_of ‹Station.memWf _ = true› (by with_reducible rfl)

theorem State.stopJob_kept {s0 s : State} (h : Kept s0 s) {q : Fin 16} {order : Nat} :
    Kept s0 (State.stopJob s q order) := by
  unfold State.stopJob
  try dsimp only
  repeat' first
    | with_reducible assumption
    | refine State.modMain_ofFn_kept ?_ (by with_reducible rfl) ?_ (by with_reducible rfl) (by with_reducible rfl)
    | with_reducible apply Station.stop_memWf
    | intro _
    | split
    | exact Station.memWf_of (Station.stop_memWf ‹Station.memWf _ = true›) (by with_reducible rfl)
    | exact Station.memWf_of ‹Station.memWf _ = true› (by with_reducible rfl)

theorem Station.recordFault_memWf {t : Station} (h : t.memWf = true) {status : BitVec 16} {detail : BitVec 32} {pc : BitVec 37} {instr : BitVec 64} {secondary : Bool} {spec : Bool} :
    (Station.recordFault t status detail pc instr secondary spec).memWf = true := by
  unfold Station.recordFault
  try dsimp only
  repeat' first
    | with_reducible assumption
    | exact ‹Station.memWf _ = true›
    | intro _
    | split
    | exact Station.memWf_of ‹Station.memWf _ = true› (by with_reducible rfl)

theorem State.jobFault_kept {s0 s : State} (h : Kept s0 s) {q : Fin 16} {order : Nat} {status : BitVec 16} {detail : BitVec 32} :
    Kept s0 (State.jobFault s q order status detail) := by
  unfold State.jobFault
  try dsimp only
  repeat' first
    | with_reducible assumption
    | with_reducible apply State.modJobOrder_kept
    | with_reducible apply State.stopJob_kept
    | intro _
    | split

theorem State.reportFault_kept {s0 s : State} (h : Kept s0 s) {n : Fin 24} {q : Fin 16} {order : Nat} {status : BitVec 16} {detail : BitVec 32} {pc : BitVec 37} {instr : BitVec 64} {spec : Bool} :
    Kept s0 (State.reportFault s n q order status detail pc instr spec) := by
  unfold State.reportFault
  try dsimp only
  repeat' first
    | with_reducible assumption
    | with_reducible apply State.jobFault_kept
    | with_reducible apply State.modStation_kept
    | with_reducible apply Station.recordFault_memWf
    | exact ‹Station.memWf _ = true›
    | intro _
    | split
    | exact Station.memWf_of (Station.recordFault_memWf ‹Station.memWf _ = true›) (by with_reducible rfl)
    | exact Station.memWf_of ‹Station.memWf _ = true› (by with_reducible rfl)

theorem State.reportLatched_kept {s0 s : State} (h : Kept s0 s) {c : Fin 8} {l : Latched} :
    Kept s0 (State.reportLatched s c l) := by
  unfold State.reportLatched
  try dsimp only
  repeat' first
    | with_reducible assumption
    | with_reducible apply State.modCtx_kept
    | with_reducible apply State.reportFault_kept
    | intro _
    | split

theorem State.suppressLatched_kept {s0 s : State} (h : Kept s0 s) {c : Fin 8} {l : Latched} :
    Kept s0 (State.suppressLatched s c l) := by
  unfold State.suppressLatched
  try dsimp only
  repeat' first
    | with_reducible assumption
    | with_reducible apply State.modCtx_kept
    | with_reducible apply State.modStation_kept
    | with_reducible apply Station.recordFault_memWf
    | exact ‹Station.memWf _ = true›
    | intro _
    | split
    | exact Station.memWf_of (Station.recordFault_memWf ‹Station.memWf _ = true›) (by with_reducible rfl)
    | exact Station.memWf_of ‹Station.memWf _ = true› (by with_reducible rfl)

theorem State.latchFault_kept {s0 s : State} (h : Kept s0 s) {c : Fin 8} {l : Latched} :
    Kept s0 (State.latchFault s c l) := by
  unfold State.latchFault
  try dsimp only
  repeat' first
    | with_reducible assumption
    | with_reducible apply State.modCtx_kept
    | with_reducible apply State.raise_kept
    | with_reducible apply State.reportLatched_kept
    | with_reducible apply State.suppressLatched_kept
    | intro _
    | split

theorem State.stationFault_kept {s0 s : State} (h : Kept s0 s) {n : Fin 24} {q : Fin 16} {order : Nat} {c : Fin 8} {tag : Option (BitVec 16)} {status : BitVec 16} {detail : BitVec 32} {pc : BitVec 37} {instr : BitVec 64} :
    Kept s0 (State.stationFault s n q order c tag status detail pc instr) := by
  unfold State.stationFault
  try dsimp only
  repeat' first
    | with_reducible assumption
    | with_reducible apply State.latchFault_kept
    | with_reducible apply State.reportFault_kept
    | intro _
    | split

theorem State.applyDeferred_kept {s0 s : State} (h : Kept s0 s) {e : DeferredEffect} :
    Kept s0 (s.applyDeferred e) := by
  cases e with
  | qntFlags n f => exact State.modStation_kept h fun t ht => Station.memWf_of ht rfl
  | accFlags n f => exact State.modStation_kept h fun t ht => Station.memWf_of ht rfl
  | uce l i => exact State.nandEvent_kept (State.modNfc_kept h)
  | lunLost m => exact State.fbEntry_kept (State.nandEvent_kept h)

theorem State.defer_kept {s0 s : State} (h : Kept s0 s) {c : Fin 8} {tag : Option (BitVec 16)} {e : DeferredEffect} :
    Kept s0 (State.defer s c tag e) := by
  unfold State.defer
  try dsimp only
  repeat' first
    | with_reducible assumption
    | with_reducible apply State.applyDeferred_kept
    | with_reducible apply State.modCtx_kept
    | intro _
    | split

theorem State.reserve_kept {s0 s : State} (h : Kept s0 s) {n : Fin 24} :
    Kept s0 (State.reserve s n) := by
  unfold State.reserve
  try dsimp only
  repeat' first
    | with_reducible assumption
    | with_reducible apply State.modStation_kept
    | exact ‹Station.memWf _ = true›
    | intro _
    | split
    | exact Station.memWf_of ‹Station.memWf _ = true› (by with_reducible rfl)
    | with_reducible apply Kept.rest

theorem State.settle_kept {s0 s : State} (h : Kept s0 s) {n : Fin 24} :
    Kept s0 (State.settle s n) := by
  unfold State.settle
  try dsimp only
  repeat' first
    | with_reducible assumption
    | with_reducible apply State.modJobOrder_kept
    | with_reducible apply State.modStation_kept
    | with_reducible apply State.reserve_kept
    | exact ‹Station.memWf _ = true›
    | intro _
    | split
    | exact Station.memWf_of ‹Station.memWf _ = true› (by with_reducible rfl)
    | with_reducible apply Kept.rest

theorem State.settleAll_kept {s0 s : State} (h : Kept s0 s) :
    Kept s0 (State.settleAll s) := by
  unfold State.settleAll
  try dsimp only
  repeat' first
    | with_reducible assumption
    | with_reducible apply Kept.foldl
    | with_reducible apply State.settle_kept
    | intro _
    | split

theorem Station.wg_memWf {t : Station} (h : t.memWf = true) {r : Nat} {v : BitVec 64} :
    (Station.wg t r v).memWf = true := by
  unfold Station.wg
  try dsimp only
  repeat' first
    | with_reducible assumption
    | exact ‹Station.memWf _ = true›
    | intro _
    | split
    | exact Station.memWf_of ‹Station.memWf _ = true› (by with_reducible rfl)

theorem Station.wd_memWf {t : Station} (h : t.memWf = true) {r : Nat} {v : BitVec 128} :
    (Station.wd t r v).memWf = true := by
  unfold Station.wd
  try dsimp only
  repeat' first
    | with_reducible assumption
    | exact ‹Station.memWf _ = true›
    | intro _
    | split
    | exact Station.memWf_of ‹Station.memWf _ = true› (by with_reducible rfl)

theorem Station.wv_memWf {t : Station} (h : t.memWf = true) {r : Nat} {v : BitVec 2048} :
    (Station.wv t r v).memWf = true := by
  unfold Station.wv
  try dsimp only
  repeat' first
    | with_reducible assumption
    | exact ‹Station.memWf _ = true›
    | intro _
    | split
    | exact Station.memWf_of ‹Station.memWf _ = true› (by with_reducible rfl)

theorem Station.wp_memWf {t : Station} (h : t.memWf = true) {r : Nat} {v : BitVec 256} :
    (Station.wp t r v).memWf = true := by
  unfold Station.wp
  try dsimp only
  repeat' first
    | with_reducible assumption
    | exact ‹Station.memWf _ = true›
    | intro _
    | split
    | exact Station.memWf_of ‹Station.memWf _ = true› (by with_reducible rfl)

theorem Station.wbuf_memWf {t : Station} (h : t.memWf = true) {b : Nat} {a : Nat} {bs : List Byte} :
    (Station.wbuf t b a bs).memWf = true := by
  unfold Station.wbuf
  try dsimp only
  repeat' first
    | with_reducible assumption
    | exact ‹Station.memWf _ = true›
    | intro _
    | split
    | exact Station.memWf_of ‹Station.memWf _ = true› (by with_reducible rfl)
    | (simp only [Station.memWf, Bool.and_eq_true] at *; simp_all)

theorem Station.advanceFrom_memWf {t : Station} (h : t.memWf = true) {at' : Nat} :
    (Station.advanceFrom t at').memWf = true := by
  unfold Station.advanceFrom
  try dsimp only
  repeat' first
    | with_reducible assumption
    | exact ‹Station.memWf _ = true›
    | intro _
    | split
    | exact Station.memWf_of ‹Station.memWf _ = true› (by with_reducible rfl)

theorem Station.advance_memWf {t : Station} (h : t.memWf = true) :
    (Station.advance t).memWf = true := by
  unfold Station.advance
  try dsimp only
  repeat' first
    | with_reducible assumption
    | with_reducible apply Station.advanceFrom_memWf
    | exact ‹Station.memWf _ = true›
    | intro _
    | split
    | exact Station.memWf_of (Station.advanceFrom_memWf ‹Station.memWf _ = true›) (by with_reducible rfl)
    | exact Station.memWf_of ‹Station.memWf _ = true› (by with_reducible rfl)

theorem Station.branch_memWf {t : Station} (h : t.memWf = true) {target : Nat} :
    (Station.branch t target).memWf = true := by
  unfold Station.branch
  try dsimp only
  repeat' first
    | with_reducible assumption
    | exact ‹Station.memWf _ = true›
    | intro _
    | split
    | exact Station.memWf_of ‹Station.memWf _ = true› (by with_reducible rfl)

theorem State.issueFault_kept {s0 s : State} (h : Kept s0 s) {n : Fin 24} {word : BitVec 64} {status : BitVec 16} {detail : BitVec 32} :
    Kept s0 (State.issueFault s n word status detail) := by
  unfold State.issueFault
  try dsimp only
  repeat' first
    | with_reducible assumption
    | with_reducible apply State.latchFault_kept
    | with_reducible apply State.modStation_kept
    | with_reducible apply State.reportFault_kept
    | with_reducible apply State.settleAll_kept
    | with_reducible apply Station.advance_memWf
    | exact ‹Station.memWf _ = true›
    | intro _
    | split
    | exact Station.memWf_of (Station.advance_memWf ‹Station.memWf _ = true›) (by with_reducible rfl)
    | exact Station.memWf_of ‹Station.memWf _ = true› (by with_reducible rfl)

theorem State.fetchFault_kept {s0 s : State} (h : Kept s0 s) {n : Fin 24} {detail : BitVec 32} :
    Kept s0 (State.fetchFault s n detail) := by
  unfold State.fetchFault
  try dsimp only
  repeat' first
    | with_reducible assumption
    | with_reducible apply State.latchFault_kept
    | with_reducible apply State.modStation_kept
    | with_reducible apply State.reportFault_kept
    | with_reducible apply State.settleAll_kept
    | exact ‹Station.memWf _ = true›
    | intro _
    | split
    | exact Station.memWf_of ‹Station.memWf _ = true› (by with_reducible rfl)
    | with_reducible apply Kept.rest

theorem State.stallFor_kept {s0 s : State} (h : Kept s0 s) {n : Fin 24} {why : List Stall} :
    Kept s0 (State.stallFor s n why) := by
  unfold State.stallFor
  try dsimp only
  repeat' first
    | with_reducible assumption
    | with_reducible apply State.modStation_kept
    | exact ‹Station.memWf _ = true›
    | intro _
    | split
    | exact Station.memWf_of ‹Station.memWf _ = true› (by with_reducible rfl)
    | with_reducible apply Kept.rest

theorem State.issue_kept {s0 s : State} (h : Kept s0 s) {n : Fin 24} {word : BitVec 64} {need : Need} {go : State → State} (hgo : ∀ s, Kept s0 s → Kept s0 (go s)) :
    Kept s0 (State.issue s n word need go) := by
  unfold State.issue
  try dsimp only
  repeat' first
    | with_reducible assumption
    | with_reducible apply hgo
    | with_reducible apply State.fetchFault_kept
    | with_reducible apply State.issueFault_kept
    | with_reducible apply State.modStation_kept
    | with_reducible apply State.stallFor_kept
    | exact ‹Station.memWf _ = true›
    | intro _
    | split
    | exact Station.memWf_of ‹Station.memWf _ = true› (by with_reducible rfl)
    | with_reducible apply Kept.rest

theorem State.issueScalar_kept {s0 s : State} (h : Kept s0 s) {n : Fin 24} {word : BitVec 64} {need : Need} {f : Station → Station} (hf : ∀ t, t.memWf = true → (f t).memWf = true) :
    Kept s0 (State.issueScalar s n word need f) := by
  unfold State.issueScalar
  try dsimp only
  repeat' first
    | with_reducible assumption
    | with_reducible apply hf
    | with_reducible apply State.issue_kept
    | with_reducible apply State.modStation_kept
    | with_reducible apply State.retire_kept
    | with_reducible apply Station.advance_memWf
    | exact ‹Station.memWf _ = true›
    | intro _
    | split
    | exact Station.memWf_of (Station.advance_memWf ‹Station.memWf _ = true›) (by with_reducible rfl)
    | exact Station.memWf_of ‹Station.memWf _ = true› (by with_reducible rfl)

theorem Station.setQueue_memWf {t : Station} (h : t.memWf = true) {e : Engine} {l : List Issued} :
    (Station.setQueue t e l).memWf = true := by
  unfold Station.setQueue
  try dsimp only
  repeat' first
    | with_reducible assumption
    | exact ‹Station.memWf _ = true›
    | intro _
    | split
    | exact Station.memWf_of ‹Station.memWf _ = true› (by with_reducible rfl)

theorem Station.enqueue_memWf {t : Station} (h : t.memWf = true) {e : Engine} {i : Issued} :
    (Station.enqueue t e i).memWf = true := by
  unfold Station.enqueue
  try dsimp only
  repeat' first
    | with_reducible assumption
    | with_reducible apply Station.setQueue_memWf
    | exact ‹Station.memWf _ = true›
    | intro _
    | split
    | exact Station.memWf_of (Station.setQueue_memWf ‹Station.memWf _ = true›) (by with_reducible rfl)
    | exact Station.memWf_of ‹Station.memWf _ = true› (by with_reducible rfl)

theorem State.issueEngine_kept {s0 s : State} (h : Kept s0 s) {n : Fin 24} {e : Engine} {need : Need} {i : Issued} :
    Kept s0 (State.issueEngine s n e need i) := by
  unfold State.issueEngine
  try dsimp only
  repeat' first
    | with_reducible assumption
    | with_reducible apply State.issue_kept
    | with_reducible apply State.modStation_kept
    | with_reducible apply Station.advance_memWf
    | with_reducible apply Station.enqueue_memWf
    | exact ‹Station.memWf _ = true›
    | intro _
    | split
    | exact Station.memWf_of (Station.advance_memWf ‹Station.memWf _ = true›) (by with_reducible rfl)
    | exact Station.memWf_of (Station.enqueue_memWf ‹Station.memWf _ = true›) (by with_reducible rfl)
    | exact Station.memWf_of ‹Station.memWf _ = true› (by with_reducible rfl)

theorem State.alu_kept {s0 s : State} (h : Kept s0 s) {n : Fin 24} {w : BitVec 64} {f : BitVec 64 → BitVec 64 → BitVec 64} :
    Kept s0 (State.alu s n w f) := by
  unfold State.alu
  try dsimp only
  repeat' first
    | with_reducible assumption
    | with_reducible apply State.issueScalar_kept
    | with_reducible apply Station.wg_memWf
    | intro _
    | split
    | exact Station.memWf_of (Station.wg_memWf ‹Station.memWf _ = true›) (by with_reducible rfl)

theorem Station.touchBoard_memWf {t : Station} (h : t.memWf = true) :
    (Station.touchBoard t).memWf = true := by
  unfold Station.touchBoard
  try dsimp only
  repeat' first
    | with_reducible assumption
    | exact ‹Station.memWf _ = true›
    | intro _
    | split
    | exact Station.memWf_of ‹Station.memWf _ = true› (by with_reducible rfl)

theorem State.scalarLoad_kept {s0 s : State} (h : Kept s0 s) {n : Fin 24} {w : BitVec 64} {size : Nat} :
    Kept s0 (State.scalarLoad s n w size) := by
  unfold State.scalarLoad
  try dsimp only
  repeat' first
    | with_reducible assumption
    | with_reducible apply State.issueScalar_kept
    | with_reducible apply Station.touchBoard_memWf
    | with_reducible apply Station.wg_memWf
    | intro _
    | split
    | exact Station.memWf_of (Station.touchBoard_memWf ‹Station.memWf _ = true›) (by with_reducible rfl)
    | exact Station.memWf_of (Station.wg_memWf ‹Station.memWf _ = true›) (by with_reducible rfl)

theorem State.scalarWrite_kept {s0 s : State} (h : Kept s0 s) {n : Fin 24} {w : BitVec 64} {size : Nat} :
    Kept s0 (State.scalarWrite s n w size) := by
  unfold State.scalarWrite
  try dsimp only
  repeat' first
    | with_reducible assumption
    | with_reducible apply State.modStation_kept
    | with_reducible apply State.retire_kept
    | with_reducible apply State.spaceWrite_kept
    | with_reducible apply Station.advance_memWf
    | with_reducible apply Station.touchBoard_memWf
    | exact ‹Station.memWf _ = true›
    | intro _
    | split
    | exact Station.memWf_of (Station.advance_memWf ‹Station.memWf _ = true›) (by with_reducible rfl)
    | exact Station.memWf_of (Station.touchBoard_memWf ‹Station.memWf _ = true›) (by with_reducible rfl)
    | exact Station.memWf_of ‹Station.memWf _ = true› (by with_reducible rfl)

theorem State.scalarStore_kept {s0 s : State} (h : Kept s0 s) {n : Fin 24} {w : BitVec 64} {size : Nat} :
    Kept s0 (State.scalarStore s n w size) := by
  unfold State.scalarStore
  try dsimp only
  repeat' first
    | with_reducible assumption
    | with_reducible apply State.issue_kept
    | with_reducible apply State.scalarWrite_kept
    | intro _
    | split

theorem State.issueKick_kept {s0 s : State} (h : Kept s0 s) {n : Fin 24} {w : BitVec 64} {ch : Fin 16} :
    Kept s0 (State.issueKick s n w ch) := by
  unfold State.issueKick
  dsimp only
  repeat' first
    | with_reducible assumption
    | with_reducible apply State.modCtx_kept
    | with_reducible apply State.retire_kept
    | with_reducible apply State.modStation_kept
    | intro _
    | split
    | exact Station.memWf_of (Station.advance_memWf (Station.touchBoard_memWf ‹Station.memWf _ = true›)) (by with_reducible rfl)

theorem State.issueXfer_kept {s0 s : State} (h : Kept s0 s) {n : Fin 24} {w : BitVec 64} {store : Bool} {acc : Bool} :
    Kept s0 (State.issueXfer s n w store acc) := by
  unfold State.issueXfer
  try dsimp only
  repeat' first
    | with_reducible assumption
    | with_reducible apply State.issueEngine_kept
    | intro _
    | split

theorem State.xferWrite_kept {s0 s : State} (h : Kept s0 s) {x : Xfer} {bs : List Byte} :
    Kept s0 (State.xferWrite s x bs) := by
  unfold State.xferWrite
  try dsimp only
  repeat' first
    | with_reducible assumption
    | with_reducible apply Kept.foldl
    | with_reducible apply State.spaceWrite_kept
    | intro _
    | split

theorem State.xferEffect_kept {s0 s : State} (h : Kept s0 s) {n : Fin 24} {i : Issued} {x : Xfer} :
    Kept s0 (State.xferEffect s n i x) := by
  unfold State.xferEffect
  try dsimp only
  repeat' first
    | with_reducible assumption
    | with_reducible apply State.defer_kept
    | with_reducible apply State.modStation_kept
    | with_reducible apply State.xferWrite_kept
    | with_reducible apply Station.wbuf_memWf
    | exact ‹Station.memWf _ = true›
    | intro _
    | split
    | exact Station.memWf_of (Station.wbuf_memWf ‹Station.memWf _ = true›) (by with_reducible rfl)
    | exact Station.memWf_of ‹Station.memWf _ = true› (by with_reducible rfl)
    | (simp only [Station.memWf, Bool.and_eq_true] at *; simp_all)

theorem Station.putTile_memWf {t : Station} (h : t.memWf = true) {w : BitVec 64} {rows : List (List (BitVec 32))} :
    (Station.putTile t w rows).memWf = true := by
  unfold Station.putTile
  try dsimp only
  repeat' first
    | with_reducible assumption
    | with_reducible apply Station.foldl_memWf
    | with_reducible apply Station.wbuf_memWf
    | exact ‹Station.memWf _ = true›
    | intro _
    | split
    | exact Station.memWf_of (Station.wbuf_memWf ‹Station.memWf _ = true›) (by with_reducible rfl)
    | exact Station.memWf_of ‹Station.memWf _ = true› (by with_reducible rfl)
    | (simp only [Station.memWf, Bool.and_eq_true] at *; simp_all)

theorem State.matrixEffect_kept {s0 s : State} (h : Kept s0 s) {n : Fin 24} {i : Issued} :
    Kept s0 (State.matrixEffect s n i) := by
  unfold State.matrixEffect
  try dsimp only
  repeat' first
    | with_reducible assumption
    | with_reducible apply State.defer_kept
    | with_reducible apply State.modStation_kept
    | with_reducible apply Station.putTile_memWf
    | exact ‹Station.memWf _ = true›
    | intro _
    | split
    | exact Station.memWf_of (Station.putTile_memWf ‹Station.memWf _ = true›) (by with_reducible rfl)
    | exact Station.memWf_of ‹Station.memWf _ = true› (by with_reducible rfl)

theorem State.quantEffect_kept {s0 s : State} (h : Kept s0 s) {n : Fin 24} {i : Issued} :
    Kept s0 (State.quantEffect s n i) := by
  unfold State.quantEffect
  try dsimp only
  repeat' first
    | with_reducible assumption
    | with_reducible apply Kept.foldl
    | with_reducible apply State.defer_kept
    | with_reducible apply State.modStation_kept
    | with_reducible apply Station.foldl_memWf
    | with_reducible apply Station.wbuf_memWf
    | exact ‹Station.memWf _ = true›
    | intro _
    | split
    | exact Station.memWf_of (Station.wbuf_memWf ‹Station.memWf _ = true›) (by with_reducible rfl)
    | exact Station.memWf_of ‹Station.memWf _ = true› (by with_reducible rfl)
    | (simp only [Station.memWf, Bool.and_eq_true] at *; simp_all)

theorem State.endConv_kept {s0 s : State} (h : Kept s0 s) {n : Fin 24} :
    Kept s0 (State.endConv s n) := by
  unfold State.endConv
  try dsimp only
  repeat' first
    | with_reducible assumption
    | with_reducible apply State.modStation_kept
    | exact ‹Station.memWf _ = true›
    | intro _
    | split
    | exact Station.memWf_of ‹Station.memWf _ = true› (by with_reducible rfl)
    | (simp only [Station.memWf, Bool.and_eq_true] at *; simp_all)
    | with_reducible apply Kept.rest

theorem Station.applyWrite_memWf {t : Station} (h : t.memWf = true) {w : HeldWrite} :
    (Station.applyWrite t w).memWf = true := by
  unfold Station.applyWrite
  try dsimp only
  repeat' first
    | with_reducible assumption
    | exact ‹Station.memWf _ = true›
    | intro _
    | split
    | exact Station.memWf_of ‹Station.memWf _ = true› (by with_reducible rfl)

theorem Station.releaseArray_memWf {t : Station} (h : t.memWf = true) {a : Fin 32} :
    (Station.releaseArray t a).memWf = true := by
  unfold Station.releaseArray
  try dsimp only
  repeat' first
    | with_reducible assumption
    | with_reducible apply Station.foldl_memWf
    | with_reducible apply Station.applyWrite_memWf
    | exact ‹Station.memWf _ = true›
    | intro _
    | split
    | exact Station.memWf_of (Station.applyWrite_memWf ‹Station.memWf _ = true›) (by with_reducible rfl)
    | exact Station.memWf_of ‹Station.memWf _ = true› (by with_reducible rfl)

theorem State.startConv_kept {s0 s : State} (h : Kept s0 s) {n : Fin 24} {i : Issued} {a : Fin 32} :
    Kept s0 (State.startConv s n i a) := by
  unfold State.startConv
  try dsimp only
  repeat' first
    | with_reducible assumption
    | with_reducible apply State.modStation_kept
    | with_reducible apply State.nextStamp_kept
    | with_reducible apply Station.releaseArray_memWf
    | exact ‹Station.memWf _ = true›
    | intro _
    | split
    | exact Station.memWf_of (Station.releaseArray_memWf ‹Station.memWf _ = true›) (by with_reducible rfl)
    | exact Station.memWf_of ‹Station.memWf _ = true› (by with_reducible rfl)

theorem Station.maaEffect_memWf {t : Station} (h : t.memWf = true) {w : BitVec 64} :
    (Station.maaEffect t w).memWf = true := by
  unfold Station.maaEffect
  try dsimp only
  repeat' first
    | with_reducible assumption
    | with_reducible apply Station.foldl_memWf
    | with_reducible apply Station.wbuf_memWf
    | exact ‹Station.memWf _ = true›
    | intro _
    | split
    | exact Station.memWf_of (Station.wbuf_memWf ‹Station.memWf _ = true›) (by with_reducible rfl)
    | exact Station.memWf_of ‹Station.memWf _ = true› (by with_reducible rfl)
    | (simp only [Station.memWf, Bool.and_eq_true] at *; simp_all)

theorem State.pumpPort_kept {s0 : State} {k : Nat} {s : State} (h : Kept s0 s) {p : Fin 2} :
    Kept s0 (State.pumpPort k s p) := by
  induction k generalizing s with
  | zero => exact h
  | succ k ih =>
    unfold State.pumpPort
    dsimp only
    split
    · exact h
    split
    · exact h
    · refine ih ?_
      split
      · exact State.modPort_kept (State.modPort_kept h)
      · exact State.modPort_kept h

theorem State.pumpAll_kept {s0 s : State} (h : Kept s0 s) {p : Fin 2} :
    Kept s0 (State.pumpAll s p) := by
  unfold State.pumpAll
  try dsimp only
  repeat' first
    | with_reducible assumption
    | with_reducible apply State.modPort_kept
    | with_reducible apply State.pumpPort_kept
    | intro _
    | split

theorem State.queueMsg_kept {s0 s : State} (h : Kept s0 s) {p : Fin 2} {m : Msg} :
    Kept s0 (State.queueMsg s p m) := by
  unfold State.queueMsg
  try dsimp only
  repeat' first
    | with_reducible assumption
    | with_reducible apply State.modPort_kept
    | with_reducible apply State.pumpAll_kept
    | with_reducible apply Station.enqueue_memWf
    | intro _
    | split
    | exact Station.memWf_of (Station.enqueue_memWf ‹Station.memWf _ = true›) (by with_reducible rfl)

theorem State.sendOn_kept {s0 s : State} (h : Kept s0 s) {p : Fin 2} {m : Msg} :
    Kept s0 (State.sendOn s p m) := by
  unfold State.sendOn
  try dsimp only
  repeat' first
    | with_reducible assumption
    | with_reducible apply State.queueMsg_kept
    | intro _
    | split

theorem State.sendMsg_kept {s0 s : State} (h : Kept s0 s) {m : Msg} :
    Kept s0 (State.sendMsg s m) := by
  unfold State.sendMsg
  try dsimp only
  repeat' first
    | with_reducible assumption
    | with_reducible apply State.sendOn_kept
    | intro _
    | split

theorem State.setTag_kept {s0 s : State} (h : Kept s0 s) {t : Fin 64} {u : Option TagUse} :
    Kept s0 (State.setTag s t u) := by
  unfold State.setTag
  try dsimp only
  repeat' first
    | with_reducible assumption
    | with_reducible apply State.modLink_kept
    | intro _
    | split

theorem State.sendAbort_kept {s0 s : State} (h : Kept s0 s) {job : BitVec 12} {ports : List (Fin 2)} :
    Kept s0 (State.sendAbort s job ports) := by
  unfold State.sendAbort
  try dsimp only
  repeat' first
    | with_reducible assumption
    | with_reducible apply Kept.foldl
    | with_reducible apply State.modLink_kept
    | with_reducible apply State.sendOn_kept
    | intro _
    | split

theorem State.scrambleNand_kept {s0 s : State} (h : Kept s0 s) {key : Nat} {n : Nat} :
    Kept s0 (State.scrambleNand s key n) := by
  unfold State.scrambleNand
  exact State.nextStamp_kept (Kept.nand h fun hw => Memory.wf_writeBytes hw _ _)

theorem State.spoil_kept {s0 s : State} (h : Kept s0 s) {u : Nat} {o : NandOp} :
    Kept s0 (State.spoil s u o) := by
  unfold State.spoil
  try dsimp only
  repeat' first
    | with_reducible assumption
    | with_reducible apply State.scrambleNand_kept
    | intro _
    | split

theorem State.modStream_kept {s0 s : State} (h : Kept s0 s) {k : Nat} {f : NandStream → NandStream} :
    Kept s0 (State.modStream s k f) := by
  unfold State.modStream
  try dsimp only
  repeat' first
    | with_reducible assumption
    | with_reducible apply State.modNfc_kept
    | intro _
    | split

theorem State.opEnded_kept {s0 s : State} (h : Kept s0 s) {o : NandOp} {f : Option (BitVec 16 × BitVec 32)} :
    Kept s0 (State.opEnded s o f) := by
  unfold State.opEnded
  try dsimp only
  repeat' first
    | with_reducible assumption
    | with_reducible apply State.modStream_kept
    | intro _
    | split
    | with_reducible apply Kept.rest

theorem State.endStreams_kept {s0 s : State} (h : Kept s0 s) :
    Kept s0 (State.endStreams s) := by
  unfold State.endStreams
  try dsimp only
  repeat' first
    | with_reducible assumption
    | with_reducible apply Kept.foldl
    | with_reducible apply State.modJobOrder_kept
    | with_reducible apply State.modNfc_kept
    | intro _
    | split
    | with_reducible apply Kept.rest

theorem State.queueOne_kept {s0 s : State} (h : Kept s0 s) {t : NandStream} {u : State} (e : s.queueOne t = some u) :
    Kept s0 u := by
  unfold State.queueOne at e
  dsimp only at e
  split at e
  · cases e
  split at e
  · cases e; exact State.modStream_kept h
  split at e
  · cases e; exact State.modNfc_kept (State.modStream_kept (State.modLun_kept h))
  · cases e

theorem State.pumpStream_kept {s0 : State} {k : Nat} {s : State} (h : Kept s0 s) {i : Nat} :
    Kept s0 (State.pumpStream k s i) := by
  induction k generalizing s with
  | zero => exact h
  | succ k ih =>
    unfold State.pumpStream
    split
    · split
      · exact ih (State.queueOne_kept h (by assumption))
      · exact h
    · exact h

theorem State.pumpNand_kept {s0 s : State} (h : Kept s0 s) :
    Kept s0 (State.pumpNand s) := by
  unfold State.pumpNand
  try dsimp only
  repeat' first
    | with_reducible assumption
    | with_reducible apply Kept.foldl
    | with_reducible apply State.endStreams_kept
    | with_reducible apply State.modNfc_kept
    | with_reducible apply State.pumpStream_kept
    | intro _
    | split

theorem State.addStream_kept {s0 s : State} (h : Kept s0 s) {t : NandStream} :
    Kept s0 (State.addStream s t) := by
  unfold State.addStream
  try dsimp only
  repeat' first
    | with_reducible assumption
    | with_reducible apply State.modNfc_kept
    | intro _
    | split
    | with_reducible apply Kept.rest

theorem State.dropQueued_kept {s0 s : State} (h : Kept s0 s) {p : NandOp → Bool} :
    Kept s0 (State.dropQueued s p) := by
  unfold State.dropQueued
  try dsimp only
  repeat' first
    | with_reducible assumption
    | with_reducible apply Kept.foldl
    | with_reducible apply State.modNfc_kept
    | intro _
    | split
    | with_reducible apply Kept.rest

theorem State.send_kept {s0 s : State} (h : Kept s0 s) {u : Fin 32} {cs : List BusCycle} :
    Kept s0 (State.send s u cs) := by
  unfold State.send
  try dsimp only
  repeat' first
    | with_reducible assumption
    | with_reducible apply State.modNfc_kept
    | intro _
    | split

theorem State.suspect_kept {s0 s : State} (h : Kept s0 s) {u : Fin 32} {o : NandOp} {status : BitVec 16} :
    Kept s0 (State.suspect s u o status) := by
  unfold State.suspect
  try dsimp only
  repeat' first
    | with_reducible assumption
    | with_reducible apply State.fbEntry_kept
    | with_reducible apply State.modNfc_kept
    | with_reducible apply State.nandEvent_kept
    | intro _
    | split

theorem State.loseTarget_kept {s0 s : State} (h : Kept s0 s) {u : Fin 32} {o : NandOp} :
    Kept s0 (State.loseTarget s u o) := by
  unfold State.loseTarget
  try dsimp only
  repeat' first
    | with_reducible assumption
    | with_reducible apply Kept.foldl
    | with_reducible apply State.defer_kept
    | with_reducible apply State.modLun_kept
    | with_reducible apply State.modNfc_kept
    | with_reducible apply State.opEnded_kept
    | intro _
    | split

theorem State.chainFault_kept {s0 s : State} (h : Kept s0 s) {n : Fin 24} {q : Fin 16} {order : Nat} {c : Fin 8} {spec : Option (BitVec 16)} {status : BitVec 16} {detail : BitVec 32} :
    Kept s0 (State.chainFault s n q order c spec status detail) := by
  unfold State.chainFault
  try dsimp only
  repeat' first
    | with_reducible assumption
    | with_reducible apply State.nextStamp_kept
    | with_reducible apply State.settleAll_kept
    | with_reducible apply State.stationFault_kept
    | intro _
    | split

theorem State.chanIrq_kept {s0 s : State} (h : Kept s0 s) {ch : Fin 16} :
    Kept s0 (State.chanIrq s ch) := by
  unfold State.chanIrq
  try dsimp only
  repeat' first
    | with_reducible assumption
    | with_reducible apply State.raiseIf_kept
    | intro _
    | split

theorem State.dropChanStream_kept {s0 s : State} (h : Kept s0 s) {ch : Fin 16} :
    Kept s0 (State.dropChanStream s ch) := by
  unfold State.dropChanStream
  try dsimp only
  repeat' first
    | with_reducible assumption
    | with_reducible apply State.modNfc_kept
    | intro _
    | split

theorem State.reportHalt_kept {s0 s : State} (h : Kept s0 s) {ch : Fin 16} {x : Chan} {status : BitVec 16} {detail : BitVec 32} :
    Kept s0 (State.reportHalt s ch x status detail) := by
  unfold State.reportHalt
  try dsimp only
  repeat' first
    | with_reducible assumption
    | with_reducible apply State.chainFault_kept
    | with_reducible apply State.chanIrq_kept
    | with_reducible apply State.modJobOrder_kept
    | with_reducible apply State.modJob_kept
    | with_reducible apply State.setEnd_kept
    | intro _
    | split

theorem State.chanHalt_kept {s0 s : State} (h : Kept s0 s) {ch : Fin 16} {status : BitVec 16} {detail : BitVec 32} {addr : Option (BitVec 48)} :
    Kept s0 (State.chanHalt s ch status detail addr) := by
  unfold State.chanHalt
  try dsimp only
  repeat' first
    | with_reducible assumption
    | with_reducible apply State.dropChanStream_kept
    | with_reducible apply State.modChan_kept
    | with_reducible apply State.reportHalt_kept
    | intro _
    | split

theorem State.trigger_kept {s0 s : State} (h : Kept s0 s) {ch : Fin 16} :
    Kept s0 (State.trigger s ch) := by
  unfold State.trigger
  try dsimp only
  repeat' first
    | with_reducible assumption
    | refine State.modMain_kept ?_ (by with_reducible rfl) (by with_reducible rfl) (by with_reducible rfl)
    | intro _
    | split

theorem State.chanEnd_kept {s0 s : State} (h : Kept s0 s) {ch : Fin 16} :
    Kept s0 (State.chanEnd s ch) := by
  unfold State.chanEnd
  try dsimp only
  repeat' first
    | with_reducible assumption
    | with_reducible apply State.modChan_kept
    | with_reducible apply State.modJobOrder_kept
    | with_reducible apply State.modJob_kept
    | with_reducible apply State.setEnd_kept
    | with_reducible apply State.trigger_kept
    | intro _
    | split

theorem State.chainStart_kept {s0 s : State} (h : Kept s0 s) {ch : Fin 16} {who : Starter} {head : BitVec 64} {sel : BitVec 2} {spec : Option (BitVec 16)} :
    Kept s0 (State.chainStart s ch who head sel spec) := by
  unfold State.chainStart
  try dsimp only
  repeat' first
    | with_reducible assumption
    | with_reducible apply State.modChan_kept
    | intro _
    | split

theorem State.copyStart_kept {s0 s : State} (h : Kept s0 s) {ch : Fin 16} {q : Fin 16} :
    Kept s0 (State.copyStart s ch q) := by
  unfold State.copyStart
  try dsimp only
  repeat' first
    | with_reducible assumption
    | refine State.modMain_kept ?_ (by with_reducible rfl) (by with_reducible rfl) (by with_reducible rfl)
    | with_reducible apply State.chainStart_kept
    | with_reducible apply State.modChan_kept
    | intro _
    | split

theorem State.peerWrite_kept {s0 : State} {k : Nat} {s : State} (h : Kept s0 s) {ch : Fin 16} {p : Fin 8} {o : Nat} {bs : List Byte} :
    Kept s0 (State.peerWrite k s ch p o bs) := by
  induction k generalizing s o bs with
  | zero => exact h
  | succ k ih =>
    unfold State.peerWrite
    split
    · exact h
    · exact ih (State.sendMsg_kept h)

theorem State.sendRead_kept {s0 s : State} (h : Kept s0 s) {ch : Fin 16} {chip : Fin 8} {r : TrvRead} {t : Fin 64} :
    Kept s0 (State.sendRead s ch chip r t) := by
  unfold State.sendRead
  try dsimp only
  repeat' first
    | with_reducible assumption
    | with_reducible apply State.sendMsg_kept
    | with_reducible apply State.setTag_kept
    | intro _
    | split

theorem State.peerRead_kept {s0 s : State} (h : Kept s0 s) {ch : Fin 16} {a : Active} {chip : Fin 8} {t : Fin 64} {u : State}
    (e : s.peerRead ch a chip t = some u) : Kept s0 u := by
  unfold State.peerRead at e
  dsimp only at e
  repeat' split at e
  all_goals first
    | (cases e; exact State.modChan_kept (State.sendRead_kept h))
    | contradiction

theorem State.peerFlush_kept {s0 s : State} (h : Kept s0 s) {ch : Fin 16} {a : Active} {chip : Fin 8} {t : Fin 64} :
    Kept s0 (State.peerFlush s ch a chip t) := by
  unfold State.peerFlush
  try dsimp only
  repeat' first
    | with_reducible assumption
    | with_reducible apply State.flush_kept
    | with_reducible apply State.modChan_kept
    | with_reducible apply State.sendMsg_kept
    | with_reducible apply State.setTag_kept
    | intro _
    | split

theorem State.peerNext_kept {s0 s : State} (h : Kept s0 s) {ch : Fin 16} {u : State} (e : s.peerNext ch = some u) :
    Kept s0 u := by
  unfold State.peerNext at e
  dsimp only at e
  repeat' split at e
  all_goals first
    | (cases e; exact State.peerFlush_kept h)
    | exact State.peerRead_kept h e
    | contradiction

theorem State.peerStepN_kept {s0 : State} {k : Nat} {s : State} (h : Kept s0 s) {ch : Fin 16} :
    Kept s0 (State.peerStepN k s ch) := by
  induction k generalizing s with
  | zero => exact h
  | succ k ih =>
    unfold State.peerStepN
    split
    · exact ih (State.peerNext_kept h (by assumption))
    · exact h

theorem State.peerStep_kept {s0 s : State} (h : Kept s0 s) {ch : Fin 16} :
    Kept s0 (State.peerStep s ch) := by
  unfold State.peerStep
  try dsimp only
  repeat' first
    | with_reducible assumption
    | with_reducible apply State.peerStepN_kept
    | intro _
    | split

theorem State.peerSteps_kept {s0 s : State} (h : Kept s0 s) :
    Kept s0 (State.peerSteps s) := by
  unfold State.peerSteps
  try dsimp only
  repeat' first
    | with_reducible assumption
    | with_reducible apply Kept.foldl
    | with_reducible apply State.peerStep_kept
    | intro _
    | split

theorem State.writeOut_kept {s0 s : State} (h : Kept s0 s) {ch : Fin 16} {a : Active} :
    Kept s0 (State.writeOut s ch a) := by
  unfold State.writeOut
  try dsimp only
  repeat' first
    | with_reducible assumption
    | with_reducible apply State.devWrite_kept
    | with_reducible apply State.modChan_kept
    | with_reducible apply State.peerStep_kept
    | with_reducible apply State.peerWrite_kept
    | with_reducible apply Station.advance_memWf
    | intro _
    | split
    | exact Station.memWf_of (Station.advance_memWf ‹Station.memWf _ = true›) (by with_reducible rfl)
    | with_reducible apply Kept.rest

theorem State.writeBeat_kept {s0 s : State} (h : Kept s0 s) {ch : Fin 16} :
    Kept s0 (State.writeBeat s ch) := by
  unfold State.writeBeat
  try dsimp only
  repeat' first
    | with_reducible assumption
    | with_reducible apply State.modChan_kept
    | with_reducible apply State.writeOut_kept
    | intro _
    | split

theorem State.beginDesc_kept {s0 s : State} (h : Kept s0 s) {ch : Fin 16} {d : BitVec 256} {f : Fmt} :
    Kept s0 (State.beginDesc s ch d f) := by
  unfold State.beginDesc
  try dsimp only
  repeat' first
    | with_reducible assumption
    | with_reducible apply State.modChan_kept
    | intro _
    | split

theorem State.goDesc_kept {s0 s : State} (h : Kept s0 s) {ch : Fin 16} :
    Kept s0 (State.goDesc s ch) := by
  unfold State.goDesc
  try dsimp only
  repeat' first
    | with_reducible assumption
    | with_reducible apply State.addStream_kept
    | with_reducible apply State.peerStep_kept
    | with_reducible apply State.pumpNand_kept
    | intro _
    | split

theorem State.checkDesc_kept {s0 s : State} (h : Kept s0 s) {ch : Fin 16} {d : BitVec 256} {f : Fmt} :
    Kept s0 (State.checkDesc s ch d f) := by
  unfold State.checkDesc
  try dsimp only
  repeat' first
    | with_reducible assumption
    | with_reducible apply State.beginDesc_kept
    | with_reducible apply State.chanHalt_kept
    | with_reducible apply State.goDesc_kept
    | intro _
    | split

theorem State.loadDesc_kept {s0 s : State} (h : Kept s0 s) {ch : Fin 16} {d : BitVec 256} :
    Kept s0 (State.loadDesc s ch d) := by
  unfold State.loadDesc
  try dsimp only
  repeat' first
    | with_reducible assumption
    | with_reducible apply State.checkDesc_kept
    | with_reducible apply State.modChan_kept
    | intro _
    | split

theorem State.kickRun_kept {s0 s : State} (h : Kept s0 s) {ch : Fin 16} {k : PendKick} :
    Kept s0 (State.kickRun s ch k) := by
  unfold State.kickRun
  try dsimp only
  repeat' first
    | with_reducible assumption
    | with_reducible apply State.chainStart_kept
    | with_reducible apply State.chanHalt_kept
    | with_reducible apply State.checkDesc_kept
    | with_reducible apply State.modChan_kept
    | intro _
    | split

theorem State.cancelDone_kept {s0 s : State} (h : Kept s0 s) {ch : Fin 16} :
    Kept s0 (State.cancelDone s ch) := by
  unfold State.cancelDone
  try dsimp only
  repeat' first
    | with_reducible assumption
    | with_reducible apply State.dropChanStream_kept
    | with_reducible apply State.modChan_kept
    | intro _
    | split

theorem State.curEnds_kept {s0 s : State} (h : Kept s0 s) {ch : Fin 16} {a : Active} {u : State} (e : s.curEnds ch a = some u) :
    Kept s0 u := by
  unfold State.curEnds at e
  dsimp only at e
  repeat' split at e
  all_goals first
    | (cases e; first | exact State.chanHalt_kept h | exact State.cancelDone_kept h)
    | contradiction
    | (obtain ⟨d, -, rfl⟩ := Option.map_eq_some_iff.mp e; exact State.chanHalt_kept h)

theorem State.kickOrCopy_kept {s0 s : State} (h : Kept s0 s) {ch : Fin 16} {u : State}
    (e : (s.nextCopy ch).map (fun q => (s.modChan ch fun x => { x with copyWaits := x.copyWaits.filter fun w => w.1 != q }).copyStart ch q)
      = some u) : Kept s0 u := by
  obtain ⟨q, -, rfl⟩ := Option.map_eq_some_iff.mp e
  exact State.copyStart_kept (State.modChan_kept h)

theorem State.chanNext_kept {s0 s : State} (h : Kept s0 s) {ch : Fin 16} {u : State} (e : s.chanNext ch = some u) :
    Kept s0 u := by
  unfold State.chanNext at e
  dsimp only at e
  split at e
  · split at e
    · obtain rfl := Option.some.inj e; exact State.chanHalt_kept h
    split at e
    · split at e
      · contradiction
      · exact State.curEnds_kept h e
    · contradiction
  · split at e
    · contradiction
    · obtain rfl := Option.some.inj e; exact State.modChan_kept (State.chainStart_kept (State.modChan_kept h))
  · split at e
    · contradiction
    split at e
    · obtain rfl := Option.some.inj e; exact State.chainStart_kept (State.modChan_kept h)
    split at e
    · obtain rfl := Option.some.inj e; exact State.kickRun_kept h
    · split at e
      · obtain rfl := Option.some.inj e; exact State.kickRun_kept h
      · exact State.kickOrCopy_kept h e
    · exact State.kickOrCopy_kept h e
    · contradiction

theorem State.chanSettle_kept {s0 : State} {k : Nat} {s : State} (h : Kept s0 s) {ch : Fin 16} :
    Kept s0 (State.chanSettle k s ch) := by
  induction k generalizing s with
  | zero => exact h
  | succ k ih =>
    unfold State.chanSettle
    split
    · exact ih (State.chanNext_kept h (by assumption))
    · exact h

theorem State.chansSettle_kept {s0 s : State} (h : Kept s0 s) :
    Kept s0 (State.chansSettle s) := by
  unfold State.chansSettle
  try dsimp only
  repeat' first
    | with_reducible assumption
    | with_reducible apply Kept.foldl
    | with_reducible apply State.chanSettle_kept
    | intro _
    | split

theorem State.fabricClock_kept {s0 s : State} (h : Kept s0 s) {u : State} (e : s.fabricClock = some u) : Kept s0 u := by
  unfold State.fabricClock at e
  dsimp only at e
  split at e
  · cases e
  · obtain rfl := Option.some.inj e
    have h1 : ∀ f : Main → Main, (f s.main).shm.mem = s.main.shm.mem → (f s.main).stations = s.main.stations →
        (f s.main).idk.burnBusy = s.main.idk.burnBusy → Kept s0 (s.modMain f) := fun f e1 e2 e3 => State.modMain_kept h e1 e2 e3
    repeat' first
      | split
      | with_reducible apply State.chanSettle_kept
      | with_reducible apply State.writeBeat_kept
      | with_reducible apply State.modChan_kept
      | exact h1 _ rfl rfl rfl

theorem State.fabricTick_kept {s0 s : State} (h : Kept s0 s) : Kept s0 s.fabricTick := by
  unfold State.fabricTick
  cases e : s.fabricClock with
  | none => exact State.modMain_kept (f := fun m => { m with rdSide := m.rdSide.after none, wrSide := m.wrSide.after none }) h rfl rfl rfl
  | some u => exact State.fabricClock_kept h e

theorem State.fabricUntil_kept {s0 : State} {p : State → Bool} {k : Nat} {s : State} (h : Kept s0 s) :
    Kept s0 (State.fabricUntil p k s) := by
  induction k generalizing s with
  | zero => exact h
  | succ k ih =>
    unfold State.fabricUntil
    split
    · exact h
    split
    · exact ih (State.fabricClock_kept h (by assumption))
    · exact h

theorem State.until_kept {s0 s : State} (h : Kept s0 s) {p : State → Bool} :
    Kept s0 (State.until s p) := by
  unfold State.until
  try dsimp only
  repeat' first
    | with_reducible assumption
    | with_reducible apply State.fabricUntil_kept
    | intro _
    | split

theorem State.failAccess_kept {s0 s : State} (h : Kept s0 s) {ch : Fin 16} {access : Nat} {a : Nat} {peer : Option (Fin 8)} :
    Kept s0 (State.failAccess s ch access a peer) := by
  unfold State.failAccess
  try dsimp only
  repeat' first
    | with_reducible assumption
    | with_reducible apply State.chanHalt_kept
    | with_reducible apply State.modChan_kept
    | intro _
    | split

theorem State.failWrite_kept {s0 s : State} (h : Kept s0 s) {ch : Fin 16} {a : Nat} {peer : Option (Fin 8)} :
    Kept s0 (State.failWrite s ch a peer) := by
  unfold State.failWrite
  try dsimp only
  repeat' first
    | with_reducible assumption
    | with_reducible apply State.chanHalt_kept
    | with_reducible apply State.modChan_kept
    | intro _
    | split

theorem State.failedRead_kept {s0 s : State} (h : Kept s0 s) {ch : Fin 16} {adr : Nat} :
    Kept s0 (State.failedRead s ch adr) := by
  unfold State.failedRead
  try dsimp only
  repeat' first
    | with_reducible assumption
    | with_reducible apply State.modChan_kept
    | intro _
    | split

theorem State.kickFails_kept {s0 s : State} (h : Kept s0 s) {ch : Fin 16} {k : PendKick} {status : BitVec 16} {detail : BitVec 32} :
    Kept s0 (State.kickFails s ch k status detail) := by
  unfold State.kickFails
  try dsimp only
  repeat' first
    | with_reducible assumption
    | with_reducible apply State.chainFault_kept
    | with_reducible apply State.modChan_kept
    | with_reducible apply State.modCtx_kept
    | intro _
    | split

theorem State.classified_kept {s0 s : State} (h : Kept s0 s) {ch : Fin 16} {k : PendKick} {d : BitVec 256} :
    Kept s0 (State.classified s ch k d) := by
  unfold State.classified
  try dsimp only
  repeat' first
    | with_reducible assumption
    | with_reducible apply State.kickFails_kept
    | with_reducible apply State.modChan_kept
    | with_reducible apply State.modCtx_kept
    | intro _
    | split

theorem State.kickArrive_kept {s0 s : State} (h : Kept s0 s) {n : Fin 24} {k : KickReq} :
    Kept s0 (State.kickArrive s n k) := by
  unfold State.kickArrive
  try dsimp only
  repeat' first
    | with_reducible assumption
    | with_reducible apply State.modChan_kept
    | with_reducible apply State.modCtx_kept
    | with_reducible apply State.nextStamp_kept
    | intro _
    | split

theorem State.chanStreams_kept {s0 s : State} (h : Kept s0 s) :
    Kept s0 (State.chanStreams s) := by
  unfold State.chanStreams
  try dsimp only
  repeat' first
    | with_reducible assumption
    | with_reducible apply Kept.foldl
    | with_reducible apply State.chanHalt_kept
    | with_reducible apply State.modChan_kept
    | with_reducible apply State.modNfc_kept
    | intro _
    | split

theorem State.cancelNotice_kept {s0 s : State} (h : Kept s0 s) :
    Kept s0 (State.cancelNotice s) := by
  unfold State.cancelNotice
  try dsimp only
  repeat' first
    | with_reducible assumption
    | with_reducible apply State.modPwr_kept
    | with_reducible apply State.powerEvent_kept
    | intro _
    | split

theorem State.noticeCheck_kept {s0 s : State} (h : Kept s0 s) :
    Kept s0 (State.noticeCheck s) := by
  unfold State.noticeCheck
  try dsimp only
  repeat' first
    | with_reducible assumption
    | with_reducible apply State.cancelNotice_kept
    | intro _
    | split

theorem Station.tableWrite_memWf {t : Station} (h : t.memWf = true) {w : HeldWrite} :
    (Station.tableWrite t w).memWf = true := by
  unfold Station.tableWrite
  try dsimp only
  repeat' first
    | with_reducible assumption
    | with_reducible apply Station.applyWrite_memWf
    | exact ‹Station.memWf _ = true›
    | intro _
    | split
    | exact Station.memWf_of (Station.applyWrite_memWf ‹Station.memWf _ = true›) (by with_reducible rfl)
    | exact Station.memWf_of ‹Station.memWf _ = true› (by with_reducible rfl)

theorem Station.tableBytes_memWf {t : Station} (h : t.memWf = true) {a : Fin 32} {bs : List Byte} :
    (Station.tableBytes t a bs).memWf = true := by
  unfold Station.tableBytes
  try dsimp only
  repeat' first
    | with_reducible assumption
    | with_reducible apply Station.foldl_memWf
    | with_reducible apply Station.tableWrite_memWf
    | exact ‹Station.memWf _ = true›
    | intro _
    | split
    | exact Station.memWf_of (Station.tableWrite_memWf ‹Station.memWf _ = true›) (by with_reducible rfl)
    | exact Station.memWf_of ‹Station.memWf _ = true› (by with_reducible rfl)

theorem Station.releaseWrite_memWf {t : Station} (h : t.memWf = true) :
    (Station.releaseWrite t).memWf = true := by
  unfold Station.releaseWrite
  try dsimp only
  repeat' first
    | with_reducible assumption
    | with_reducible apply Station.applyWrite_memWf
    | exact ‹Station.memWf _ = true›
    | intro _
    | split
    | exact Station.memWf_of (Station.applyWrite_memWf ‹Station.memWf _ = true›) (by with_reducible rfl)
    | exact Station.memWf_of ‹Station.memWf _ = true› (by with_reducible rfl)

theorem State.laDone_kept {s0 s : State} (h : Kept s0 s) {q : Fin 16} {order : Nat} :
    Kept s0 (State.laDone s q order) := by
  unfold State.laDone
  try dsimp only
  repeat' first
    | with_reducible assumption
    | with_reducible apply State.modJobOrder_kept
    | intro _
    | split
    | with_reducible apply Kept.rest

theorem State.setProg_kept {s0 s : State} (h : Kept s0 s) {k : Fin 4} {w : Option ProgWork} :
    Kept s0 (State.setProg s k w) := by
  unfold State.setProg
  try dsimp only
  repeat' first
    | with_reducible assumption
    | refine State.modMain_kept ?_ (by with_reducible rfl) (by with_reducible rfl) (by with_reducible rfl)
    | intro _
    | split

theorem State.startProgramming_kept {s0 s : State} (h : Kept s0 s) {k : Fin 4} {w : ProgWork} {img : List Byte} :
    Kept s0 (State.startProgramming s k w img) := by
  unfold State.startProgramming
  try dsimp only
  repeat' first
    | with_reducible assumption
    | with_reducible apply State.modNv_kept
    | with_reducible apply State.modStation_kept
    | with_reducible apply State.setProg_kept
    | exact ‹Station.memWf _ = true›
    | intro _
    | split
    | exact Station.memWf_of ‹Station.memWf _ = true› (by with_reducible rfl)
    | exact Memory.wf_writeBytes (by rfl) _ _
    | with_reducible apply Kept.rest

theorem State.endProgramming_kept {s0 s : State} (h : Kept s0 s) {k : Fin 4} {w : ProgWork} {cells : Fin 266241} {iter : Fin 17} :
    Kept s0 (State.endProgramming s k w cells iter) := by
  unfold State.endProgramming
  try dsimp only
  repeat' first
    | with_reducible assumption
    | with_reducible apply State.laDone_kept
    | with_reducible apply State.modJobOrder_kept
    | with_reducible apply State.modNv_kept
    | with_reducible apply State.setProg_kept
    | intro _
    | split
    | exact Memory.wf_writeBytes (by rfl) _ _
    | with_reducible apply Kept.rest

theorem State.laFail_kept {s0 s : State} (h : Kept s0 s) {q : Fin 16} {order : Nat} {addr : Nat} :
    Kept s0 (State.laFail s q order addr) := by
  unfold State.laFail
  try dsimp only
  repeat' first
    | with_reducible assumption
    | refine State.modMain_kept ?_ (by with_reducible rfl) (by with_reducible rfl) (by with_reducible rfl)
    | with_reducible apply State.laDone_kept
    | with_reducible apply State.modJobOrder_kept
    | intro _
    | split

theorem State.programmerRead_kept {s0 s : State} (h : Kept s0 s) {k : Fin 4} {data : List Byte} :
    Kept s0 (State.programmerRead s k data) := by
  unfold State.programmerRead
  try dsimp only
  repeat' first
    | with_reducible assumption
    | with_reducible apply State.setProg_kept
    | with_reducible apply State.startProgramming_kept
    | intro _
    | split

theorem State.tablesRead_kept {s0 s : State} (h : Kept s0 s) {q : Fin 16} {data : List Byte} :
    Kept s0 (State.tablesRead s q data) := by
  unfold State.tablesRead
  try dsimp only
  repeat' first
    | with_reducible assumption
    | with_reducible apply Kept.foldl
    | with_reducible apply State.modJob_kept
    | with_reducible apply State.modStation_kept
    | with_reducible apply Station.foldl_memWf
    | with_reducible apply Station.tableBytes_memWf
    | exact ‹Station.memWf _ = true›
    | intro _
    | split
    | exact Station.memWf_of (Station.tableBytes_memWf ‹Station.memWf _ = true›) (by with_reducible rfl)
    | exact Station.memWf_of ‹Station.memWf _ = true› (by with_reducible rfl)
    | with_reducible apply Kept.rest

theorem State.spWrite_kept {s0 s : State} (h : Kept s0 s) {j : Job} {bs : List Byte} :
    Kept s0 (State.spWrite s j bs) := by
  unfold State.spWrite
  try dsimp only
  repeat' first
    | with_reducible assumption
    | with_reducible apply State.modCtx_kept
    | intro _
    | split

theorem State.setParcelsRead_kept {s0 s : State} (h : Kept s0 s) {q : Fin 16} {data : List Byte} :
    Kept s0 (State.setParcelsRead s q data) := by
  unfold State.setParcelsRead
  try dsimp only
  repeat' first
    | with_reducible assumption
    | with_reducible apply State.modJob_kept
    | with_reducible apply State.setEnd_kept
    | with_reducible apply State.spWrite_kept
    | intro _
    | split

theorem State.programmerFail_kept {s0 s : State} (h : Kept s0 s) {k : Fin 4} :
    Kept s0 (State.programmerFail s k) := by
  unfold State.programmerFail
  try dsimp only
  repeat' first
    | with_reducible assumption
    | with_reducible apply State.laFail_kept
    | with_reducible apply State.setProg_kept
    | intro _
    | split

theorem State.tablesFail_kept {s0 s : State} (h : Kept s0 s) {q : Fin 16} :
    Kept s0 (State.tablesFail s q) := by
  unfold State.tablesFail
  try dsimp only
  repeat' first
    | with_reducible assumption
    | refine State.modMain_kept ?_ (by with_reducible rfl) (by with_reducible rfl) (by with_reducible rfl)
    | with_reducible apply State.modJob_kept
    | with_reducible apply State.setEnd_kept
    | intro _
    | split

theorem State.setParcelsFail_kept {s0 s : State} (h : Kept s0 s) {q : Fin 16} :
    Kept s0 (State.setParcelsFail s q) := by
  unfold State.setParcelsFail
  try dsimp only
  repeat' first
    | with_reducible assumption
    | with_reducible apply State.modJob_kept
    | with_reducible apply State.setEnd_kept
    | intro _
    | split

theorem State.attestFail_kept {s0 s : State} (h : Kept s0 s) {q : Fin 16} :
    Kept s0 (State.attestFail s q) := by
  unfold State.attestFail
  try dsimp only
  repeat' first
    | with_reducible assumption
    | refine State.modIdk_kept ?_ (by with_reducible rfl)
    | with_reducible apply State.setEnd_kept
    | intro _
    | split

theorem State.actTrvStart_kept {s0 s : State} (h : Kept s0 s) {ch : Fin 16} :
    Kept s0 (s.act (execTrvStart ch)) := by
  unfold State.act execTrvStart
  try dsimp only
  repeat' first
    | with_reducible assumption
    | with_reducible apply State.chainStart_kept
    | with_reducible apply State.chansSettle_kept
    | with_reducible apply State.modChan_kept
    | with_reducible apply State.noticeCheck_kept
    | with_reducible apply State.when_kept
    | intro _
    | split

theorem State.actTrvPause_kept {s0 s : State} (h : Kept s0 s) {ch : Fin 16} :
    Kept s0 (s.act (execTrvPause ch)) := by
  unfold State.act execTrvPause
  try dsimp only
  repeat' first
    | with_reducible assumption
    | with_reducible apply State.modChan_kept
    | with_reducible apply State.when_kept
    | intro _
    | split

theorem State.actTrvResume_kept {s0 s : State} (h : Kept s0 s) {ch : Fin 16} :
    Kept s0 (s.act (execTrvResume ch)) := by
  unfold State.act execTrvResume
  try dsimp only
  repeat' first
    | with_reducible assumption
    | with_reducible apply State.chanStreams_kept
    | with_reducible apply State.chansSettle_kept
    | with_reducible apply State.goDesc_kept
    | with_reducible apply State.modChan_kept
    | with_reducible apply State.peerStep_kept
    | with_reducible apply State.pumpNand_kept
    | with_reducible apply State.when_kept
    | intro _
    | split

theorem State.actTrvCancel_kept {s0 s : State} (h : Kept s0 s) {ch : Fin 16} :
    Kept s0 (s.act (execTrvCancel ch)) := by
  unfold State.act execTrvCancel
  try dsimp only
  repeat' first
    | with_reducible assumption
    | with_reducible apply State.cancelDone_kept
    | with_reducible apply State.chansSettle_kept
    | with_reducible apply State.modChan_kept
    | with_reducible apply State.when_kept
    | intro _
    | split

theorem State.actTrvChnOwner_kept {s0 s : State} (h : Kept s0 s) {ch : Fin 16} {c : Fin 8} {valid : Bool} :
    Kept s0 (s.act (execTrvChnOwner ch c valid)) := by
  unfold State.act execTrvChnOwner
  try dsimp only
  repeat' first
    | with_reducible assumption
    | with_reducible apply State.modChan_kept
    | with_reducible apply State.when_kept
    | intro _
    | split

theorem State.actTrvChnCommit_kept {s0 s : State} (h : Kept s0 s) {ch : Fin 16} :
    Kept s0 (s.act (execTrvChnCommit ch)) := by
  unfold State.act execTrvChnCommit
  try dsimp only
  repeat' first
    | with_reducible assumption
    | with_reducible apply State.modChan_kept
    | with_reducible apply State.when_kept
    | intro _
    | split

theorem State.tickChan_kept {s0 s : State} (h : Kept s0 s) {g : Fin 4} {ch : Fin 16} :
    Kept s0 (State.tickChan g s ch) := by
  unfold State.tickChan
  try dsimp only
  repeat' first
    | with_reducible assumption
    | with_reducible apply State.goDesc_kept
    | with_reducible apply State.modChan_kept
    | intro _
    | split

theorem State.actTckCommit_kept {s0 s : State} (h : Kept s0 s) :
    Kept s0 (s.act execTckCommit) := by
  unfold State.act execTckCommit
  try dsimp only
  repeat' first
    | with_reducible assumption
    | refine State.modMain_kept ?_ (by with_reducible rfl) (by with_reducible rfl) (by with_reducible rfl)
    | with_reducible apply State.when_kept
    | intro _
    | split
    | with_reducible apply Kept.rest

theorem State.fetched_kept {s0 s : State} (h : Kept s0 s) {ch : Fin 16} {reply : BitVec 256} :
    Kept s0 (State.fetched s ch reply) := by
  unfold State.fetched
  try dsimp only
  repeat' first
    | with_reducible assumption
    | with_reducible apply State.chanStreams_kept
    | with_reducible apply State.chansSettle_kept
    | with_reducible apply State.classified_kept
    | with_reducible apply State.kickFails_kept
    | with_reducible apply State.loadDesc_kept
    | intro _
    | split

theorem State.readDone_kept {s0 s : State} (h : Kept s0 s) {ch : Fin 16} {a : Active} {r : TrvRead} {data : List Byte} :
    Kept s0 (State.readDone s ch a r data) := by
  unfold State.readDone
  try dsimp only
  repeat' first
    | with_reducible assumption
    | with_reducible apply State.modChan_kept
    | with_reducible apply State.nextStamp_kept
    | intro _
    | split

theorem State.chanRead_kept {s0 s : State} (h : Kept s0 s) {ch : Fin 16} {gen : BitVec 8} {data : List Byte} :
    Kept s0 (State.chanRead s ch gen data) := by
  unfold State.chanRead
  try dsimp only
  repeat' first
    | with_reducible assumption
    | with_reducible apply State.modChan_kept
    | with_reducible apply State.modCtx_kept
    | with_reducible apply State.readDone_kept
    | intro _
    | split

theorem State.freshReply_kept {s0 s : State} (h : Kept s0 s) {c : Option (Fin 8)} {gen : BitVec 8} {f : State → State} (hf : ∀ s, Kept s0 s → Kept s0 (f s)) :
    Kept s0 (State.freshReply s c gen f) := by
  unfold State.freshReply
  try dsimp only
  repeat' first
    | with_reducible assumption
    | with_reducible apply hf
    | with_reducible apply State.modCtx_kept
    | intro _
    | split

theorem State.chanFail_kept {s0 s : State} (h : Kept s0 s) {ch : Fin 16} :
    Kept s0 (State.chanFail s ch) := by
  unfold State.chanFail
  try dsimp only
  repeat' first
    | with_reducible assumption
    | with_reducible apply State.failAccess_kept
    | with_reducible apply State.failWrite_kept
    | with_reducible apply State.failedRead_kept
    | with_reducible apply State.kickFails_kept
    | with_reducible apply State.modChan_kept
    | intro _
    | split

theorem State.holdOr_kept {s0 s : State} (h : Kept s0 s) {c : Fin 8} {tag : Option (BitVec 16)} {e : HeldEffect} {now : State → State} (hnow : ∀ s, Kept s0 s → Kept s0 (now s)) :
    Kept s0 (State.holdOr s c tag e now) := by
  unfold State.holdOr
  try dsimp only
  repeat' first
    | with_reducible assumption
    | with_reducible apply hnow
    | with_reducible apply State.modCtx_kept
    | intro _
    | split

theorem State.descSignals_kept {s0 s : State} (h : Kept s0 s) {ch : Fin 16} {a : Active} :
    Kept s0 (State.descSignals s ch a) := by
  unfold State.descSignals
  try dsimp only
  repeat' first
    | with_reducible assumption
    | with_reducible apply State.addMark_kept
    | with_reducible apply State.chanIrq_kept
    | with_reducible apply State.holdOr_kept
    | intro _
    | split

theorem State.descNext_kept {s0 s : State} (h : Kept s0 s) {ch : Fin 16} {a : Active} :
    Kept s0 (State.descNext s ch a) := by
  unfold State.descNext
  try dsimp only
  repeat' first
    | with_reducible assumption
    | with_reducible apply State.chanEnd_kept
    | with_reducible apply State.chanHalt_kept
    | with_reducible apply State.modChan_kept
    | intro _
    | split

theorem State.releaseKick_kept {s0 s : State} (h : Kept s0 s) {ch : Fin 16} {e : BitVec 16} :
    Kept s0 (State.releaseKick s ch e) := by
  unfold State.releaseKick
  try dsimp only
  repeat' first
    | with_reducible assumption
    | refine State.modMain_ofFn_kept ?_ (by with_reducible rfl) ?_ (by with_reducible rfl) (by with_reducible rfl)
    | with_reducible apply State.modChan_kept
    | intro _
    | split
    | exact Station.memWf_of ‹Station.memWf _ = true› (by with_reducible rfl)
    | with_reducible apply Kept.rest

theorem State.release_kept {s0 s : State} (h : Kept s0 s) {h : Held} :
    Kept s0 (State.release s h) := by
  unfold State.release
  try dsimp only
  repeat' first
    | with_reducible assumption
    | with_reducible apply State.addMark_kept
    | with_reducible apply State.deliver_kept
    | with_reducible apply State.modStation_kept
    | with_reducible apply State.raiseIf_kept
    | with_reducible apply State.releaseKick_kept
    | exact ‹Station.memWf _ = true›
    | intro _
    | split
    | exact Station.memWf_of ‹Station.memWf _ = true› (by with_reducible rfl)
    | (simp only [Station.memWf, Bool.and_eq_true] at *; simp_all)
    | with_reducible apply Kept.rest

theorem State.reportAll_kept {s0 s : State} (h : Kept s0 s) {c : Fin 8} {ls : List Latched} :
    Kept s0 (State.reportAll s c ls) := by
  unfold State.reportAll
  try dsimp only
  repeat' first
    | with_reducible assumption
    | with_reducible apply Kept.foldl
    | with_reducible apply State.raiseIf_kept
    | with_reducible apply State.reportLatched_kept
    | intro _
    | split

theorem State.commitEpoch_kept {s0 s : State} (h : Kept s0 s) {c : Fin 8} {e : BitVec 16} :
    Kept s0 (State.commitEpoch s c e) := by
  unfold State.commitEpoch
  try dsimp only
  repeat' first
    | with_reducible assumption
    | with_reducible apply Kept.foldl
    | with_reducible apply State.applyDeferred_kept
    | with_reducible apply State.chansSettle_kept
    | with_reducible apply State.modCtx_kept
    | with_reducible apply State.peerSteps_kept
    | with_reducible apply State.release_kept
    | with_reducible apply State.reportAll_kept
    | with_reducible apply State.settleAll_kept
    | intro _
    | split

theorem State.dropKicks_kept {s0 s : State} (h : Kept s0 s) {c : Fin 8} {es : List (BitVec 16)} :
    Kept s0 (State.dropKicks s c es) := by
  unfold State.dropKicks
  try dsimp only
  repeat' first
    | with_reducible assumption
    | refine State.modMain_ofFn_kept ?_ (by with_reducible rfl) ?_ (by with_reducible rfl) (by with_reducible rfl)
    | intro _
    | split
    | exact Station.memWf_of ‹Station.memWf _ = true› (by with_reducible rfl)
    | with_reducible apply Kept.rest

theorem State.refetch_kept {s0 s : State} (h : Kept s0 s) {c : Fin 8} {ls : List Latched} :
    Kept s0 (State.refetch s c ls) := by
  unfold State.refetch
  try dsimp only
  repeat' first
    | with_reducible assumption
    | refine State.modMain_ofFn_kept ?_ (by with_reducible rfl) ?_ (by with_reducible rfl) (by with_reducible rfl)
    | intro _
    | split
    | exact Station.memWf_of ‹Station.memWf _ = true› (by with_reducible rfl)
    | with_reducible apply Kept.rest

theorem State.cancelReads_kept {s0 s : State} (h : Kept s0 s) {c : Fin 8} {es : List (BitVec 16)} :
    Kept s0 (State.cancelReads s c es) := by
  unfold State.cancelReads
  try dsimp only
  repeat' first
    | with_reducible assumption
    | with_reducible apply State.chanStreams_kept
    | with_reducible apply State.dropQueued_kept
    | with_reducible apply State.modNfc_kept
    | with_reducible apply State.pumpNand_kept
    | intro _
    | split
    | with_reducible apply Kept.rest

theorem State.discardEpochs_kept {s0 s : State} (h : Kept s0 s) {c : Fin 8} {es : List (BitVec 16)} :
    Kept s0 (State.discardEpochs s c es) := by
  unfold State.discardEpochs
  try dsimp only
  repeat' first
    | with_reducible assumption
    | with_reducible apply Kept.foldl
    | with_reducible apply State.cancelReads_kept
    | with_reducible apply State.chansSettle_kept
    | with_reducible apply State.dropKicks_kept
    | with_reducible apply State.modCtx_kept
    | with_reducible apply State.refetch_kept
    | with_reducible apply State.settleAll_kept
    | with_reducible apply State.suppressLatched_kept
    | intro _
    | split

theorem State.doomJobs_kept {s0 s : State} (h : Kept s0 s) {c : Fin 8} :
    Kept s0 (State.doomJobs s c) := by
  unfold State.doomJobs
  try dsimp only
  repeat' first
    | with_reducible assumption
    | with_reducible apply Kept.foldl
    | refine State.modMain_kept ?_ (by with_reducible rfl) (by with_reducible rfl) (by with_reducible rfl)
    | with_reducible apply State.modQueue_kept
    | intro _
    | split

theorem State.triggerReset_kept {s0 s : State} (h : Kept s0 s) {c : Fin 8} {cause : BitVec 3} :
    Kept s0 (State.triggerReset s c cause) := by
  unfold State.triggerReset
  try dsimp only
  repeat' first
    | with_reducible assumption
    | with_reducible apply Kept.foldl
    | refine State.modMain_kept ?_ (by with_reducible rfl) (by with_reducible rfl) (by with_reducible rfl)
    | with_reducible apply State.doomJobs_kept
    | with_reducible apply State.modCtx_kept
    | intro _
    | split
    | exact Station.memWf_of ‹Station.memWf _ = true› (by with_reducible rfl)

theorem State.enterOos_kept {s0 s : State} (h : Kept s0 s) {c : Fin 8} :
    Kept s0 (State.enterOos s c) := by
  unfold State.enterOos
  try dsimp only
  repeat' first
    | with_reducible assumption
    | with_reducible apply Kept.foldl
    | with_reducible apply State.assertFault_kept
    | with_reducible apply State.fbEntry_kept
    | with_reducible apply State.flush_kept
    | with_reducible apply State.modEsc_kept
    | with_reducible apply State.modGlb_kept
    | with_reducible apply State.raise_kept
    | with_reducible apply State.triggerReset_kept
    | intro _
    | split

theorem State.driverReset_kept {s0 s : State} (h : Kept s0 s) {c : Fin 8} :
    Kept s0 (State.driverReset s c) := by
  unfold State.driverReset
  try dsimp only
  repeat' first
    | with_reducible assumption
    | with_reducible apply State.enterOos_kept
    | with_reducible apply State.modEsc_kept
    | with_reducible apply State.triggerReset_kept
    | intro _
    | split

theorem State.setStep_kept {s0 s : State} (h : Kept s0 s) {c : Fin 8} {k : Fin 13} :
    Kept s0 (State.setStep s c k) := by
  unfold State.setStep
  try dsimp only
  repeat' first
    | with_reducible assumption
    | with_reducible apply State.modCtx_kept
    | intro _
    | split

theorem State.resetEpochs_kept {s0 s : State} (h : Kept s0 s) {c : Fin 8} :
    Kept s0 (State.resetEpochs s c) := by
  unfold State.resetEpochs
  try dsimp only
  repeat' first
    | with_reducible assumption
    | with_reducible apply State.discardEpochs_kept
    | intro _
    | split

theorem State.noteCut_kept {s0 s : State} (h : Kept s0 s) {c : Fin 8} {r : ResetRun} :
    Kept s0 (State.noteCut s c r) := by
  unfold State.noteCut
  try dsimp only
  repeat' first
    | with_reducible assumption
    | with_reducible apply State.modCtx_kept
    | intro _
    | split

theorem State.writeSample_kept {s0 s : State} (h : Kept s0 s) {c : Fin 8} {r : ResetRun} :
    Kept s0 (State.writeSample s c r) := by
  unfold State.writeSample
  try dsimp only
  repeat' first
    | with_reducible assumption
    | with_reducible apply State.hostWrite_kept
    | with_reducible apply State.noteCut_kept
    | intro _
    | split

theorem State.dropClaims_kept {s0 s : State} (h : Kept s0 s) {c : Fin 8} :
    Kept s0 (State.dropClaims s c) := by
  unfold State.dropClaims
  try dsimp only
  repeat' first
    | with_reducible assumption
    | with_reducible apply Kept.foldl
    | with_reducible apply State.modStation_kept
    | with_reducible apply State.reserve_kept
    | with_reducible apply Station.foldl_memWf
    | exact ‹Station.memWf _ = true›
    | intro _
    | split
    | exact Station.memWf_of ‹Station.memWf _ = true› (by with_reducible rfl)
    | with_reducible apply Kept.rest

theorem State.stopStations_kept {s0 s : State} (h : Kept s0 s) {c : Fin 8} :
    Kept s0 (State.stopStations s c) := by
  unfold State.stopStations
  dsimp only
  refine State.settleAll_kept (State.modMain_ofFn_kept (State.dropClaims_kept h) (by with_reducible rfl) (fun n ht => ?_)
    (by with_reducible rfl) (by with_reducible rfl))
  split
  · exact Station.memWf_of (Station.stop_memWf ht) (by with_reducible rfl)
  · exact ht

theorem State.revokeStations_kept {s0 s : State} (h : Kept s0 s) {c : Fin 8} :
    Kept s0 (State.revokeStations s c) := by
  unfold State.revokeStations
  dsimp only
  refine State.modCtx_kept (State.settleAll_kept (State.modMain_ofFn_kept h (by with_reducible rfl) (fun n ht => ?_) (by with_reducible rfl) (by with_reducible rfl)))
  split
  · exact Station.memWf_of ht (by with_reducible rfl)
  · exact ht

theorem State.dropTags_kept {s0 s : State} (h : Kept s0 s) {c : Fin 8} :
    Kept s0 (State.dropTags s c) := by
  unfold State.dropTags
  try dsimp only
  repeat' first
    | with_reducible assumption
    | with_reducible apply State.modLink_kept
    | intro _
    | split

theorem State.cancelChans_kept {s0 s : State} (h : Kept s0 s) {c : Fin 8} :
    Kept s0 (State.cancelChans s c) := by
  unfold State.cancelChans
  try dsimp only
  repeat' first
    | with_reducible assumption
    | with_reducible apply Kept.foldl
    | with_reducible apply State.cancelDone_kept
    | with_reducible apply State.modChan_kept
    | intro _
    | split

theorem State.revokeChans_kept {s0 s : State} (h : Kept s0 s) {c : Fin 8} :
    Kept s0 (State.revokeChans s c) := by
  unfold State.revokeChans
  try dsimp only
  repeat' first
    | with_reducible assumption
    | with_reducible apply Kept.foldl
    | with_reducible apply State.cancelDone_kept
    | with_reducible apply State.dropTags_kept
    | with_reducible apply State.modChan_kept
    | with_reducible apply State.modCtx_kept
    | with_reducible apply State.modLink_kept
    | intro _
    | split

theorem State.removeNand_kept {s0 s : State} (h : Kept s0 s) {c : Fin 8} :
    Kept s0 (State.removeNand s c) := by
  unfold State.removeNand
  try dsimp only
  repeat' first
    | with_reducible assumption
    | with_reducible apply State.chanStreams_kept
    | with_reducible apply State.dropQueued_kept
    | with_reducible apply State.modNfc_kept
    | with_reducible apply State.pumpNand_kept
    | intro _
    | split

theorem State.giveUp_kept {s0 s : State} (h : Kept s0 s) {u : Fin 32} {status : BitVec 16} :
    Kept s0 (State.giveUp s u status) := by
  unfold State.giveUp
  try dsimp only
  repeat' first
    | with_reducible assumption
    | with_reducible apply Kept.foldl
    | with_reducible apply State.modLun_kept
    | with_reducible apply State.spoil_kept
    | with_reducible apply State.suspect_kept
    | intro _
    | split

theorem State.stopProgramming_kept {s0 s : State} (h : Kept s0 s) {c : Fin 8} :
    Kept s0 (State.stopProgramming s c) := by
  unfold State.stopProgramming
  try dsimp only
  repeat' first
    | with_reducible assumption
    | with_reducible apply Kept.foldl
    | refine State.modMain_kept ?_ (by with_reducible rfl) (by with_reducible rfl) (by with_reducible rfl)
    | with_reducible apply State.modNv_kept
    | with_reducible apply State.setProg_kept
    | intro _
    | split
    | exact Memory.wf_writeBytes (by rfl) _ _
    | with_reducible apply Kept.rest

theorem State.resetAbort_kept {s0 s : State} (h : Kept s0 s) {c : Fin 8} {cause : BitVec 3} :
    Kept s0 (State.resetAbort s c cause) := by
  unfold State.resetAbort
  try dsimp only
  repeat' first
    | with_reducible assumption
    | with_reducible apply State.sendAbort_kept
    | intro _
    | split

theorem State.nextGen_kept {s0 s : State} (h : Kept s0 s) {c : Fin 8} :
    Kept s0 (State.nextGen s c) := by
  unfold State.nextGen
  try dsimp only
  repeat' first
    | with_reducible assumption
    | with_reducible apply State.modBind_kept
    | with_reducible apply State.modCtx_kept
    | intro _
    | split
    | with_reducible apply Kept.rest

theorem State.zeroParcel_kept {s0 s : State} (h : Kept s0 s) {p : Parcel} :
    Kept s0 (State.zeroParcel s p) := by
  unfold State.zeroParcel
  try dsimp only
  repeat' first
    | with_reducible assumption
    | with_reducible apply Kept.foldl
    | with_reducible apply State.modShm_kept
    | with_reducible apply State.modStation_kept
    | with_reducible apply Station.foldl_memWf
    | exact ‹Station.memWf _ = true›
    | intro _
    | split
    | exact Station.memWf_of ‹Station.memWf _ = true› (by with_reducible rfl)
    | (simp only [Station.memWf, Bool.and_eq_true] at *; simp_all)
    | with_reducible apply Kept.rest

theorem State.zeroWindows_kept {s0 s : State} (h : Kept s0 s) {t : PTable} :
    Kept s0 (State.zeroWindows s t) := by
  unfold State.zeroWindows
  try dsimp only
  repeat' first
    | with_reducible assumption
    | with_reducible apply Kept.foldl
    | with_reducible apply State.zeroParcel_kept
    | intro _
    | split

theorem State.resetRecord_kept {s0 s : State} (h : Kept s0 s) {q : Fin 16} {j : Job} {status : BitVec 16} :
    Kept s0 (State.resetRecord s q j status) := by
  unfold State.resetRecord
  try dsimp only
  repeat' first
    | with_reducible assumption
    | with_reducible apply State.deliver_kept
    | with_reducible apply State.modQueue_kept
    | with_reducible apply State.progress_kept
    | intro _
    | split

theorem State.resetRecords_kept {s0 s : State} (h : Kept s0 s) {c : Fin 8} {status : BitVec 16} :
    Kept s0 (State.resetRecords s c status) := by
  unfold State.resetRecords
  try dsimp only
  repeat' first
    | with_reducible assumption
    | with_reducible apply Kept.foldl
    | refine State.modMain_kept ?_ (by with_reducible rfl) (by with_reducible rfl) (by with_reducible rfl)
    | refine State.modIdk_kept ?_ (by with_reducible rfl)
    | with_reducible apply State.resetRecord_kept
    | intro _
    | split

theorem State.endReset_kept {s0 s : State} (h : Kept s0 s) {c : Fin 8} {r : ResetRun} :
    Kept s0 (State.endReset s c r) := by
  unfold State.endReset
  dsimp only
  refine State.chansSettle_kept (State.fbEntry_kept (State.raise_kept ?_))
  split
  · exact State.modCtx_kept (State.modMain_kept (State.modCtx_kept h) rfl rfl rfl)
  · exact State.modMain_kept (State.modCtx_kept h) rfl rfl rfl

theorem State.finishReset_kept {s0 s : State} (h : Kept s0 s) {c : Fin 8} {r : ResetRun} :
    Kept s0 (State.finishReset s c r) := by
  unfold State.finishReset
  try dsimp only
  repeat' first
    | with_reducible assumption
    | with_reducible apply State.endReset_kept
    | with_reducible apply State.nextGen_kept
    | with_reducible apply State.resetAbort_kept
    | with_reducible apply State.resetRecords_kept
    | with_reducible apply State.zeroWindows_kept
    | intro _
    | split

theorem State.resetFrom6_kept {s0 s : State} (h : Kept s0 s) {c : Fin 8} {r : ResetRun} :
    Kept s0 (State.resetFrom6 s c r) := by
  unfold State.resetFrom6
  try dsimp only
  repeat' first
    | with_reducible assumption
    | with_reducible apply State.finishReset_kept
    | with_reducible apply State.removeNand_kept
    | with_reducible apply State.setStep_kept
    | with_reducible apply State.stopProgramming_kept
    | intro _
    | split

theorem State.resetFrom5_kept {s0 s : State} (h : Kept s0 s) {c : Fin 8} {r : ResetRun} :
    Kept s0 (State.resetFrom5 s c r) := by
  unfold State.resetFrom5
  try dsimp only
  repeat' first
    | with_reducible assumption
    | with_reducible apply State.cancelChans_kept
    | with_reducible apply State.resetFrom6_kept
    | with_reducible apply State.setStep_kept
    | intro _
    | split

theorem State.resetFrom4_kept {s0 s : State} (h : Kept s0 s) {c : Fin 8} {r : ResetRun} :
    Kept s0 (State.resetFrom4 s c r) := by
  unfold State.resetFrom4
  try dsimp only
  repeat' first
    | with_reducible assumption
    | with_reducible apply State.resetFrom5_kept
    | with_reducible apply State.setStep_kept
    | with_reducible apply State.stopStations_kept
    | intro _
    | split
    | exact Station.memWf_of ‹Station.memWf _ = true› (by with_reducible rfl)

theorem State.resetSteps_kept {s0 s : State} (h : Kept s0 s) {c : Fin 8} {r : ResetRun} :
    Kept s0 (State.resetSteps s c r) := by
  unfold State.resetSteps
  try dsimp only
  repeat' first
    | with_reducible assumption
    | with_reducible apply State.modCtx_kept
    | with_reducible apply State.resetEpochs_kept
    | with_reducible apply State.resetFrom4_kept
    | with_reducible apply State.resetFrom5_kept
    | with_reducible apply State.resetFrom6_kept
    | with_reducible apply State.setStep_kept
    | with_reducible apply State.writeSample_kept
    | intro _
    | split

theorem State.abandonSample_kept {s0 s : State} (h : Kept s0 s) {c : Fin 8} {r : ResetRun} :
    Kept s0 (State.abandonSample s c r) := by
  unfold State.abandonSample
  try dsimp only
  repeat' first
    | with_reducible assumption
    | with_reducible apply State.modCtx_kept
    | with_reducible apply State.noteCut_kept
    | with_reducible apply State.resetFrom4_kept
    | with_reducible apply State.when_kept
    | intro _
    | split

theorem State.cutFrom_kept {s0 s : State} (h : Kept s0 s) {p : Fin 2} :
    Kept s0 (State.cutFrom s p) := by
  unfold State.cutFrom
  try dsimp only
  repeat' first
    | with_reducible assumption
    | with_reducible apply State.modPort_kept
    | intro _
    | split

theorem State.portDown_kept {s0 s : State} (h : Kept s0 s) {p : Fin 2} {cause : BitVec 3} :
    Kept s0 (State.portDown s p cause) := by
  unfold State.portDown
  try dsimp only
  repeat' first
    | with_reducible assumption
    | with_reducible apply Kept.foldl
    | with_reducible apply State.cutFrom_kept
    | with_reducible apply State.fbEntry_kept
    | with_reducible apply State.linkEvent_kept
    | with_reducible apply State.modPort_kept
    | with_reducible apply State.sendAbort_kept
    | with_reducible apply State.triggerReset_kept
    | intro _
    | split

theorem State.doorbell_kept {s0 s : State} (h : Kept s0 s) {f : State → State} (hf : ∀ s, Kept s0 s → Kept s0 (f s)) :
    Kept s0 (State.doorbell s f) := by
  unfold State.doorbell
  try dsimp only
  repeat' first
    | with_reducible assumption
    | with_reducible apply hf
    | with_reducible apply State.cancelNotice_kept
    | with_reducible apply State.modGlb_kept
    | with_reducible apply State.modPwr_kept
    | intro _
    | split

theorem State.badDoorbell_kept {s0 s : State} (h : Kept s0 s) {q : Fin 16} :
    Kept s0 (State.badDoorbell s q) := by
  unfold State.badDoorbell
  try dsimp only
  repeat' first
    | with_reducible assumption
    | with_reducible apply State.modQueue_kept
    | intro _
    | split

theorem State.takeDoorbell_kept {s0 s : State} (h : Kept s0 s) {q : Fin 16} {f : State → State} (hf : ∀ s, Kept s0 s → Kept s0 (f s)) :
    Kept s0 (State.takeDoorbell s q f) := by
  unfold State.takeDoorbell
  try dsimp only
  repeat' first
    | with_reducible assumption
    | with_reducible apply hf
    | with_reducible apply State.badDoorbell_kept
    | with_reducible apply State.modQueue_kept
    | intro _
    | split

theorem State.actSqTail_kept {s0 s : State} (h : Kept s0 s) {q : Fin 16} {idx : BitVec 32} :
    Kept s0 (s.act (execSqTail q idx)) := by
  unfold State.act execSqTail
  try dsimp only
  repeat' first
    | with_reducible assumption
    | with_reducible apply State.badDoorbell_kept
    | with_reducible apply State.doorbell_kept
    | with_reducible apply State.modQueue_kept
    | with_reducible apply State.takeDoorbell_kept
    | intro _
    | split

theorem State.actCqHead_kept {s0 s : State} (h : Kept s0 s) {q : Fin 16} {idx : BitVec 32} :
    Kept s0 (s.act (execCqHead q idx)) := by
  unfold State.act execCqHead
  try dsimp only
  repeat' first
    | with_reducible assumption
    | with_reducible apply State.badDoorbell_kept
    | with_reducible apply State.doorbell_kept
    | with_reducible apply State.drainHeld_kept
    | with_reducible apply State.modQueue_kept
    | with_reducible apply State.takeDoorbell_kept
    | intro _
    | split

theorem State.actHqCommit_kept {s0 s : State} (h : Kept s0 s) {q : Fin 16} :
    Kept s0 (s.act (execHqCommit q)) := by
  unfold State.act execHqCommit
  try dsimp only
  repeat' first
    | with_reducible assumption
    | with_reducible apply State.modQueue_kept
    | with_reducible apply State.when_kept
    | intro _
    | split

theorem State.sendPending_kept {s0 s : State} (h : Kept s0 s) :
    Kept s0 (State.sendPending s) := by
  unfold State.sendPending
  try dsimp only
  repeat' first
    | with_reducible assumption
    | with_reducible apply Kept.foldl
    | with_reducible apply State.modMsix_kept
    | with_reducible apply State.raise_kept
    | intro _
    | split

theorem State.hostMsix_kept {s0 s : State} (h : Kept s0 s) {f : Msix → Msix} :
    Kept s0 (State.hostMsix s f) := by
  unfold State.hostMsix
  try dsimp only
  repeat' first
    | with_reducible assumption
    | with_reducible apply State.modMsix_kept
    | with_reducible apply State.sendPending_kept
    | intro _
    | split

theorem State.actHqMark_kept {s0 s : State} (h : Kept s0 s) {m : Fin 64} {w : W64} :
    Kept s0 (s.act (execHqMark m w)) := by
  unfold State.act execHqMark
  try dsimp only
  repeat' first
    | with_reducible assumption
    | with_reducible apply State.setMark_kept
    | with_reducible apply State.when_kept
    | intro _
    | split

theorem State.actGlbHostwin_kept {s0 s : State} (h : Kept s0 s) {w : W64} :
    Kept s0 (s.act (execGlbHostwin w)) := by
  unfold State.act execGlbHostwin
  try dsimp only
  repeat' first
    | with_reducible assumption
    | with_reducible apply State.modGlb_kept
    | with_reducible apply State.when_kept
    | intro _
    | split

theorem State.cutCells_kept {s0 s : State} (h : Kept s0 s) :
    Kept s0 (State.cutCells s) := by
  unfold State.cutCells
  dsimp only
  refine Kept.foldl _ (Kept.nv h fun n a hw => ?_) fun s u hs => ?_
  · simp only [Fin.getElem_fin, Vector.getElem_ofFn]
    split <;> exact hw
  · split
    · split
      · exact hs
      · exact Kept.foldl _ hs fun s o hs => State.spoil_kept hs
    · exact hs

theorem State.freshMain_kept {s0 s t : State} (h : Kept s0 s) (e1 : t.otp = s.cutBurn.otp) (e2 : t.nand = s.nand)
    (e3 : t.hostMem = s.hostMem) (e4 : t.nv = s.nv) : Kept s0 t.freshMain := by
  refine h.trans <| (Kept.iff _ _).mpr ⟨?_, fun _ => rfl, ?_, fun hs hp => ?_⟩
  · rw [State.memWf_iff, State.memWf_iff]
    rintro ⟨h1, h2, h3, h4, h5⟩
    refine ⟨by rw [← e2] at h1; exact h1, by rw [← e3] at h2; exact h2, rfl, fun n => ?_, by rw [← e4] at h5; exact h5⟩
    unfold State.freshMain Main.fresh
    simp only [Fin.getElem_fin, Vector.getElem_ofFn]
    rfl
  · refine (congrArg Otp.made e1).trans ?_
    unfold State.cutBurn
    split <;> rfl
  · refine e1.trans ?_
    unfold State.cutBurn
    split
    next hb =>
      have := hs
      simp only [State.otpSafe, hb, Bool.not_true, Bool.false_or, beq_iff_eq] at this
      exact absurd this hp
    next => rfl

theorem State.cutBurn_parts (s : State) : s.cutBurn.nand = s.nand ∧ s.cutBurn.hostMem = s.hostMem ∧ s.cutBurn.nv = s.nv := by
  unfold State.cutBurn
  split <;> exact ⟨rfl, rfl, rfl⟩

theorem Kept.fresh {s0 s : State} (h : Kept s0 s) {pending : List Instr} {slots : Vector (List Byte) 16} {aon : Aon}
    {phase : Phase} {perstLow dftHigh : Bool} {flrWait : Option BootInputs} {stamp : Nat} {readData : List Byte}
    {readUr : Bool} {mgtData : List Byte} {main : Main} :
    Kept s0 (State.freshMain { pending := pending, otp := s.cutBurn.otp, nv := s.cutBurn.nv, slots := slots,
                               nand := s.cutBurn.nand, hostMem := s.cutBurn.hostMem, aon := aon, phase := phase,
                               perstLow := perstLow, dftHigh := dftHigh, flrWait := flrWait, stamp := stamp,
                               readData := readData, readUr := readUr, mgtData := mgtData, main := main }) := by
  obtain ⟨e2, e3, e4⟩ := State.cutBurn_parts s
  rw [e2, e3, e4]
  exact State.freshMain_kept h rfl rfl rfl rfl

theorem State.deviceReset_kept {s0 s : State} (h : Kept s0 s) {c : ResetCause} :
    Kept s0 (State.deviceReset s c) := by
  unfold State.deviceReset State.cutWork
  dsimp only
  exact State.modPcie_kept (Kept.fresh (State.cutCells_kept h))

theorem State.bootFail_kept {s0 s : State} (h : Kept s0 s) {stage : BitVec 4} {err : BitVec 8} :
    Kept s0 (State.bootFail s stage err) := by
  unfold State.bootFail
  try dsimp only
  repeat' first
    | with_reducible assumption
    | with_reducible apply State.assertFault_kept
    | with_reducible apply State.fbEntry_kept
    | with_reducible apply State.flush_kept
    | with_reducible apply State.modAon_kept
    | with_reducible apply State.modGlb_kept
    | intro _
    | split
    | with_reducible apply Kept.rest

theorem State.bootFromPcie_kept {s0 s : State} (h : Kept s0 s) :
    Kept s0 (State.bootFromPcie s) := by
  unfold State.bootFromPcie
  try dsimp only
  repeat' first
    | with_reducible assumption
    | with_reducible apply State.modGlb_kept
    | intro _
    | split
    | with_reducible apply Kept.rest

theorem State.handOver_kept {s0 s : State} (h : Kept s0 s) {img : List Byte} :
    Kept s0 (State.handOver s img) := by
  unfold State.handOver
  try dsimp only
  repeat' first
    | with_reducible assumption
    | refine State.modIdk_kept ?_ (by with_reducible rfl)
    | with_reducible apply State.modGlb_kept
    | intro _
    | split
    | with_reducible apply Kept.rest

theorem State.geometry_kept {s0 s : State} (h : Kept s0 s) {p : TargetParam} :
    Kept s0 (State.geometry s p) := by
  unfold State.geometry
  try dsimp only
  repeat' first
    | with_reducible assumption
    | with_reducible apply State.modNfc_kept
    | intro _
    | split

theorem State.bootFromNand_kept {s0 s : State} (h : Kept s0 s) {b : BootInputs} :
    Kept s0 (State.bootFromNand s b) := by
  unfold State.bootFromNand
  try dsimp only
  repeat' first
    | with_reducible assumption
    | with_reducible apply State.bootFail_kept
    | with_reducible apply State.bootFromPcie_kept
    | with_reducible apply State.handOver_kept
    | with_reducible apply State.modGlb_kept
    | intro _
    | split

theorem State.startBoot_kept {s0 s : State} (h : Kept s0 s) {b : BootInputs} :
    Kept s0 (State.startBoot s b) := by
  unfold State.startBoot
  try dsimp only
  repeat' first
    | with_reducible assumption
    | with_reducible apply State.bootFail_kept
    | with_reducible apply State.bootFromNand_kept
    | with_reducible apply State.bootFromPcie_kept
    | with_reducible apply State.fbEntry_kept
    | with_reducible apply State.setLink_kept
    | with_reducible apply State.when_kept
    | intro _
    | split
    | with_reducible apply Kept.rest

theorem State.startMain_kept {s0 s : State} (h : Kept s0 s) {b : BootInputs} :
    Kept s0 (State.startMain s b) := by
  unfold State.startMain
  try dsimp only
  repeat' first
    | with_reducible assumption
    | with_reducible apply State.startBoot_kept
    | intro _
    | split
    | with_reducible apply Kept.rest

theorem State.wakeSequence_kept {s0 s : State} (h : Kept s0 s) {b : BootInputs} :
    Kept s0 (State.wakeSequence s b) := by
  unfold State.wakeSequence
  try dsimp only
  repeat' first
    | with_reducible assumption
    | with_reducible apply State.assertFault_kept
    | with_reducible apply State.fbEntry_kept
    | with_reducible apply State.flush_kept
    | with_reducible apply State.modAon_kept
    | with_reducible apply State.startMain_kept
    | intro _
    | split
    | with_reducible apply Kept.rest

theorem State.discoverOne_kept {s0 s : State} (h : Kept s0 s) {first : Option TargetParam} {ch : Nat} {ce : Nat} {t : TargetReply} :
    Kept s0 (State.discoverOne s first ch ce t) := by
  unfold State.discoverOne
  try dsimp only
  repeat' first
    | with_reducible assumption
    | with_reducible apply Kept.foldl
    | with_reducible apply State.fbEntry_kept
    | with_reducible apply State.modNfc_kept
    | intro _
    | split

theorem State.discover_kept {s0 s : State} (h : Kept s0 s) {targets : Vector TargetReply 16} :
    Kept s0 (State.discover s targets) := by
  unfold State.discover
  try dsimp only
  repeat' first
    | with_reducible assumption
    | with_reducible apply Kept.foldl
    | with_reducible apply State.discoverOne_kept
    | with_reducible apply State.geometry_kept
    | with_reducible apply State.modNfc_kept
    | intro _
    | split

theorem State.firmwareStart_kept {s0 s : State} (h : Kept s0 s) {found : Discovery} :
    Kept s0 (State.firmwareStart s found) := by
  unfold State.firmwareStart
  try dsimp only
  repeat' first
    | with_reducible assumption
    | with_reducible apply State.discover_kept
    | with_reducible apply State.fbEntry_kept
    | with_reducible apply State.modAon_kept
    | with_reducible apply State.modGlb_kept
    | with_reducible apply State.modNfc_kept
    | intro _
    | split
    | with_reducible apply Kept.rest

theorem State.flrCheck_kept {s0 s : State} (h : Kept s0 s) :
    Kept s0 (State.flrCheck s) := by
  unfold State.flrCheck
  try dsimp only
  repeat' first
    | with_reducible assumption
    | with_reducible apply State.deviceReset_kept
    | with_reducible apply State.startMain_kept
    | intro _
    | split

theorem State.claimStations_kept {s0 s : State} (h : Kept s0 s) {q : Fin 16} {j : Job} :
    Kept s0 (State.claimStations s q j) := by
  unfold State.claimStations
  try dsimp only
  repeat' first
    | with_reducible assumption
    | refine State.modMain_ofFn_kept ?_ (by with_reducible rfl) ?_ (by with_reducible rfl) (by with_reducible rfl)
    | with_reducible apply State.modPwr_kept
    | intro _
    | split
    | exact Station.memWf_of ‹Station.memWf _ = true› (by with_reducible rfl)

theorem State.noteWaits_kept {s0 s : State} (h : Kept s0 s) {c : Fin 8} :
    Kept s0 (State.noteWaits s c) := by
  unfold State.noteWaits
  try dsimp only
  repeat' first
    | with_reducible assumption
    | with_reducible apply Kept.foldl
    | with_reducible apply State.modJob_kept
    | with_reducible apply State.when_kept
    | intro _
    | split

theorem State.onJob_kept {s0 s : State} (h : Kept s0 s) {q : Fin 16} {cmd : Nat} {f : Job → State} (hf : ∀ a, Kept s0 (f a)) :
    Kept s0 (State.onJob s q cmd f) := by
  unfold State.onJob
  try dsimp only
  repeat' first
    | with_reducible assumption
    | with_reducible apply hf
    | intro _
    | split

theorem State.checked_kept {s0 s : State} (h : Kept s0 s) {q : Fin 16} {bad : Option Nat} {f : State → State} (hf : ∀ s, Kept s0 s → Kept s0 (f s)) :
    Kept s0 (State.checked s q bad f) := by
  unfold State.checked
  try dsimp only
  repeat' first
    | with_reducible assumption
    | with_reducible apply hf
    | with_reducible apply State.badDescriptor_kept
    | intro _
    | split

theorem State.ranged_kept {s0 s : State} (h : Kept s0 s) {q : Fin 16} {fault : Option (BitVec 32)} {f : State → State} (hf : ∀ s, Kept s0 s → Kept s0 (f s)) :
    Kept s0 (State.ranged s q fault f) := by
  unfold State.ranged
  try dsimp only
  repeat' first
    | with_reducible assumption
    | with_reducible apply hf
    | with_reducible apply State.setEnd_kept
    | intro _
    | split

theorem State.setRunning_kept {s0 s : State} (h : Kept s0 s) {q : Fin 16} :
    Kept s0 (State.setRunning s q) := by
  unfold State.setRunning
  try dsimp only
  repeat' first
    | with_reducible assumption
    | with_reducible apply State.modJob_kept
    | intro _
    | split
    | with_reducible apply Kept.rest

theorem Station.launch_memWf {t : Station} (h : t.memWf = true) {j : Job} {q : Fin 16} {n : Fin 24} {stamp : Nat} :
    (Station.launch t j q n stamp).memWf = true := by
  unfold Station.launch
  try dsimp only
  repeat' first
    | with_reducible assumption
    | exact ‹Station.memWf _ = true›
    | intro _
    | split
    | exact Station.memWf_of ‹Station.memWf _ = true› (by with_reducible rfl)
    | (simp only [Station.memWf, Bool.and_eq_true] at *; simp_all)

theorem State.nandIo_kept {s0 s : State} (h : Kept s0 s) {q : Fin 16} {kind : NandKind} :
    Kept s0 (State.nandIo s q kind) := by
  unfold State.nandIo
  try dsimp only
  repeat' first
    | with_reducible assumption
    | with_reducible apply State.addStream_kept
    | with_reducible apply State.checked_kept
    | with_reducible apply State.onJob_kept
    | with_reducible apply State.pumpNand_kept
    | with_reducible apply State.ranged_kept
    | with_reducible apply State.setRunning_kept
    | intro _
    | split

theorem State.markOp_kept {s0 s : State} (h : Kept s0 s) {q : Fin 16} {op : Nat} {f : State → Fin 64 → BitVec 64 → State} (hf : ∀ s b c, Kept s0 s → Kept s0 (f s b c)) :
    Kept s0 (State.markOp s q op f) := by
  unfold State.markOp
  try dsimp only
  repeat' first
    | with_reducible assumption
    | with_reducible apply hf
    | with_reducible apply State.checked_kept
    | with_reducible apply State.onJob_kept
    | with_reducible apply State.setEnd_kept
    | intro _
    | split

theorem State.writeReport_kept {s0 s : State} (h : Kept s0 s) {q : Fin 16} {j : Job} :
    Kept s0 (State.writeReport s q j) := by
  unfold State.writeReport
  try dsimp only
  repeat' first
    | with_reducible assumption
    | refine State.modIdk_kept ?_ (by with_reducible rfl)
    | with_reducible apply State.devWrite_kept
    | with_reducible apply State.setEnd_kept
    | intro _
    | split

theorem State.reachEnd_kept {s0 s : State} (h : Kept s0 s) {q : Fin 16} :
    Kept s0 (State.reachEnd s q) := by
  unfold State.reachEnd
  try dsimp only
  repeat' first
    | with_reducible assumption
    | with_reducible apply State.modJob_kept
    | with_reducible apply State.writeReport_kept
    | intro _
    | split
    | with_reducible apply Kept.rest

theorem State.jobEnd_kept {s0 s : State} (h : Kept s0 s) {q : Fin 16} :
    Kept s0 (State.jobEnd s q) := by
  unfold State.jobEnd
  try dsimp only
  repeat' first
    | with_reducible assumption
    | with_reducible apply State.completeUnder_kept
    | with_reducible apply State.complete_kept
    | with_reducible apply State.countEnd_kept
    | with_reducible apply State.modCtx_kept
    | with_reducible apply State.modJob_kept
    | with_reducible apply State.reachEnd_kept
    | intro _
    | split

theorem State.stnWrite_kept {s0 s : State} (h : Kept s0 s) {n : Fin 24} {f : State → State} (hf : ∀ s, Kept s0 s → Kept s0 (f s)) :
    Kept s0 (State.stnWrite s n f) := by
  unfold State.stnWrite
  try dsimp only
  repeat' first
    | with_reducible assumption
    | with_reducible apply hf
    | with_reducible apply State.powerEvent_kept
    | intro _
    | split

theorem State.actStnBenchCtrl_kept {s0 s : State} (h : Kept s0 s) {n : Fin 24} {a : Fin 32} {go : Bool} :
    Kept s0 (s.act (execStnBenchCtrl n a go)) := by
  unfold State.act execStnBenchCtrl
  try dsimp only
  repeat' first
    | with_reducible assumption
    | with_reducible apply State.modPwr_kept
    | with_reducible apply State.modStation_kept
    | with_reducible apply State.stnWrite_kept
    | exact ‹Station.memWf _ = true›
    | intro _
    | split
    | exact Station.memWf_of ‹Station.memWf _ = true› (by with_reducible rfl)
    | with_reducible apply Kept.rest

theorem State.startReset_kept {s0 s : State} (h : Kept s0 s) {u : Fin 32} {o : NandOp} :
    Kept s0 (State.startReset s u o) := by
  unfold State.startReset
  try dsimp only
  repeat' first
    | with_reducible assumption
    | with_reducible apply State.modLun_kept
    | with_reducible apply State.send_kept
    | intro _
    | split

theorem State.startSetup_kept {s0 s : State} (h : Kept s0 s) {u : Fin 32} {o : NandOp} :
    Kept s0 (State.startSetup s u o) := by
  unfold State.startSetup
  try dsimp only
  repeat' first
    | with_reducible assumption
    | with_reducible apply State.modLun_kept
    | with_reducible apply State.send_kept
    | intro _
    | split

theorem State.setupDone_kept {s0 s : State} (h : Kept s0 s) {u : Fin 32} :
    Kept s0 (State.setupDone s u) := by
  unfold State.setupDone
  try dsimp only
  repeat' first
    | with_reducible assumption
    | with_reducible apply Kept.foldl
    | with_reducible apply State.modLun_kept
    | with_reducible apply State.send_kept
    | intro _
    | split

theorem State.writeDie_kept {s0 s : State} (h : Kept s0 s) {u : Fin 32} {o : NandOp} :
    Kept s0 (State.writeDie s u o) := by
  unfold State.writeDie
  dsimp only
  split
  · exact Kept.nand h fun hw => Memory.wf_writeBytes hw _ _
  split
  · exact Kept.nand h fun hw => Memory.wf_zeroFill hw _ _
  · exact h

theorem State.nandSettle_kept {s0 s : State} (h : Kept s0 s) :
    Kept s0 (State.nandSettle s) := by
  unfold State.nandSettle
  try dsimp only
  repeat' first
    | with_reducible assumption
    | with_reducible apply State.chanStreams_kept
    | with_reducible apply State.chansSettle_kept
    | with_reducible apply State.flrCheck_kept
    | with_reducible apply State.pumpNand_kept
    | intro _
    | split

theorem State.startOp_kept {s0 s : State} (h : Kept s0 s) {u : Fin 32} {o : NandOp} :
    Kept s0 (State.startOp s u o) := by
  unfold State.startOp
  try dsimp only
  repeat' first
    | with_reducible assumption
    | with_reducible apply Kept.foldl
    | with_reducible apply State.modLun_kept
    | with_reducible apply State.nandSettle_kept
    | with_reducible apply State.opEnded_kept
    | with_reducible apply State.send_kept
    | with_reducible apply State.writeDie_kept
    | intro _
    | split

theorem State.polled_kept {s0 s : State} (h : Kept s0 s) {u : Fin 32} {c : InFlight} {fail : Bool} :
    Kept s0 (State.polled s u c fail) := by
  unfold State.polled
  try dsimp only
  repeat' first
    | with_reducible assumption
    | with_reducible apply State.flrCheck_kept
    | with_reducible apply State.modLun_kept
    | with_reducible apply State.nandSettle_kept
    | with_reducible apply State.send_kept
    | intro _
    | split
    | with_reducible apply Kept.rest

theorem State.countNand_kept {s0 s : State} (h : Kept s0 s) {m : Fin 7} :
    Kept s0 (State.countNand s m) := by
  unfold State.countNand
  try dsimp only
  repeat' first
    | with_reducible assumption
    | with_reducible apply State.modNfc_kept
    | intro _
    | split

theorem State.captureUce_kept {s0 s : State} (h : Kept s0 s) {u : Fin 32} {c : InFlight} {k : Fin 5} {mismatch : Bool} :
    Kept s0 (State.captureUce s u c k mismatch) := by
  unfold State.captureUce
  try dsimp only
  repeat' first
    | with_reducible assumption
    | with_reducible apply State.defer_kept
    | intro _
    | split

theorem State.setRead_kept {s0 s : State} (h : Kept s0 s) {u : Fin 32} {c : InFlight} :
    Kept s0 (State.setRead s u c) := by
  unfold State.setRead
  try dsimp only
  repeat' first
    | with_reducible assumption
    | with_reducible apply State.modLun_kept
    | intro _
    | split

theorem State.cwCorrected_kept {s0 s : State} (h : Kept s0 s) {u : Fin 32} {c : InFlight} {k : Fin 5} {bits : Nat} :
    Kept s0 (State.cwCorrected s u c k bits) := by
  unfold State.cwCorrected
  try dsimp only
  repeat' first
    | with_reducible assumption
    | with_reducible apply State.captureUce_kept
    | with_reducible apply State.countNand_kept
    | with_reducible apply State.modNfc_kept
    | with_reducible apply State.setRead_kept
    | intro _
    | split

theorem State.restoreSet_kept {s0 s : State} (h : Kept s0 s) {u : Fin 32} {c : InFlight} :
    Kept s0 (State.restoreSet s u c) := by
  unfold State.restoreSet
  try dsimp only
  repeat' first
    | with_reducible assumption
    | with_reducible apply State.send_kept
    | with_reducible apply State.setRead_kept
    | intro _
    | split
    | with_reducible apply Kept.rest

theorem State.ladderStep_kept {s0 s : State} (h : Kept s0 s) {u : Fin 32} :
    Kept s0 (State.ladderStep s u) := by
  unfold State.ladderStep
  try dsimp only
  repeat' first
    | with_reducible assumption
    | with_reducible apply Kept.foldl
    | with_reducible apply State.captureUce_kept
    | with_reducible apply State.countNand_kept
    | with_reducible apply State.restoreSet_kept
    | with_reducible apply State.send_kept
    | with_reducible apply State.setRead_kept
    | intro _
    | split
    | with_reducible apply Kept.rest

theorem State.beginMove_kept {s0 s : State} (h : Kept s0 s) {u : Fin 32} {c : InFlight} :
    Kept s0 (State.beginMove s u c) := by
  unfold State.beginMove
  try dsimp only
  repeat' first
    | with_reducible assumption
    | with_reducible apply State.send_kept
    | with_reducible apply State.setRead_kept
    | intro _
    | split

theorem State.decodeOne_kept {s0 s : State} (h : Kept s0 s) {u : Fin 32} {c : InFlight} {k : Fin 5} {outcome : DecodeOutcome} :
    Kept s0 (State.decodeOne s u c k outcome) := by
  unfold State.decodeOne
  try dsimp only
  repeat' first
    | with_reducible assumption
    | with_reducible apply State.countNand_kept
    | with_reducible apply State.cwCorrected_kept
    | with_reducible apply State.setRead_kept
    | intro _
    | split

theorem State.nandData_kept {s0 s : State} (h : Kept s0 s) {o : NandOp} {bs : List Byte} :
    Kept s0 (State.nandData s o bs) := by
  unfold State.nandData
  try dsimp only
  repeat' first
    | with_reducible assumption
    | with_reducible apply State.devWrite_kept
    | with_reducible apply State.modChan_kept
    | with_reducible apply State.modCtx_kept
    | intro _
    | split

theorem State.endOp_kept {s0 s : State} (h : Kept s0 s) {u : Fin 32} {c : InFlight} {f : Option (BitVec 16 × BitVec 32)} :
    Kept s0 (State.endOp s u c f) := by
  unfold State.endOp
  try dsimp only
  repeat' first
    | with_reducible assumption
    | with_reducible apply State.modLun_kept
    | with_reducible apply State.nandSettle_kept
    | with_reducible apply State.opEnded_kept
    | intro _
    | split

theorem State.endRead_kept {s0 s : State} (h : Kept s0 s) {u : Fin 32} {c : InFlight} :
    Kept s0 (State.endRead s u c) := by
  unfold State.endRead
  try dsimp only
  repeat' first
    | with_reducible assumption
    | with_reducible apply State.endOp_kept
    | with_reducible apply State.nandData_kept
    | with_reducible apply State.nextStamp_kept
    | with_reducible apply State.restoreSet_kept
    | intro _
    | split

theorem State.actNfcCommit_kept {s0 s : State} (h : Kept s0 s) :
    Kept s0 (s.act execNfcCommit) := by
  unfold State.act execNfcCommit
  try dsimp only
  repeat' first
    | with_reducible assumption
    | with_reducible apply State.modNfc_kept
    | with_reducible apply State.when_kept
    | intro _
    | split

theorem State.refuse_kept {s0 s : State} (h : Kept s0 s) {src : Fin 8} {ch : Fin 16} {off : BitVec 28} :
    Kept s0 (State.refuse s src ch off) := by
  unfold State.refuse
  try dsimp only
  repeat' first
    | with_reducible assumption
    | with_reducible apply State.linkEvent_kept
    | with_reducible apply State.modLink_kept
    | intro _
    | split

theorem State.onWrite_kept {s0 s : State} (h : Kept s0 s) {m : Msg} :
    Kept s0 (State.onWrite s m) := by
  unfold State.onWrite
  try dsimp only
  repeat' first
    | with_reducible assumption
    | with_reducible apply State.refuse_kept
    | with_reducible apply State.spaceWrite_kept
    | intro _
    | split

theorem State.onRead_kept {s0 s : State} (h : Kept s0 s) {m : Msg} :
    Kept s0 (State.onRead s m) := by
  unfold State.onRead
  try dsimp only
  repeat' first
    | with_reducible assumption
    | with_reducible apply State.sendMsg_kept
    | intro _
    | split

theorem State.onMarkAdd_kept {s0 s : State} (h : Kept s0 s) {m : Msg} :
    Kept s0 (State.onMarkAdd s m) := by
  unfold State.onMarkAdd
  try dsimp only
  repeat' first
    | with_reducible assumption
    | with_reducible apply State.addMark_kept
    | with_reducible apply State.refuse_kept
    | intro _
    | split

theorem State.onFlush_kept {s0 s : State} (h : Kept s0 s) {m : Msg} :
    Kept s0 (State.onFlush s m) := by
  unfold State.onFlush
  try dsimp only
  repeat' first
    | with_reducible assumption
    | with_reducible apply State.modLink_kept
    | with_reducible apply State.sendMsg_kept
    | intro _
    | split

theorem State.lostTag_kept {s0 s : State} (h : Kept s0 s) {t : Fin 64} {gen : BitVec 8} :
    Kept s0 (State.lostTag s t gen) := by
  unfold State.lostTag
  try dsimp only
  repeat' first
    | with_reducible assumption
    | with_reducible apply State.modCtx_kept
    | with_reducible apply State.modLink_kept
    | intro _
    | split

theorem State.onTag_kept {s0 s : State} (h : Kept s0 s) {t : Fin 64} {gen : BitVec 8} {f : State → TagUse → Active → State} (hf : ∀ s b c, Kept s0 s → Kept s0 (f s b c)) :
    Kept s0 (State.onTag s t gen f) := by
  unfold State.onTag
  try dsimp only
  repeat' first
    | with_reducible assumption
    | with_reducible apply hf
    | with_reducible apply State.lostTag_kept
    | with_reducible apply State.modCtx_kept
    | with_reducible apply State.setTag_kept
    | intro _
    | split

theorem State.onReadResp_kept {s0 s : State} (h : Kept s0 s) {m : Msg} :
    Kept s0 (State.onReadResp s m) := by
  unfold State.onReadResp
  try dsimp only
  repeat' first
    | with_reducible assumption
    | with_reducible apply State.modChan_kept
    | with_reducible apply State.onTag_kept
    | intro _
    | split

theorem State.tagFails_kept {s0 s : State} (h : Kept s0 s) {t : Fin 64} {u : TagUse} {a : Active} :
    Kept s0 (State.tagFails t s u a) := by
  unfold State.tagFails
  try dsimp only
  repeat' first
    | with_reducible assumption
    | with_reducible apply State.failAccess_kept
    | with_reducible apply State.modChan_kept
    | intro _
    | split

theorem State.onErrResp_kept {s0 s : State} (h : Kept s0 s) {m : Msg} :
    Kept s0 (State.onErrResp s m) := by
  unfold State.onErrResp
  try dsimp only
  repeat' first
    | with_reducible assumption
    | with_reducible apply State.onTag_kept
    | with_reducible apply State.tagFails_kept
    | intro _
    | split

theorem State.onFlushAck_kept {s0 s : State} (h : Kept s0 s) {m : Msg} :
    Kept s0 (State.onFlushAck s m) := by
  unfold State.onFlushAck
  try dsimp only
  repeat' first
    | with_reducible assumption
    | with_reducible apply State.chanHalt_kept
    | with_reducible apply State.modChan_kept
    | with_reducible apply State.onTag_kept
    | intro _
    | split

theorem State.onAbort_kept {s0 s : State} (h : Kept s0 s) {p : Fin 2} {m : Msg} :
    Kept s0 (State.onAbort s p m) := by
  unfold State.onAbort
  try dsimp only
  repeat' first
    | with_reducible assumption
    | with_reducible apply State.linkEvent_kept
    | with_reducible apply State.modLink_kept
    | with_reducible apply State.sendOn_kept
    | with_reducible apply State.triggerReset_kept
    | intro _
    | split

theorem State.onHello_kept {s0 s : State} (h : Kept s0 s) {p : Fin 2} {m : Msg} :
    Kept s0 (State.onHello s p m) := by
  unfold State.onHello
  try dsimp only
  repeat' first
    | with_reducible assumption
    | with_reducible apply State.linkEvent_kept
    | with_reducible apply State.modPort_kept
    | intro _
    | split

theorem State.arrive_kept {s0 s : State} (h : Kept s0 s) {p : Fin 2} {m : Msg} :
    Kept s0 (State.arrive s p m) := by
  unfold State.arrive
  try dsimp only
  repeat' first
    | with_reducible assumption
    | with_reducible apply State.flush_kept
    | with_reducible apply State.modPort_kept
    | with_reducible apply State.onAbort_kept
    | with_reducible apply State.onErrResp_kept
    | with_reducible apply State.onFlushAck_kept
    | with_reducible apply State.onFlush_kept
    | with_reducible apply State.onHello_kept
    | with_reducible apply State.onMarkAdd_kept
    | with_reducible apply State.onReadResp_kept
    | with_reducible apply State.onRead_kept
    | with_reducible apply State.onWrite_kept
    | with_reducible apply State.sendOn_kept
    | intro _
    | split

theorem State.linkSettle_kept {s0 s : State} (h : Kept s0 s) :
    Kept s0 (State.linkSettle s) := by
  unfold State.linkSettle
  try dsimp only
  repeat' first
    | with_reducible assumption
    | with_reducible apply State.chansSettle_kept
    | with_reducible apply State.peerSteps_kept
    | intro _
    | split

theorem State.message_kept {s0 s : State} (h : Kept s0 s) {p : Fin 2} {m : Msg} {op : MsgOp} :
    Kept s0 (State.message s p m op) := by
  unfold State.message
  try dsimp only
  repeat' first
    | with_reducible assumption
    | with_reducible apply State.arrive_kept
    | with_reducible apply State.linkSettle_kept
    | with_reducible apply State.when_kept
    | intro _
    | split
    | exact Station.memWf_of ‹Station.memWf _ = true› (by with_reducible rfl)

theorem State.arriveBytes_kept {s0 s : State} (h : Kept s0 s) {p : Fin 2} {bs : List Byte} :
    Kept s0 (State.arriveBytes s p bs) := by
  unfold State.arriveBytes
  try dsimp only
  repeat' first
    | with_reducible assumption
    | with_reducible apply State.arrive_kept
    | with_reducible apply State.modPort_kept
    | intro _
    | split

theorem State.checkNaks_kept {s0 s : State} (h : Kept s0 s) {p : Fin 2} :
    Kept s0 (State.checkNaks s p) := by
  unfold State.checkNaks
  try dsimp only
  repeat' first
    | with_reducible assumption
    | with_reducible apply State.portDown_kept
    | intro _
    | split

theorem State.takeBody_kept {s0 s : State} (h : Kept s0 s) {p : Fin 2} {vc : Nat} {som : Bool} {body : List Byte} :
    Kept s0 (State.takeBody s p vc som body) := by
  unfold State.takeBody
  try dsimp only
  repeat' first
    | with_reducible assumption
    | with_reducible apply State.arriveBytes_kept
    | with_reducible apply State.modPort_kept
    | with_reducible apply State.pumpAll_kept
    | intro _
    | split

theorem State.takeFlit_kept {s0 s : State} (h : Kept s0 s) {p : Fin 2} {bs : List Byte} :
    Kept s0 (State.takeFlit s p bs) := by
  unfold State.takeFlit
  try dsimp only
  repeat' first
    | with_reducible assumption
    | with_reducible apply State.checkNaks_kept
    | with_reducible apply State.modPort_kept
    | with_reducible apply State.pumpAll_kept
    | with_reducible apply State.takeBody_kept
    | intro _
    | split

theorem State.actRetrain_kept {s0 s : State} (h : Kept s0 s) {p : Fin 2} :
    Kept s0 (s.act (execRetrain p)) := by
  unfold State.act execRetrain
  try dsimp only
  repeat' first
    | with_reducible assumption
    | with_reducible apply State.cutFrom_kept
    | with_reducible apply State.modPort_kept
    | with_reducible apply State.when_kept
    | intro _
    | split
    | exact Station.memWf_of ‹Station.memWf _ = true› (by with_reducible rfl)

theorem State.actPortDisable_kept {s0 s : State} (h : Kept s0 s) {p : Fin 2} :
    Kept s0 (s.act (execPortDisable p)) := by
  unfold State.act execPortDisable
  try dsimp only
  repeat' first
    | with_reducible assumption
    | with_reducible apply State.linkSettle_kept
    | with_reducible apply State.modPort_kept
    | with_reducible apply State.portDown_kept
    | with_reducible apply State.when_kept
    | intro _
    | split

theorem State.actOklCommit_kept {s0 s : State} (h : Kept s0 s) :
    Kept s0 (s.act execOklCommit) := by
  unfold State.act execOklCommit
  try dsimp only
  repeat' first
    | with_reducible assumption
    | with_reducible apply State.modLink_kept
    | with_reducible apply State.when_kept
    | intro _
    | split

theorem State.actOklCtxCommit_kept {s0 s : State} (h : Kept s0 s) {c : Fin 8} :
    Kept s0 (s.act (execOklCtxCommit c)) := by
  unfold State.act execOklCtxCommit
  try dsimp only
  repeat' first
    | with_reducible assumption
    | with_reducible apply State.modBind_kept
    | with_reducible apply State.noteWaits_kept
    | with_reducible apply State.when_kept
    | intro _
    | split
    | with_reducible apply Kept.rest

theorem State.actCtxReset_kept {s0 s : State} (h : Kept s0 s) {c : Fin 8} {go : Bool} :
    Kept s0 (s.act (execCtxReset c go)) := by
  unfold State.act execCtxReset
  try dsimp only
  repeat' first
    | with_reducible assumption
    | with_reducible apply State.driverReset_kept
    | with_reducible apply State.noticeCheck_kept
    | with_reducible apply State.when_kept
    | intro _
    | split

theorem State.actCtxEscCommit_kept {s0 s : State} (h : Kept s0 s) :
    Kept s0 (s.act execCtxEscCommit) := by
  unfold State.act execCtxEscCommit
  try dsimp only
  repeat' first
    | with_reducible assumption
    | with_reducible apply State.modEsc_kept
    | with_reducible apply State.when_kept
    | intro _
    | split

theorem State.actCtxPtCommit_kept {s0 s : State} (h : Kept s0 s) {c : Fin 8} :
    Kept s0 (s.act (execCtxPtCommit c)) := by
  unfold State.act execCtxPtCommit
  try dsimp only
  repeat' first
    | with_reducible assumption
    | with_reducible apply State.modCtx_kept
    | with_reducible apply State.noteWaits_kept
    | with_reducible apply State.when_kept
    | intro _
    | split

theorem State.writeShmMode_kept {s0 s : State} (h : Kept s0 s) {split : Bool} :
    Kept s0 (State.writeShmMode s split) := by
  unfold State.writeShmMode
  dsimp only
  split
  · split
    · exact State.modLink_kept h
    · exact State.nextStamp_kept (State.modShm_kept (State.modLink_kept h) fun _ _ => Memory.wf_empty _)
  · exact State.modShm_kept h fun _ hm => hm

theorem State.actShmMode_kept {s0 s : State} (h : Kept s0 s) {split : Bool} :
    Kept s0 (s.act (execShmMode split)) := by
  unfold State.act execShmMode
  try dsimp only
  repeat' first
    | with_reducible assumption
    | with_reducible apply State.when_kept
    | with_reducible apply State.writeShmMode_kept
    | intro _
    | split

theorem State.actShmCntClear_kept {s0 s : State} (h : Kept s0 s) :
    Kept s0 (s.act execShmCntClear) := by
  unfold State.act execShmCntClear
  try dsimp only
  repeat' first
    | with_reducible assumption
    | with_reducible apply State.modShm_kept
    | with_reducible apply State.when_kept
    | intro _
    | split

theorem State.actStnCntClear_kept {s0 s : State} (h : Kept s0 s) {n : Fin 24} :
    Kept s0 (s.act (execStnCntClear n)) := by
  unfold State.act execStnCntClear
  try dsimp only
  repeat' first
    | with_reducible assumption
    | with_reducible apply State.modStation_kept
    | with_reducible apply State.stnWrite_kept
    | exact ‹Station.memWf _ = true›
    | intro _
    | split
    | exact Station.memWf_of ‹Station.memWf _ = true› (by with_reducible rfl)
    | with_reducible apply Kept.rest

theorem State.actStnExecClear_kept {s0 s : State} (h : Kept s0 s) {n : Fin 24} :
    Kept s0 (s.act (execStnExecClear n)) := by
  unfold State.act execStnExecClear
  try dsimp only
  repeat' first
    | with_reducible assumption
    | with_reducible apply State.modStation_kept
    | with_reducible apply State.stnWrite_kept
    | exact ‹Station.memWf _ = true›
    | intro _
    | split
    | exact Station.memWf_of ‹Station.memWf _ = true› (by with_reducible rfl)
    | with_reducible apply Kept.rest

theorem State.actNfcCntClear_kept {s0 s : State} (h : Kept s0 s) :
    Kept s0 (s.act execNfcCntClear) := by
  unfold State.act execNfcCntClear
  try dsimp only
  repeat' first
    | with_reducible assumption
    | with_reducible apply State.modNfc_kept
    | with_reducible apply State.when_kept
    | intro _
    | split

theorem State.actCtxSpecClear_kept {s0 s : State} (h : Kept s0 s) {c : Fin 8} :
    Kept s0 (s.act (execCtxSpecClear c)) := by
  unfold State.act execCtxSpecClear
  try dsimp only
  repeat' first
    | with_reducible assumption
    | with_reducible apply State.modCtx_kept
    | with_reducible apply State.when_kept
    | intro _
    | split

theorem State.serialHold_kept {s0 s : State} (h : Kept s0 s) :
    Kept s0 (State.serialHold s) := by
  unfold State.serialHold
  try dsimp only
  repeat' first
    | with_reducible assumption
    | refine State.modMain_kept ?_ (by with_reducible rfl) (by with_reducible rfl) (by with_reducible rfl)
    | with_reducible apply State.modLin_kept
    | intro _
    | split

theorem State.freshStations_kept {s0 s : State} (h : Kept s0 s) :
    Kept s0 (State.freshStations s) := by
  unfold State.freshStations
  dsimp only
  refine State.modMain_ofFn_kept (Kept.rest h) rfl (fun n _ => ?_) rfl rfl
  exact Station.fresh_memWf _

theorem State.nandOff_kept {s0 s : State} (h : Kept s0 s) :
    Kept s0 (State.nandOff s) := by
  unfold State.nandOff
  try dsimp only
  repeat' first
    | with_reducible assumption
    | with_reducible apply State.modNfc_kept
    | intro _
    | split

theorem State.enterHold_kept {s0 s : State} (h : Kept s0 s) :
    Kept s0 (State.enterHold s) := by
  unfold State.enterHold
  try dsimp only
  repeat' first
    | with_reducible assumption
    | with_reducible apply State.freshStations_kept
    | with_reducible apply State.modAon_kept
    | with_reducible apply State.modPwr_kept
    | with_reducible apply State.nandOff_kept
    | with_reducible apply State.portDown_kept
    | with_reducible apply State.serialHold_kept
    | intro _
    | split
    | exact Station.memWf_of ‹Station.memWf _ = true› (by with_reducible rfl)

theorem State.wakeHold_kept {s0 s : State} (h : Kept s0 s) :
    Kept s0 (State.wakeHold s) := by
  unfold State.wakeHold
  try dsimp only
  repeat' first
    | with_reducible assumption
    | with_reducible apply State.cancelNotice_kept
    | with_reducible apply State.chanStreams_kept
    | with_reducible apply State.chansSettle_kept
    | with_reducible apply State.freshStations_kept
    | with_reducible apply State.modLink_kept
    | with_reducible apply State.modPwr_kept
    | with_reducible apply State.powerEvent_kept
    | with_reducible apply State.pumpNand_kept
    | intro _
    | split
    | exact Station.memWf_of ‹Station.memWf _ = true› (by with_reducible rfl)

theorem State.forceEnds_kept {s0 s : State} (h : Kept s0 s) :
    Kept s0 (State.forceEnds s) := by
  unfold State.forceEnds
  try dsimp only
  repeat' first
    | with_reducible assumption
    | with_reducible apply State.cancelNotice_kept
    | with_reducible apply State.chanStreams_kept
    | with_reducible apply State.chansSettle_kept
    | with_reducible apply State.modPwr_kept
    | with_reducible apply State.pumpNand_kept
    | intro _
    | split

theorem State.forcedHold_kept {s0 s : State} (h : Kept s0 s) :
    Kept s0 (State.forcedHold s) := by
  unfold State.forcedHold
  try dsimp only
  repeat' first
    | with_reducible assumption
    | with_reducible apply State.enterHold_kept
    | intro _
    | split

theorem State.abortJob_kept {s0 s : State} (h : Kept s0 s) {q : Fin 16} :
    Kept s0 (State.abortJob s q) := by
  unfold State.abortJob
  dsimp only
  split
  · exact h
  split
  · exact h
  split
  · apply State.stopJob_kept
    split
    · exact h
    · exact State.modJob_kept h
  split
  · refine State.setEnd_kept (State.modMain_ofFn_kept h (by with_reducible rfl) (fun n ht => ?_) (by with_reducible rfl) (by with_reducible rfl))
    split
    · exact Station.memWf_of ht (by with_reducible rfl)
    · exact ht
  split
  · exact h
  · exact State.setEnd_kept (State.modIdk_kept h rfl)

theorem State.abortChain_kept {s0 s : State} (h : Kept s0 s) {ch : Fin 16} :
    Kept s0 (State.abortChain s ch) := by
  unfold State.abortChain
  try dsimp only
  repeat' first
    | with_reducible assumption
    | with_reducible apply State.chanHalt_kept
    | intro _
    | split

theorem State.abortLun_kept {s0 s : State} (h : Kept s0 s) {u : Fin 32} :
    Kept s0 (State.abortLun s u) := by
  unfold State.abortLun
  try dsimp only
  repeat' first
    | with_reducible assumption
    | with_reducible apply Kept.foldl
    | with_reducible apply State.modLun_kept
    | with_reducible apply State.opEnded_kept
    | with_reducible apply State.spoil_kept
    | with_reducible apply State.suspect_kept
    | intro _
    | split

theorem State.abortNand_kept {s0 s : State} (h : Kept s0 s) :
    Kept s0 (State.abortNand s) := by
  unfold State.abortNand
  try dsimp only
  repeat' first
    | with_reducible assumption
    | with_reducible apply Kept.foldl
    | with_reducible apply State.abortLun_kept
    | with_reducible apply State.modNfc_kept
    | with_reducible apply State.pumpNand_kept
    | intro _
    | split

theorem State.abortProgs_kept {s0 s : State} (h : Kept s0 s) :
    Kept s0 (State.abortProgs s) := by
  unfold State.abortProgs
  try dsimp only
  repeat' first
    | with_reducible assumption
    | with_reducible apply Kept.foldl
    | refine State.modMain_kept ?_ (by with_reducible rfl) (by with_reducible rfl) (by with_reducible rfl)
    | with_reducible apply State.modNv_kept
    | with_reducible apply State.setProg_kept
    | intro _
    | split
    | exact Memory.wf_writeBytes (by rfl) _ _
    | with_reducible apply Kept.rest

theorem State.drainAbort_kept {s0 s : State} (h : Kept s0 s) :
    Kept s0 (State.drainAbort s) := by
  unfold State.drainAbort
  try dsimp only
  repeat' first
    | with_reducible assumption
    | with_reducible apply Kept.foldl
    | with_reducible apply State.abortChain_kept
    | with_reducible apply State.abortJob_kept
    | with_reducible apply State.abortNand_kept
    | with_reducible apply State.abortProgs_kept
    | with_reducible apply State.forcedHold_kept
    | with_reducible apply State.jobEnd_kept
    | with_reducible apply State.powerEvent_kept
    | with_reducible apply State.settleAll_kept
    | intro _
    | split

theorem State.enterDormant_kept {s0 s : State} (h : Kept s0 s) :
    Kept s0 (State.enterDormant s) := by
  unfold State.enterDormant State.cutWork
  dsimp only
  exact Kept.fresh (State.cutCells_kept (State.fbEntry_kept h))

theorem State.writeDiv_kept {s0 s : State} (h : Kept s0 s) {div : BitVec 2} :
    Kept s0 (State.writeDiv s div) := by
  unfold State.writeDiv
  try dsimp only
  repeat' first
    | with_reducible assumption
    | with_reducible apply State.modPwr_kept
    | intro _
    | split

theorem State.writeForce_kept {s0 s : State} (h : Kept s0 s) {hold : Bool} :
    Kept s0 (State.writeForce s hold) := by
  unfold State.writeForce
  try dsimp only
  repeat' first
    | with_reducible assumption
    | with_reducible apply State.forceEnds_kept
    | with_reducible apply State.modPwr_kept
    | intro _
    | split

theorem State.actD3hot_kept {s0 s : State} (h : Kept s0 s) :
    Kept s0 (s.act execD3hot) := by
  unfold State.act execD3hot
  try dsimp only
  repeat' first
    | with_reducible assumption
    | with_reducible apply State.modPwr_kept
    | with_reducible apply State.when_kept
    | intro _
    | split

theorem State.actReturnToD0_kept {s0 s : State} (h : Kept s0 s) :
    Kept s0 (s.act execReturnToD0) := by
  unfold State.act execReturnToD0
  try dsimp only
  repeat' first
    | with_reducible assumption
    | with_reducible apply Kept.foldl
    | with_reducible apply State.drainHeld_kept
    | with_reducible apply State.forceEnds_kept
    | with_reducible apply State.modPwr_kept
    | with_reducible apply State.when_kept
    | intro _
    | split

theorem State.noticeWrite_kept {s0 s : State} (h : Kept s0 s) :
    Kept s0 (State.noticeWrite s) := by
  unfold State.noticeWrite
  try dsimp only
  repeat' first
    | with_reducible assumption
    | with_reducible apply State.cancelNotice_kept
    | with_reducible apply State.modPwr_kept
    | intro _
    | split

theorem State.releasePads_kept {s0 s : State} (h : Kept s0 s) :
    Kept s0 (State.releasePads s) := by
  unfold State.releasePads
  try dsimp only
  repeat' first
    | with_reducible assumption
    | with_reducible apply State.modAon_kept
    | intro _
    | split

theorem State.actPwrPadRelease_kept {s0 s : State} (h : Kept s0 s) {go : Bool} :
    Kept s0 (s.act (execPwrPadRelease go)) := by
  unfold State.act execPwrPadRelease
  try dsimp only
  repeat' first
    | with_reducible assumption
    | with_reducible apply State.releasePads_kept
    | with_reducible apply State.when_kept
    | intro _
    | split

theorem State.bootGo_kept {s0 s : State} (h : Kept s0 s) {reply : HostReply} :
    Kept s0 (State.bootGo s reply) := by
  unfold State.bootGo
  try dsimp only
  repeat' first
    | with_reducible assumption
    | with_reducible apply State.handOver_kept
    | with_reducible apply State.modGlb_kept
    | intro _
    | split

theorem State.actGlbBootGo_kept {s0 s : State} (h : Kept s0 s) {reply : HostReply} :
    Kept s0 (s.act (execGlbBootGo reply)) := by
  unfold State.act execGlbBootGo
  try dsimp only
  repeat' first
    | with_reducible assumption
    | with_reducible apply State.bootGo_kept
    | intro _
    | split

theorem State.setCharge_kept {s0 s : State} (h : Kept s0 s) {v : BitVec 64} :
    Kept s0 (State.setCharge s v) := by
  unfold State.setCharge
  try dsimp only
  repeat' first
    | with_reducible assumption
    | with_reducible apply State.modSup_kept
    | with_reducible apply State.raiseIf_kept
    | intro _
    | split

theorem State.writeCharge_kept {s0 s : State} (h : Kept s0 s) {w : W64} :
    Kept s0 (State.writeCharge s w) := by
  unfold State.writeCharge
  try dsimp only
  repeat' first
    | with_reducible assumption
    | with_reducible apply State.setCharge_kept
    | intro _
    | split

theorem State.actSupCharge_kept {s0 s : State} (h : Kept s0 s) {w : W64} :
    Kept s0 (s.act (execSupCharge w)) := by
  unfold State.act execSupCharge
  try dsimp only
  repeat' first
    | with_reducible assumption
    | with_reducible apply State.when_kept
    | with_reducible apply State.writeCharge_kept
    | intro _
    | split

theorem State.actFbkFlush_kept {s0 s : State} (h : Kept s0 s) :
    Kept s0 (s.act execFbkFlush) := by
  unfold State.act execFbkFlush
  try dsimp only
  repeat' first
    | with_reducible assumption
    | with_reducible apply State.flush_kept
    | with_reducible apply State.noticeCheck_kept
    | with_reducible apply State.when_kept
    | intro _
    | split

theorem State.driverLog_kept {s0 s : State} (h : Kept s0 s) {code : BitVec 8} :
    Kept s0 (State.driverLog s code) := by
  unfold State.driverLog
  try dsimp only
  repeat' first
    | with_reducible assumption
    | refine State.modMain_kept ?_ (by with_reducible rfl) (by with_reducible rfl) (by with_reducible rfl)
    | with_reducible apply State.fbEntry_kept
    | intro _
    | split

theorem State.actFbkDrvLog_kept {s0 s : State} (h : Kept s0 s) {code : BitVec 8} :
    Kept s0 (s.act (execFbkDrvLog code)) := by
  unfold State.act execFbkDrvLog
  try dsimp only
  repeat' first
    | with_reducible assumption
    | with_reducible apply State.driverLog_kept
    | with_reducible apply State.when_kept
    | intro _
    | split

theorem State.burn_kept {s0 s : State} (h : Kept s0 s) {v : BitVec 32} : Kept s0 (s.burn v) := by
  unfold State.burn
  dsimp only
  split
  · exact State.modIdk_kept h rfl
  next hc =>
    simp only [Bool.or_eq_true, not_or] at hc
    have hp : s.otp.pmkState = 0 := by simpa using hc.1.1.1
    exact h.trans <| (Kept.iff _ _).mpr ⟨id, fun _ => by simp [State.otpSafe, hp], rfl, fun _ hn => absurd hp hn⟩

theorem State.actIdkPmkBurn_kept {s0 s : State} (h : Kept s0 s) {v : BitVec 32} :
    Kept s0 (s.act (execIdkPmkBurn v)) := by
  unfold State.act execIdkPmkBurn
  try dsimp only
  repeat' first
    | with_reducible assumption
    | with_reducible apply State.burn_kept
    | with_reducible apply State.when_kept
    | intro _
    | split

theorem State.commitKey_kept {s0 s : State} (h : Kept s0 s) :
    Kept s0 (State.commitKey s) := by
  unfold State.commitKey
  try dsimp only
  repeat' first
    | with_reducible assumption
    | refine State.modIdk_kept ?_ (by with_reducible rfl)
    | with_reducible apply State.fbEntry_kept
    | intro _
    | split

theorem State.actIdkCommit_kept {s0 s : State} (h : Kept s0 s) :
    Kept s0 (s.act execIdkCommit) := by
  unfold State.act execIdkCommit
  try dsimp only
  repeat' first
    | with_reducible assumption
    | with_reducible apply State.commitKey_kept
    | with_reducible apply State.when_kept
    | intro _
    | split

theorem State.verifyGo_kept {s0 s : State} (h : Kept s0 s) :
    Kept s0 (State.verifyGo s) := by
  unfold State.verifyGo
  refine State.modIdk_kept h ?_
  split <;> rfl

theorem State.actIdkVfyGo_kept {s0 s : State} (h : Kept s0 s) :
    Kept s0 (s.act execIdkVfyGo) := by
  unfold State.act execIdkVfyGo
  try dsimp only
  repeat' first
    | with_reducible assumption
    | with_reducible apply State.verifyGo_kept
    | with_reducible apply State.when_kept
    | intro _
    | split

theorem State.idkWrite_kept {s0 s : State} (h : Kept s0 s) {a : Nat} {bs : List Byte} :
    Kept s0 (State.idkWrite s a bs) := by
  unfold State.idkWrite
  try dsimp only
  repeat' first
    | with_reducible assumption
    | with_reducible apply State.devWrite_kept
    | intro _
    | split

theorem State.serialWrite_kept {s0 s : State} (h : Kept s0 s) {u : Fin 2} {b : BitVec 8} :
    Kept s0 (State.serialWrite s u b) := by
  unfold State.serialWrite
  try dsimp only
  repeat' first
    | with_reducible assumption
    | with_reducible apply State.modUart_kept
    | intro _
    | split

theorem State.actSernDataWrite_kept {s0 s : State} (h : Kept s0 s) {u : Fin 2} {b : BitVec 8} :
    Kept s0 (s.act (execSernDataWrite u b)) := by
  unfold State.act execSernDataWrite
  try dsimp only
  repeat' first
    | with_reducible assumption
    | with_reducible apply State.serialWrite_kept
    | with_reducible apply State.when_kept
    | intro _
    | split

theorem State.actSernDataRead_kept {s0 s : State} (h : Kept s0 s) {u : Fin 2} :
    Kept s0 (s.act (execSernDataRead u)) := by
  unfold State.act execSernDataRead
  try dsimp only
  repeat' first
    | with_reducible assumption
    | with_reducible apply State.modUart_kept
    | intro _
    | split
    | with_reducible apply Kept.rest

theorem State.actSernStatRead_kept {s0 s : State} (h : Kept s0 s) {u : Fin 2} :
    Kept s0 (s.act (execSernStatRead u)) := by
  unfold State.act execSernStatRead
  try dsimp only
  repeat' first
    | with_reducible assumption
    | with_reducible apply State.modUart_kept
    | intro _
    | split
    | with_reducible apply Kept.rest

theorem State.actSernCommit_kept {s0 s : State} (h : Kept s0 s) {u : Fin 2} :
    Kept s0 (s.act (execSernCommit u)) := by
  unfold State.act execSernCommit
  try dsimp only
  repeat' first
    | with_reducible assumption
    | with_reducible apply State.modUart_kept
    | with_reducible apply State.when_kept
    | intro _
    | split

theorem State.linHeader_kept {s0 s : State} (h : Kept s0 s) {id : BitVec 6} {go : Bool} :
    Kept s0 (State.linHeader s id go) := by
  unfold State.linHeader
  try dsimp only
  repeat' first
    | with_reducible assumption
    | with_reducible apply State.modLin_kept
    | intro _
    | split
    | exact Station.memWf_of ‹Station.memWf _ = true› (by with_reducible rfl)

theorem State.actSer1LinHdr_kept {s0 s : State} (h : Kept s0 s) {id : BitVec 6} {go : Bool} :
    Kept s0 (s.act (execSer1LinHdr id go)) := by
  unfold State.act execSer1LinHdr
  try dsimp only
  repeat' first
    | with_reducible assumption
    | with_reducible apply State.linHeader_kept
    | with_reducible apply State.when_kept
    | intro _
    | split

theorem State.linWake_kept {s0 s : State} (h : Kept s0 s) {us : BitVec 13} :
    Kept s0 (State.linWake s us) := by
  unfold State.linWake
  try dsimp only
  repeat' first
    | with_reducible assumption
    | with_reducible apply State.modLin_kept
    | intro _
    | split
    | exact Station.memWf_of ‹Station.memWf _ = true› (by with_reducible rfl)

theorem State.actSer1LinWake_kept {s0 s : State} (h : Kept s0 s) {us : BitVec 13} {go : Bool} :
    Kept s0 (s.act (execSer1LinWake us go)) := by
  unfold State.act execSer1LinWake
  try dsimp only
  repeat' first
    | with_reducible assumption
    | with_reducible apply State.linWake_kept
    | with_reducible apply State.when_kept
    | intro _
    | split

theorem State.writePowerState_kept {s0 s : State} (h : Kept s0 s) {v : BitVec 32} :
    Kept s0 (State.writePowerState s v) := by
  unfold State.writePowerState
  try dsimp only
  repeat' first
    | with_reducible assumption
    | with_reducible apply State.actD3hot_kept
    | with_reducible apply State.actReturnToD0_kept
    | intro _
    | split

theorem State.configPut_kept {s0 s : State} (h : Kept s0 s) {r : CfgReg} {i : Nat} {v : BitVec 32} :
    Kept s0 (State.configPut s r i v) := by
  unfold State.configPut
  try dsimp only
  repeat' first
    | with_reducible assumption
    | with_reducible apply State.hostMsix_kept
    | with_reducible apply State.modPcie_kept
    | with_reducible apply State.writePowerState_kept
    | intro _
    | split

theorem State.configWrite_kept {s0 s : State} (h : Kept s0 s) {r : CfgReg} {off : Nat} {lanes : List (Option Byte)} :
    Kept s0 (State.configWrite s r off lanes) := by
  unfold State.configWrite
  try dsimp only
  repeat' first
    | with_reducible assumption
    | with_reducible apply Kept.foldl
    | with_reducible apply State.configPut_kept
    | intro _
    | split

theorem State.msixPageWrite_kept {s0 s : State} (h : Kept s0 s) {off : Nat} {lanes : List (Option Byte)} :
    Kept s0 (State.msixPageWrite s off lanes) := by
  unfold State.msixPageWrite
  try dsimp only
  repeat' first
    | with_reducible assumption
    | with_reducible apply Kept.foldl
    | with_reducible apply State.hostMsix_kept
    | intro _
    | split

theorem State.doorbellPut_kept {s0 s : State} (h : Kept s0 s) {off : Nat} {lanes : List (Option Byte)} {a : Nat} :
    Kept s0 (State.doorbellPut off lanes s a) := by
  unfold State.doorbellPut
  try dsimp only
  repeat' first
    | with_reducible assumption
    | with_reducible apply State.actCqHead_kept
    | with_reducible apply State.actSqTail_kept
    | with_reducible apply State.badDoorbell_kept
    | with_reducible apply State.doorbell_kept
    | intro _
    | split

theorem State.doorbellPageWrite_kept {s0 s : State} (h : Kept s0 s) {off : Nat} {lanes : List (Option Byte)} :
    Kept s0 (State.doorbellPageWrite s off lanes) := by
  unfold State.doorbellPageWrite
  try dsimp only
  repeat' first
    | with_reducible assumption
    | with_reducible apply Kept.foldl
    | with_reducible apply State.doorbellPut_kept
    | intro _
    | split

theorem State.glbWrite_kept {s0 s : State} (h : Kept s0 s) {reply : HostReply} {off : Nat} {v : BitVec 32} :
    Kept s0 (State.glbWrite s reply off v) := by
  unfold State.glbWrite
  try dsimp only
  repeat' first
    | with_reducible assumption
    | with_reducible apply State.actGlbBootGo_kept
    | with_reducible apply State.modAon_kept
    | with_reducible apply State.modGlb_kept
    | intro _
    | split

theorem State.stageQueue_kept {s0 s : State} (h : Kept s0 s) {q : Fin 16} {f : QueueCfg → QueueCfg} :
    Kept s0 (State.stageQueue s q f) := by
  unfold State.stageQueue
  try dsimp only
  repeat' first
    | with_reducible assumption
    | with_reducible apply State.modQueue_kept
    | intro _
    | split

theorem State.hqWrite_kept {s0 s : State} (h : Kept s0 s) {off : Nat} {v : BitVec 32} :
    Kept s0 (State.hqWrite s off v) := by
  unfold State.hqWrite
  try dsimp only
  repeat' first
    | with_reducible assumption
    | with_reducible apply State.actHqCommit_kept
    | with_reducible apply State.badDoorbell_kept
    | with_reducible apply State.modQueue_kept
    | with_reducible apply State.stageQueue_kept
    | intro _
    | split

theorem State.stageParcel_kept {s0 s : State} (h : Kept s0 s) {c : Fin 8} {i : Fin 32} {f : Parcel → Parcel} :
    Kept s0 (State.stageParcel s c i f) := by
  unfold State.stageParcel
  try dsimp only
  repeat' first
    | with_reducible assumption
    | with_reducible apply State.modCtx_kept
    | intro _
    | split

theorem State.ctxWrite_kept {s0 s : State} (h : Kept s0 s) {off : Nat} {v : BitVec 32} :
    Kept s0 (State.ctxWrite s off v) := by
  unfold State.ctxWrite
  try dsimp only
  repeat' first
    | with_reducible assumption
    | with_reducible apply State.actCtxEscCommit_kept
    | with_reducible apply State.actCtxPtCommit_kept
    | with_reducible apply State.actCtxReset_kept
    | with_reducible apply State.actCtxSpecClear_kept
    | with_reducible apply State.modCtx_kept
    | with_reducible apply State.modEsc_kept
    | with_reducible apply State.stageParcel_kept
    | intro _
    | split

theorem State.writeEvtEn_kept {s0 s : State} (h : Kept s0 s) {en : BitVec 5} :
    Kept s0 (State.writeEvtEn s en) := by
  unfold State.writeEvtEn
  try dsimp only
  repeat' first
    | with_reducible assumption
    | with_reducible apply State.modPwr_kept
    | with_reducible apply State.raiseIf_kept
    | intro _
    | split

theorem State.writeVsysWarn_kept {s0 s : State} (h : Kept s0 s) {v : BitVec 4} :
    Kept s0 (State.writeVsysWarn s v) := by
  unfold State.writeVsysWarn
  try dsimp only
  repeat' first
    | with_reducible assumption
    | with_reducible apply State.modAon_kept
    | intro _
    | split

theorem State.pwrWrite_kept {s0 s : State} (h : Kept s0 s) {off : Nat} {v : BitVec 32} :
    Kept s0 (State.pwrWrite s off v) := by
  unfold State.pwrWrite
  try dsimp only
  repeat' first
    | with_reducible assumption
    | with_reducible apply State.actPwrPadRelease_kept
    | with_reducible apply State.modAon_kept
    | with_reducible apply State.modPwr_kept
    | with_reducible apply State.noticeWrite_kept
    | with_reducible apply State.writeDiv_kept
    | with_reducible apply State.writeEvtEn_kept
    | with_reducible apply State.writeForce_kept
    | with_reducible apply State.writeVsysWarn_kept
    | intro _
    | split

theorem State.supWrite_kept {s0 s : State} (h : Kept s0 s) {off : Nat} {v : BitVec 32} :
    Kept s0 (State.supWrite s off v) := by
  unfold State.supWrite
  try dsimp only
  repeat' first
    | with_reducible assumption
    | with_reducible apply State.modSup_kept
    | intro _
    | split

theorem State.modGen_kept {s0 s : State} (h : Kept s0 s) {g : Fin 4} {f : TickGen → TickGen} :
    Kept s0 (State.modGen s g f) := by
  unfold State.modGen
  try dsimp only
  repeat' first
    | with_reducible assumption
    | refine State.modMain_kept ?_ (by with_reducible rfl) (by with_reducible rfl) (by with_reducible rfl)
    | intro _
    | split

theorem State.tckWrite_kept {s0 s : State} (h : Kept s0 s) {off : Nat} {v : BitVec 32} :
    Kept s0 (State.tckWrite s off v) := by
  unfold State.tckWrite
  try dsimp only
  repeat' first
    | with_reducible assumption
    | with_reducible apply State.actTckCommit_kept
    | with_reducible apply State.modGen_kept
    | intro _
    | split
    | with_reducible apply Kept.rest

theorem State.writeChanCtrl_kept {s0 s : State} (h : Kept s0 s) {ch : Fin 16} {v : BitVec 32} :
    Kept s0 (State.writeChanCtrl s ch v) := by
  unfold State.writeChanCtrl
  try dsimp only
  repeat' first
    | with_reducible assumption
    | with_reducible apply State.actTrvCancel_kept
    | with_reducible apply State.actTrvPause_kept
    | with_reducible apply State.actTrvResume_kept
    | with_reducible apply State.actTrvStart_kept
    | intro _
    | split

theorem State.chanWrite_kept {s0 s : State} (h : Kept s0 s) {ch : Fin 16} {off : Nat} {v : BitVec 32} :
    Kept s0 (State.chanWrite s ch off v) := by
  unfold State.chanWrite
  try dsimp only
  repeat' first
    | with_reducible assumption
    | with_reducible apply State.actTrvChnCommit_kept
    | with_reducible apply State.actTrvChnOwner_kept
    | with_reducible apply State.modChan_kept
    | with_reducible apply State.writeChanCtrl_kept
    | intro _
    | split
    | exact Station.memWf_of ‹Station.memWf _ = true› (by with_reducible rfl)
    | (simp only [Station.memWf, Bool.and_eq_true] at *; simp_all)

theorem State.trvWrite_kept {s0 s : State} (h : Kept s0 s) {off : Nat} {v : BitVec 32} :
    Kept s0 (State.trvWrite s off v) := by
  unfold State.trvWrite
  try dsimp only
  repeat' first
    | with_reducible assumption
    | refine State.modMain_kept ?_ (by with_reducible rfl) (by with_reducible rfl) (by with_reducible rfl)
    | with_reducible apply State.chanWrite_kept
    | intro _
    | split

theorem State.stageNfc_kept {s0 s : State} (h : Kept s0 s) {f : NfcCfg → NfcCfg} :
    Kept s0 (State.stageNfc s f) := by
  unfold State.stageNfc
  try dsimp only
  repeat' first
    | with_reducible assumption
    | with_reducible apply State.modNfc_kept
    | intro _
    | split

theorem State.writeNfcEn_kept {s0 s : State} (h : Kept s0 s) {en : BitVec 3} :
    Kept s0 (State.writeNfcEn s en) := by
  unfold State.writeNfcEn
  try dsimp only
  repeat' first
    | with_reducible assumption
    | with_reducible apply State.modNfc_kept
    | with_reducible apply State.raiseIf_kept
    | intro _
    | split

theorem State.nfcWrite_kept {s0 s : State} (h : Kept s0 s) {off : Nat} {v : BitVec 32} :
    Kept s0 (State.nfcWrite s off v) := by
  unfold State.nfcWrite
  try dsimp only
  repeat' first
    | with_reducible assumption
    | with_reducible apply State.actNfcCntClear_kept
    | with_reducible apply State.actNfcCommit_kept
    | with_reducible apply State.modNfc_kept
    | with_reducible apply State.stageNfc_kept
    | with_reducible apply State.writeNfcEn_kept
    | intro _
    | split

theorem State.writeOklEn_kept {s0 s : State} (h : Kept s0 s) {en : BitVec 5} :
    Kept s0 (State.writeOklEn s en) := by
  unfold State.writeOklEn
  try dsimp only
  repeat' first
    | with_reducible assumption
    | with_reducible apply State.modLink_kept
    | with_reducible apply State.raiseIf_kept
    | intro _
    | split

theorem State.writePortCtrl_kept {s0 s : State} (h : Kept s0 s) {p : Fin 2} {v : BitVec 32} :
    Kept s0 (State.writePortCtrl s p v) := by
  unfold State.writePortCtrl
  try dsimp only
  repeat' first
    | with_reducible assumption
    | with_reducible apply State.actPortDisable_kept
    | with_reducible apply State.actRetrain_kept
    | with_reducible apply State.modPort_kept
    | intro _
    | split

theorem State.stageBind_kept {s0 s : State} (h : Kept s0 s) {c : Fin 8} {f : Binding → Binding} :
    Kept s0 (State.stageBind s c f) := by
  unfold State.stageBind
  try dsimp only
  repeat' first
    | with_reducible assumption
    | with_reducible apply State.modBind_kept
    | intro _
    | split
    | with_reducible apply Kept.rest

theorem State.bindWrite_kept {s0 s : State} (h : Kept s0 s) {c : Fin 8} {off : Nat} {v : BitVec 32} :
    Kept s0 (State.bindWrite s c off v) := by
  unfold State.bindWrite
  try dsimp only
  repeat' first
    | with_reducible assumption
    | with_reducible apply State.actOklCtxCommit_kept
    | with_reducible apply State.modBind_kept
    | with_reducible apply State.stageBind_kept
    | intro _
    | split
    | with_reducible apply Kept.rest

theorem State.oklWrite_kept {s0 s : State} (h : Kept s0 s) {off : Nat} {v : BitVec 32} :
    Kept s0 (State.oklWrite s off v) := by
  unfold State.oklWrite
  try dsimp only
  repeat' first
    | with_reducible assumption
    | with_reducible apply State.actOklCommit_kept
    | with_reducible apply State.bindWrite_kept
    | with_reducible apply State.modLink_kept
    | with_reducible apply State.writeOklEn_kept
    | with_reducible apply State.writePortCtrl_kept
    | intro _
    | split

theorem State.stageSer_kept {s0 s : State} (h : Kept s0 s) {u : Fin 2} {f : SerCfg → SerCfg} :
    Kept s0 (State.stageSer s u f) := by
  unfold State.stageSer
  try dsimp only
  repeat' first
    | with_reducible assumption
    | with_reducible apply State.modUart_kept
    | intro _
    | split

theorem State.serWrite_kept {s0 s : State} (h : Kept s0 s) {off : Nat} {v : BitVec 32} :
    Kept s0 (State.serWrite s off v) := by
  unfold State.serWrite
  try dsimp only
  repeat' first
    | with_reducible assumption
    | with_reducible apply State.actSer1LinHdr_kept
    | with_reducible apply State.actSer1LinWake_kept
    | with_reducible apply State.actSernCommit_kept
    | with_reducible apply State.actSernDataWrite_kept
    | with_reducible apply State.modLin_kept
    | with_reducible apply State.modUart_kept
    | with_reducible apply State.stageSer_kept
    | intro _
    | split

theorem State.mgtStatWrite_kept {s0 s : State} (h : Kept s0 s) {off : Nat} {v : BitVec 32} :
    Kept s0 (State.mgtStatWrite s off v) := by
  unfold State.mgtStatWrite
  try dsimp only
  repeat' first
    | with_reducible assumption
    | with_reducible apply State.modMgmt_kept
    | intro _
    | split

theorem State.idkRegWrite_kept {s0 s : State} (h : Kept s0 s) {off : Nat} {v : BitVec 32} :
    Kept s0 (State.idkRegWrite s off v) := by
  unfold State.idkRegWrite
  try dsimp only
  repeat' first
    | with_reducible assumption
    | refine State.modIdk_kept ?_ (by with_reducible rfl)
    | with_reducible apply State.actIdkCommit_kept
    | with_reducible apply State.actIdkPmkBurn_kept
    | with_reducible apply State.actIdkVfyGo_kept
    | intro _
    | split

theorem State.writeSlotSel_kept {s0 s : State} (h : Kept s0 s) {v : BitVec 4} :
    Kept s0 (State.writeSlotSel s v) := by
  unfold State.writeSlotSel
  try dsimp only
  repeat' first
    | with_reducible assumption
    | with_reducible apply State.modAon_kept
    | intro _
    | split

theorem State.fbkWrite_kept {s0 s : State} (h : Kept s0 s) {off : Nat} {v : BitVec 32} :
    Kept s0 (State.fbkWrite s off v) := by
  unfold State.fbkWrite
  try dsimp only
  repeat' first
    | with_reducible assumption
    | with_reducible apply State.actFbkDrvLog_kept
    | with_reducible apply State.actFbkFlush_kept
    | with_reducible apply State.writeSlotSel_kept
    | intro _
    | split

theorem Station.clearFault_memWf {t : Station} (h : t.memWf = true) :
    (Station.clearFault t).memWf = true := by
  unfold Station.clearFault
  try dsimp only
  repeat' first
    | with_reducible assumption
    | exact ‹Station.memWf _ = true›
    | intro _
    | split
    | exact Station.memWf_of ‹Station.memWf _ = true› (by with_reducible rfl)

theorem State.stnSet_kept {s0 s : State} (h : Kept s0 s) {n : Fin 24} {f : Station → Station} (hf : ∀ t, t.memWf = true → (f t).memWf = true) :
    Kept s0 (State.stnSet s n f) := by
  unfold State.stnSet
  try dsimp only
  repeat' first
    | with_reducible assumption
    | with_reducible apply hf
    | with_reducible apply State.modStation_kept
    | with_reducible apply State.stnWrite_kept
    | exact ‹Station.memWf _ = true›
    | intro _
    | split
    | exact Station.memWf_of ‹Station.memWf _ = true› (by with_reducible rfl)

theorem State.stnRegWrite_kept {s0 s : State} (h : Kept s0 s) {n : Fin 24} {off : Nat} {v : BitVec 32} :
    Kept s0 (State.stnRegWrite s n off v) := by
  unfold State.stnRegWrite
  split
  · exact State.stnSet_kept h fun t ht => Station.memWf_of ht rfl
  split
  · exact State.stnSet_kept h fun t ht => Station.tableWrite_memWf ht
  split
  · exact State.stnSet_kept h fun t ht => Station.tableWrite_memWf ht
  split
  · refine State.stnSet_kept h fun t ht => ?_
    split
    · exact Station.clearFault_memWf ht
    · exact ht
  · exact State.actStnExecClear_kept h
  · exact State.stnSet_kept h fun t ht => Station.memWf_of ht rfl
  · exact State.actStnCntClear_kept h
  · exact State.actStnBenchCtrl_kept h
  · exact State.stnSet_kept h fun t ht => Station.memWf_of ht rfl
  · exact State.stnSet_kept h fun t ht => Station.memWf_of ht rfl
  · exact State.stnWrite_kept h fun _ hs => hs

theorem State.shmWrite_kept {s0 s : State} (h : Kept s0 s) {off : Nat} {v : BitVec 32} :
    Kept s0 (State.shmWrite s off v) := by
  unfold State.shmWrite
  try dsimp only
  repeat' first
    | with_reducible assumption
    | with_reducible apply State.actShmCntClear_kept
    | with_reducible apply State.actShmMode_kept
    | with_reducible apply State.modShm_kept
    | intro _
    | split

theorem State.blockWrite_kept {s0 s : State} (h : Kept s0 s) {reply : HostReply} {block : Nat} {off : Nat} {v : BitVec 32} :
    Kept s0 (State.blockWrite s reply block off v) := by
  unfold State.blockWrite
  try dsimp only
  repeat' first
    | with_reducible assumption
    | with_reducible apply State.ctxWrite_kept
    | with_reducible apply State.fbkWrite_kept
    | with_reducible apply State.glbWrite_kept
    | with_reducible apply State.hqWrite_kept
    | with_reducible apply State.idkRegWrite_kept
    | with_reducible apply State.mgtStatWrite_kept
    | with_reducible apply State.nfcWrite_kept
    | with_reducible apply State.oklWrite_kept
    | with_reducible apply State.pwrWrite_kept
    | with_reducible apply State.serWrite_kept
    | with_reducible apply State.shmWrite_kept
    | with_reducible apply State.supWrite_kept
    | with_reducible apply State.tckWrite_kept
    | with_reducible apply State.trvWrite_kept
    | intro _
    | split

theorem State.write32_kept {s0 s : State} (h : Kept s0 s) {reply : HostReply} {a : Nat} {v : BitVec 32} :
    Kept s0 (State.write32 s reply a v) := by
  unfold State.write32
  try dsimp only
  repeat' first
    | with_reducible assumption
    | with_reducible apply State.blockWrite_kept
    | with_reducible apply State.stnRegWrite_kept
    | intro _
    | split

theorem State.nfcWide_kept {s0 s : State} (h : Kept s0 s) {off : Nat} {w : W64} :
    Kept s0 (State.nfcWide s off w) := by
  unfold State.nfcWide
  try dsimp only
  repeat' first
    | with_reducible assumption
    | with_reducible apply State.stageNfc_kept
    | intro _
    | split

theorem State.blockWrite64_kept {s0 s : State} (h : Kept s0 s) {block : Nat} {off : Nat} {w : W64} :
    Kept s0 (State.blockWrite64 s block off w) := by
  unfold State.blockWrite64
  try dsimp only
  repeat' first
    | with_reducible assumption
    | refine State.modMain_kept ?_ (by with_reducible rfl) (by with_reducible rfl) (by with_reducible rfl)
    | refine State.modIdk_kept ?_ (by with_reducible rfl)
    | with_reducible apply State.actGlbHostwin_kept
    | with_reducible apply State.actHqMark_kept
    | with_reducible apply State.actSupCharge_kept
    | with_reducible apply State.modChan_kept
    | with_reducible apply State.modCtx_kept
    | with_reducible apply State.modGlb_kept
    | with_reducible apply State.modLin_kept
    | with_reducible apply State.modSup_kept
    | with_reducible apply State.nfcWide_kept
    | with_reducible apply State.stageQueue_kept
    | intro _
    | split

theorem State.write64_kept {s0 s : State} (h : Kept s0 s) {a : Nat} {w : W64} :
    Kept s0 (State.write64 s a w) := by
  unfold State.write64
  repeat' first
    | with_reducible assumption
    | with_reducible apply State.blockWrite64_kept
    | exact State.stnWrite_kept h fun _ hs => hs
    | split

theorem State.writeOpt_kept {s0 s : State} (h : Kept s0 s) {reply : HostReply} {a : Nat} {v : Option (BitVec 32)} :
    Kept s0 (State.writeOpt s reply a v) := by
  unfold State.writeOpt
  try dsimp only
  repeat' first
    | with_reducible assumption
    | with_reducible apply State.write32_kept
    | intro _
    | split

theorem State.writePair_kept {s0 s : State} (h : Kept s0 s) {reply : HostReply} {off : Nat} {lanes : List (Option Byte)} {a : Nat} :
    Kept s0 (State.writePair reply off lanes s a) := by
  unfold State.writePair
  try dsimp only
  repeat' first
    | with_reducible assumption
    | with_reducible apply State.write64_kept
    | with_reducible apply State.writeOpt_kept
    | intro _
    | split

theorem State.barWrite_kept {s0 s : State} (h : Kept s0 s) {reply : HostReply} {off : Nat} {lanes : List (Option Byte)} :
    Kept s0 (State.barWrite s reply off lanes) := by
  unfold State.barWrite
  try dsimp only
  repeat' first
    | with_reducible assumption
    | with_reducible apply Kept.foldl
    | with_reducible apply State.writePair_kept
    | intro _
    | split

theorem State.noteStation_kept {s0 s : State} (h : Kept s0 s) {a : Nat} :
    Kept s0 (State.noteStation s a) := by
  unfold State.noteStation
  try dsimp only
  repeat' first
    | with_reducible assumption
    | with_reducible apply State.powerEvent_kept
    | intro _
    | split

theorem State.readReg32_kept {s0 s : State} (h : Kept s0 s) {a : Nat} : Kept s0 (s.readReg32 a).2 := by
  unfold State.readReg32
  dsimp only
  repeat' split
  all_goals first
    | exact State.actSernDataRead_kept h
    | exact State.actSernStatRead_kept h
    | exact State.noteStation_kept h

theorem State.readEntry_kept {s0 s : State} (h : Kept s0 s) {a : Nat} : Kept s0 (s.readEntry a).2 := by
  unfold State.readEntry
  dsimp only
  split
  · exact h
  split
  · exact State.modMain_kept (f := fun m =>
      { m with fbLatches := noteAt m.fbLatches (a / 16 * 16) (s.fbBytes (a / 16 * 16 + 8)) }) h rfl rfl rfl
  · exact h

theorem State.readPair_kept {s0 s : State} (h : Kept s0 s) {a : Nat} {low high : Bool} :
    let lo : BitVec 32 × State := if low then s.readReg32 a else (0, s)
    let hi : BitVec 32 × State := if high then lo.2.readReg32 (a + 4) else (0, lo.2)
    Kept s0 hi.2 := by
  cases low <;> cases high
  · exact h
  · exact State.readReg32_kept h
  · exact State.readReg32_kept h
  · exact State.readReg32_kept (State.readReg32_kept h)

theorem State.readGroup_kept {s0 s : State} (h : Kept s0 s) {a : Nat} {low high : Bool} :
    Kept s0 (s.readGroup a low high).2 := by
  unfold State.readGroup
  split
  · exact State.readEntry_kept h
  split
  · split
    · exact State.modMain_kept (f := fun m => m.snap a _) h rfl rfl rfl
    · exact h
  · exact h
  · exact State.readPair_kept h

theorem State.readPart_kept {s0 : State} {off n : Nat} {acc : List Byte × State} {a : Nat} (h : Kept s0 acc.2) :
    Kept s0 (State.readPart off n acc a).2 := State.readGroup_kept h

theorem State.readParts_kept {s0 : State} {off n : Nat} (l : List Nat) {acc : List Byte × State} (h : Kept s0 acc.2) :
    Kept s0 (l.foldl (State.readPart off n) acc).2 := by
  induction l generalizing acc with
  | nil => exact h
  | cons a l ih => exact ih (State.readPart_kept h)

theorem State.barRead_kept {s0 s : State} (h : Kept s0 s) {off n : Nat} :
    Kept s0 (State.barRead s off n) := Kept.rest (State.readParts_kept _ h)

theorem State.mgtByte_kept {s0 s : State} (h : Kept s0 s) {a : Nat} : Kept s0 (s.mgtByte a).2 := by
  unfold State.mgtByte
  dsimp only
  repeat' split
  all_goals first
    | exact h
    | exact State.modMgmt_kept (f := fun m => m.capture _ _) h

theorem State.mgtReadBytes_kept {s0 : State} {k : Nat} {s : State} (h : Kept s0 s) {a : Nat} :
    Kept s0 (s.mgtReadBytes a k).2 := by
  induction k generalizing s a with
  | zero => exact h
  | succ k ih => exact ih (State.mgtByte_kept h)

theorem State.mgtHold_kept {s0 s : State} (h : Kept s0 s) {hold : Bool} :
    Kept s0 (State.mgtHold s hold) := by
  unfold State.mgtHold
  try dsimp only
  repeat' first
    | with_reducible assumption
    | with_reducible apply State.when_kept
    | with_reducible apply State.writeForce_kept
    | intro _
    | split

theorem State.mgtFlush_kept {s0 s : State} (h : Kept s0 s) :
    Kept s0 (State.mgtFlush s) := by
  unfold State.mgtFlush
  try dsimp only
  repeat' first
    | with_reducible assumption
    | with_reducible apply State.flush_kept
    | with_reducible apply State.noticeCheck_kept
    | with_reducible apply State.when_kept
    | intro _
    | split

theorem State.mgtPads_kept {s0 s : State} (h : Kept s0 s) :
    Kept s0 (State.mgtPads s) := by
  unfold State.mgtPads
  try dsimp only
  repeat' first
    | with_reducible assumption
    | with_reducible apply State.releasePads_kept
    | with_reducible apply State.when_kept
    | intro _
    | split

theorem State.mgtPwrCmd_kept {s0 s : State} (h : Kept s0 s) {b : Byte} :
    Kept s0 (State.mgtPwrCmd s b) := by
  unfold State.mgtPwrCmd
  try dsimp only
  repeat' first
    | with_reducible assumption
    | with_reducible apply State.mgtFlush_kept
    | with_reducible apply State.mgtHold_kept
    | with_reducible apply State.mgtPads_kept
    | intro _
    | split

theorem State.mgtPut_kept {s0 s : State} (h : Kept s0 s) {a : Nat} {b : Byte} :
    Kept s0 (State.mgtPut s a b) := by
  unfold State.mgtPut
  try dsimp only
  repeat' first
    | with_reducible assumption
    | with_reducible apply State.mgtPwrCmd_kept
    | with_reducible apply State.writeSlotSel_kept
    | with_reducible apply State.writeVsysWarn_kept
    | intro _
    | split

theorem State.mgtPutBytes_kept {s0 : State} {bs : List Byte} {s : State} (h : Kept s0 s) {a : Nat} :
    Kept s0 (s.mgtPutBytes a bs) := by
  induction bs generalizing s a with
  | nil => exact h
  | cons b bs ih => exact ih (State.mgtPut_kept h)

theorem Station.bankClock_memWf {t : Station} (h : t.memWf = true) {trv : Bool} {want : Fin 5 → Option (BitVec 19)} :
    (t.bankClock trv want).memWf = true := Station.memWf_of h rfl

theorem Station.bankClocks_memWf {t : Station} (h : t.memWf = true) {trv : Bool} {k : Nat} {want : Nat → Fin 5 → Option (BitVec 19)} :
    (Station.bankClocks t trv k want).memWf = true := by
  unfold Station.bankClocks
  try dsimp only
  repeat' first
    | with_reducible assumption
    | with_reducible apply Station.foldl_memWf
    | with_reducible apply Station.bankClock_memWf
    | exact ‹Station.memWf _ = true›
    | intro _
    | split
    | exact Station.memWf_of (Station.bankClock_memWf ‹Station.memWf _ = true›) (by with_reducible rfl)
    | exact Station.memWf_of ‹Station.memWf _ = true› (by with_reducible rfl)

theorem State.stationBanks_kept {s0 s : State} (h : Kept s0 s) {k : Nat} : Kept s0 (s.stationBanks k) := by
  unfold State.stationBanks
  exact State.modMain_ofFn_kept h (by with_reducible rfl) (fun _ ht => Station.bankClocks_memWf ht) (by with_reducible rfl)
    (by with_reducible rfl)

theorem Shm.foldl_mem {α : Type} {f : Shm → α → Shm} (hf : ∀ m a, (f m a).mem = m.mem) (l : List α) (m : Shm) :
    (l.foldl f m).mem = m.mem := by
  induction l generalizing m with
  | nil => rfl
  | cons a l ih => exact (ih (f m a)).trans (hf m a)

theorem Shm.bankClock_mem (m : Shm) (active : Fin 29 → Bool) (want : Fin 29 → Option (BitVec 28)) :
    (m.bankClock active want).mem = m.mem := by unfold Shm.bankClock; rfl

theorem State.shmBanks_kept {s0 s : State} (h : Kept s0 s) : Kept s0 s.shmBanks := by
  unfold State.shmBanks
  refine State.when_kept h fun s hs => State.modShm_kept hs fun m hm => ?_
  exact (congrArg Memory.wf (Shm.foldl_mem (fun m _ => Shm.bankClock_mem m _ _) _ m)).trans hm

theorem Station.clocks_memWf {t : Station} (h : t.memWf = true) {k : Nat} :
    (Station.clocks t k).memWf = true := by
  unfold Station.clocks
  try dsimp only
  repeat' first
    | with_reducible assumption
    | exact ‹Station.memWf _ = true›
    | intro _
    | split
    | exact Station.memWf_of ‹Station.memWf _ = true› (by with_reducible rfl)

theorem State.fabricTicks_kept {s0 s : State} (h : Kept s0 s) :
    Kept s0 (State.fabricTicks s) := by
  unfold State.fabricTicks
  try dsimp only
  repeat' first
    | with_reducible assumption
    | with_reducible apply State.fabricTick_kept
    | intro _
    | split

theorem State.stationClocks_kept {s0 s : State} (h : Kept s0 s) {k : Nat} : Kept s0 (s.modMain fun m => m.stationClocks k) :=
  State.modMain_ofFn_kept h (by unfold Main.stationClocks; rfl) (fun _ ht => Station.clocks_memWf ht)
    (by unfold Main.stationClocks; rfl) (by unfold Main.stationClocks; rfl)

theorem State.clockTick_kept {s0 s : State} (h : Kept s0 s) :
    Kept s0 (State.clockTick s) := by
  unfold State.clockTick
  dsimp only
  split
  · exact h
  · refine State.when_kept (State.when_kept (State.when_kept ?_ ?_) ?_) ?_
    · exact State.modMain_kept h rfl rfl rfl
    · exact fun s hs => State.modLin_kept hs
    · exact fun s hs => State.stationBanks_kept (State.stationClocks_kept hs)
    · exact fun s hs => State.shmBanks_kept (State.fabricTicks_kept hs)

theorem State.issueSignal_kept {s0 s : State} (h : Kept s0 s) {n : Fin 24} {w : BitVec 64} :
    Kept s0 (State.issueSignal s n w) := by
  unfold State.issueSignal
  try dsimp only
  repeat' first
    | with_reducible assumption
    | with_reducible apply State.modCtx_kept
    | with_reducible apply State.modStation_kept
    | with_reducible apply State.retire_kept
    | with_reducible apply Station.advance_memWf
    | exact ‹Station.memWf _ = true›
    | intro _
    | split
    | exact Station.memWf_of (Station.advance_memWf ‹Station.memWf _ = true›) (by with_reducible rfl)
    | exact Station.memWf_of ‹Station.memWf _ = true› (by with_reducible rfl)
    | with_reducible apply Kept.rest

theorem State.barFault_kept {s0 s : State} (h : Kept s0 s) {n : Fin 24} {reason : Nat} {word : BitVec 64} :
    Kept s0 (State.barFault s n reason word) := by
  unfold State.barFault
  try dsimp only
  repeat' first
    | with_reducible assumption
    | with_reducible apply State.latchFault_kept
    | with_reducible apply State.modStation_kept
    | with_reducible apply State.reportFault_kept
    | with_reducible apply Station.advance_memWf
    | exact ‹Station.memWf _ = true›
    | intro _
    | split
    | exact Station.memWf_of (Station.advance_memWf ‹Station.memWf _ = true›) (by with_reducible rfl)
    | exact Station.memWf_of ‹Station.memWf _ = true› (by with_reducible rfl)
    | with_reducible apply Kept.rest

theorem State.barFaults_kept {s0 s : State} (h : Kept s0 s) {reason : Nat} {ls : List (Fin 24 × BitVec 64)} :
    Kept s0 (State.barFaults s reason ls) := by
  unfold State.barFaults
  try dsimp only
  repeat' first
    | with_reducible assumption
    | with_reducible apply Kept.foldl
    | with_reducible apply State.barFault_kept
    | intro _
    | split

theorem State.barCheck_kept {s0 s : State} (h : Kept s0 s) {q : Fin 16} {order : Nat} {b : Fin 4} :
    Kept s0 (State.barCheck s q order b) := by
  unfold State.barCheck
  try dsimp only
  repeat' first
    | with_reducible assumption
    | with_reducible apply State.barFaults_kept
    | intro _
    | split

theorem State.takeBranch_kept {s0 s : State} (h : Kept s0 s) {n : Fin 24} {w : BitVec 64} {need : Need} {target : Nat} {f : Station → Station} (hf : ∀ t, t.memWf = true → (f t).memWf = true) :
    Kept s0 (State.takeBranch s n w need target f) := by
  unfold State.takeBranch
  try dsimp only
  repeat' first
    | with_reducible assumption
    | with_reducible apply hf
    | with_reducible apply State.issue_kept
    | with_reducible apply State.modStation_kept
    | with_reducible apply State.retire_kept
    | with_reducible apply Station.branch_memWf
    | exact ‹Station.memWf _ = true›
    | intro _
    | split
    | exact Station.memWf_of (Station.branch_memWf ‹Station.memWf _ = true›) (by with_reducible rfl)
    | exact Station.memWf_of ‹Station.memWf _ = true› (by with_reducible rfl)

theorem Station.openLoop_memWf {t : Station} (h : t.memWf = true) {w : BitVec 64} :
    (Station.openLoop t w).memWf = true := by
  unfold Station.openLoop
  try dsimp only
  repeat' first
    | with_reducible assumption
    | with_reducible apply Station.advanceFrom_memWf
    | exact ‹Station.memWf _ = true›
    | intro _
    | split
    | exact Station.memWf_of (Station.advanceFrom_memWf ‹Station.memWf _ = true›) (by with_reducible rfl)
    | exact Station.memWf_of ‹Station.memWf _ = true› (by with_reducible rfl)

theorem State.issueClosed_kept {s0 s : State} (h : Kept s0 s) {n : Fin 24} {w : BitVec 64} {pre : Need} {post : Need} {go : State → State} (hgo : ∀ s, Kept s0 s → Kept s0 (go s)) :
    Kept s0 (State.issueClosed s n w pre post go) := by
  unfold State.issueClosed
  try dsimp only
  repeat' first
    | with_reducible assumption
    | with_reducible apply hgo
    | with_reducible apply State.issue_kept
    | intro _
    | split

theorem State.eclose_kept {s0 s : State} (h : Kept s0 s) {n : Fin 24} {w : BitVec 64} {go : State → BitVec 16 → State} (hgo : ∀ s b, Kept s0 s → Kept s0 (go s b)) :
    Kept s0 (State.eclose s n w go) := by
  unfold State.eclose
  try dsimp only
  repeat' first
    | with_reducible assumption
    | with_reducible apply hgo
    | with_reducible apply State.issueClosed_kept
    | with_reducible apply State.modStation_kept
    | with_reducible apply State.retire_kept
    | with_reducible apply Station.advance_memWf
    | exact ‹Station.memWf _ = true›
    | intro _
    | split
    | exact Station.memWf_of (Station.advance_memWf ‹Station.memWf _ = true›) (by with_reducible rfl)
    | exact Station.memWf_of ‹Station.memWf _ = true› (by with_reducible rfl)

theorem Station.vecMap_memWf {t : Station} (h : t.memWf = true) {w : BitVec 64} {ff : Fl → Fl → Fl → Fl} {fi : Int → Int → Int → Int} :
    (Station.vecMap t w ff fi).memWf = true := by
  unfold Station.vecMap
  try dsimp only
  repeat' first
    | with_reducible assumption
    | with_reducible apply Station.wv_memWf
    | exact ‹Station.memWf _ = true›
    | intro _
    | split
    | exact Station.memWf_of (Station.wv_memWf ‹Station.memWf _ = true›) (by with_reducible rfl)
    | exact Station.memWf_of ‹Station.memWf _ = true› (by with_reducible rfl)

theorem Station.vecCompare_memWf {t : Station} (h : t.memWf = true) {w : BitVec 64} {rf : Fl → Fl → Bool} {ri : Int → Int → Bool} :
    (Station.vecCompare t w rf ri).memWf = true := by
  unfold Station.vecCompare
  try dsimp only
  repeat' first
    | with_reducible assumption
    | with_reducible apply Station.wp_memWf
    | exact ‹Station.memWf _ = true›
    | intro _
    | split
    | exact Station.memWf_of (Station.wp_memWf ‹Station.memWf _ = true›) (by with_reducible rfl)
    | exact Station.memWf_of ‹Station.memWf _ = true› (by with_reducible rfl)

theorem Station.vectorEffect_memWf {t : Station} (h : t.memWf = true) {w : BitVec 64} {g : BitVec 64} :
    (Station.vectorEffect t w g).memWf = true := by
  unfold Station.vectorEffect
  try dsimp only
  repeat' first
    | with_reducible assumption
    | with_reducible apply Station.vecCompare_memWf
    | with_reducible apply Station.vecMap_memWf
    | with_reducible apply Station.wbuf_memWf
    | with_reducible apply Station.wg_memWf
    | with_reducible apply Station.wv_memWf
    | exact ‹Station.memWf _ = true›
    | intro _
    | split
    | exact Station.memWf_of (Station.vecCompare_memWf ‹Station.memWf _ = true›) (by with_reducible rfl)
    | exact Station.memWf_of (Station.vecMap_memWf ‹Station.memWf _ = true›) (by with_reducible rfl)
    | exact Station.memWf_of (Station.wbuf_memWf ‹Station.memWf _ = true›) (by with_reducible rfl)
    | exact Station.memWf_of (Station.wg_memWf ‹Station.memWf _ = true›) (by with_reducible rfl)
    | exact Station.memWf_of (Station.wv_memWf ‹Station.memWf _ = true›) (by with_reducible rfl)
    | exact Station.memWf_of ‹Station.memWf _ = true› (by with_reducible rfl)
    | (simp only [Station.memWf, Bool.and_eq_true] at *; simp_all)

theorem State.issueVec_kept {s0 s : State} (h : Kept s0 s) {n : Fin 24} {w : BitVec 64} {need : Need} :
    Kept s0 (State.issueVec s n w need) := by
  unfold State.issueVec
  try dsimp only
  repeat' first
    | with_reducible assumption
    | with_reducible apply State.issueEngine_kept
    | intro _
    | split

theorem State.engineEffect_kept {s0 s : State} (h : Kept s0 s) {n : Fin 24} {i : Issued} :
    Kept s0 (State.engineEffect s n i) := by
  unfold State.engineEffect
  try dsimp only
  repeat' first
    | with_reducible assumption
    | with_reducible apply State.matrixEffect_kept
    | with_reducible apply State.modStation_kept
    | with_reducible apply State.quantEffect_kept
    | with_reducible apply State.xferEffect_kept
    | with_reducible apply Station.maaEffect_memWf
    | with_reducible apply Station.vectorEffect_memWf
    | exact ‹Station.memWf _ = true›
    | intro _
    | split
    | exact Station.memWf_of (Station.maaEffect_memWf ‹Station.memWf _ = true›) (by with_reducible rfl)
    | exact Station.memWf_of (Station.vectorEffect_memWf ‹Station.memWf _ = true›) (by with_reducible rfl)
    | exact Station.memWf_of ‹Station.memWf _ = true› (by with_reducible rfl)

theorem Station.dequeue_memWf {t : Station} (h : t.memWf = true) {e : Engine} {i : Issued} :
    (Station.dequeue t e i).memWf = true := by
  unfold Station.dequeue
  try dsimp only
  repeat' first
    | with_reducible assumption
    | with_reducible apply Station.setQueue_memWf
    | exact ‹Station.memWf _ = true›
    | intro _
    | split
    | exact Station.memWf_of (Station.setQueue_memWf ‹Station.memWf _ = true›) (by with_reducible rfl)
    | exact Station.memWf_of ‹Station.memWf _ = true› (by with_reducible rfl)

theorem State.endConvs_kept {s0 : State} {k : Nat} {s : State} (h : Kept s0 s) {n : Fin 24} :
    Kept s0 (State.endConvs k s n) := by
  induction k generalizing s with
  | zero => exact h
  | succ k ih => exact ih (State.endConv_kept h)

theorem State.withFetchWord_kept {s0 s : State} (h : Kept s0 s) {nbits : Nat} {w : Nat} :
    Kept s0 (State.withFetchWord s nbits w) := by
  unfold State.withFetchWord
  try dsimp only
  repeat' first
    | with_reducible assumption
    | intro _
    | split
    | with_reducible apply Kept.rest

end

end Sys2Proof.Machine
end

