-- ==== Sys2Proof/Tests/Slice0.lean ====
section
/-!
SUPPORT. Small tests. The checks of WellFormed refuse an ill-formed command each; for every statement with hypotheses a
state and operands meet them, clause by clause, at the edges of their ranges; and single commands give the results that
the tables of the spec give.
-/

namespace Sys2Proof.Tests

open Sys2Proof Sys2Proof.Machine

set_option exponentiation.threshold 4096
set_option Elab.async false

/-! ## Decoding -/

theorem test_no_row_has_bits : decodeTableWord 64 0x0400000000000000 = none := by decide

theorem test_no_word_changes_the_queue : (State.reset.withFetchWord 64 5).pending = [] := by decide

/-! ## WellFormed refuses an ill-formed term for each check -/

def goodBoot : BootInputs := {}

/-- A parameter page with a main area that no supported part has. -/
def badParam : TargetParam := { main := 3, spare := 160, ppb := 64, planes := false, blocks := 1024, twoLuns := false }

theorem test_wf_boot_param : Instr.wf (.flr goodBoot) = true ∧ Instr.wf (.flr { param := some { badParam with main := 2 } }) = true ∧
    Instr.wf (.flr { param := some badParam }) = false ∧ Instr.wf (.strapLatch 0 { param := some badParam }) = false ∧
    Instr.wf (.dormantWake ⟨0x48, { param := some badParam }⟩) = false := by decide

def goodMsg : Msg := { op := .write, src := 1, dst := 0, len := 1, data := [7, 8] }

theorem test_wf_message_operation : Instr.wf (.write 0 goodMsg) = true ∧ Instr.wf (.readResp 0 goodMsg) = false := by decide

theorem test_wf_message_data : Instr.wf (.write 0 { goodMsg with data := [7] }) = false ∧
    Instr.wf (.read 0 { goodMsg with op := .read }) = false := by decide

theorem test_wf_discovery : Instr.wf (.firmwareStart { targets := Vector.replicate 16 {} }) = true ∧
    Instr.wf (.firmwareStart { targets := (Vector.replicate 16 {}).set 15 { answers := true, copies := [{ param := badParam }] } }) = false := by
  decide

theorem test_wf_boot_image (bs : List Byte) (h : bs.length = 0x100001) : Instr.wf (.glbBootGo (.data bs)) = false := by
  show decide (bs.length ≤ 0x100000) = false
  simp [h]

theorem test_wf_verify_request (bs : List Byte) (h : bs.length = 129) : Instr.wf (.verifyEnd (.data bs) .busError) = false := by
  show (decide (bs.length ≤ 128) && true) = false
  simp [h]

theorem test_wf_verify_image (bs : List Byte) (h : bs.length = 0x10000001) : Instr.wf (.verifyEnd .busError (.data bs)) = false := by
  show (true && decide (bs.length ≤ 0x10000000)) = false
  simp [h]

theorem test_wf_response_length : Instr.wf (.frameEnd (.received (List.replicate 9 0) 0 false false)) = false := by decide

theorem test_wf_traverse_read (bs : List Byte) (h : bs.length = 4097) : Instr.wf (.traverseReadCompletion (.chan 0) 0 bs) = false := by
  show decide (bs.length ≤ 4096) = false
  simp [h]

theorem test_wf_nand_data (bs : List Byte) (h : bs.length = 32769) : Instr.wf (.nandOperationEnd 0 bs) = false := by
  show decide (bs.length ≤ 32768) = false
  simp [h]

theorem test_wf_management : Instr.wf (.mgtRead ⟨0x48, 0⟩ 0) = false ∧ Instr.wf (.mgtWrite ⟨0x48, 0⟩ []) = false := by decide

theorem test_wf_ring_window : Instr.wf (.fieldBookEntryRead 0x0B0FFF) = false ∧ Instr.wf (.fieldBookEntryRead 0x0B4000) = false ∧
    Instr.wf (.fieldBookEntryRead 0x0B3FF8) = true := by decide

theorem test_wf_requests : Instr.wf (.registerWrite { off := 0, lanes := [] } .busError) = false ∧
    Instr.wf (.registerWrite { off := 0xFFFFFE, lanes := [some 1, some 2] } .busError) = true ∧
    Instr.wf (.registerWrite { off := 0xFFFFFE, lanes := [some 1, some 2, some 3] } .busError) = false ∧
    Instr.wf (.lowWordRead { off := 0, len := 0 }) = false ∧ Instr.wf (.lowWordRead { window := .bar2, off := 0xFFF, len := 1 }) = true ∧
    Instr.wf (.lowWordRead { window := .bar2, off := 0xFFF, len := 2 }) = false := by decide

/-! ## States for the witnesses -/

/-- A parcel entry. -/
def par (base bound space rights : Nat) : Parcel :=
  { base := BitVec.ofNat 28 base, bound := BitVec.ofNat 29 bound, space := BitVec.ofNat 8 space, rights := BitVec.ofNat 8 rights }

/-- Entry 0: the station's own memory, all rights. Entry 1: shared memory. Entry 2: read only. -/
def ptab : PTable := (((Vector.replicate 32 ({} : Parcel)).set 0 (par 0 0x8000 0x1E 0xBF)).set 1 (par 0x4000 0x100000 0x1F 0xAF)).set 2
  (par 0 0x4000 0x1F 0x81)

/-- A serving device. -/
def sv : State := { State.reset with phase := .serving, main := { State.reset.main with time := 1000 } }

/-- The device with a parcel table in context 0. -/
def tabled : State := sv.modCtx 0 fun c => { c with table := ⟨ptab, ptab, none⟩ }

/-- A range descriptor. -/
def desc (parcel off len esz stride : Nat) : BitVec 128 :=
  BitVec.ofNat 128 (parcel + off * 2 ^ 8 + len * 2 ^ 40 + esz * 2 ^ 60 + stride * 2 ^ 64)

/-- A running station of a job of queue 2. -/
def st0 : Station := { Station.fresh 10 with
  running := true, queue := 2, order := 7, pc := 0x40
  g := ((Vector.replicate 32 0).set 2 0xFFFFFFFFFFFFFFFF).set 3 8
  d := ((((Vector.replicate 8 0).set 0 (desc 0 0 4 3 8)).set 1 (desc 1 64 1 3 8)).set 2 (desc 2 0 4 0 1)).set 4 (desc 1 0 16 2 4) }

/-- Station 0 as changed. -/
def onSt (f : Station → Station) : State := tabled.modStation 0 fun _ => f st0

def base : State := onSt id

/-- The bits below the opcode fields of a word of the R format. -/
def rWord (rd ra rb i imm : Nat) : BitVec 52 := BitVec.ofNat 52 (rd * 2 ^ 47 + ra * 2 ^ 42 + rb * 2 ^ 37 + i * 2 ^ 36 + imm)

/-- What State.issues says, with its range as a list of at most one. -/
abbrev issuesNow (s : State) (n : Fin 24) (need : Need) : Prop :=
  s.canIssue n = true ∧ s.fetchCheck n (s.station n).pc.toNat = none ∧
    (∀ r ∈ need.gs, r ∉ (s.station n).pendingG) ∧ (∀ r ∈ need.ps, r ∉ (s.station n).pendingP) ∧
    need.reasons = [] ∧ need.bound = none ∧ need.unwritten = none ∧ need.spec = none ∧
    (∀ r ∈ need.range.toList, (∀ o ∈ (s.station n).board, r.waits o = false) ∧ (s.station n).board.length < 32) ∧
    (need.held = true → (s.ctx (s.station n).ctx).held.length < 64) ∧ need.full = false

theorem issues_of_issuesNow {s : State} {n : Fin 24} {need : Need} (h : issuesNow s n need) : s.issues n need := by
  obtain ⟨a, b, c, d, e, f, g, i, j, k, l⟩ := h
  exact ⟨a, b, c, d, e, f, g, i, fun r hr => j r (by simp [hr]), k, l⟩

/-! ## The scalar class: witnesses -/

/-- The first and the last row, with a register and with an immediate, g31 and g0. -/
theorem test_witness_ScalarResults_rows :
    (let x := wordOf 1 0x01 (rWord 31 2 3 0 0)
     field x 35 32 = 0 ∧ iOf x = false ∧ immOf x = 0 ∧ issuesNow base 0 { gs := [rdOf x, raOf x, rbOf x] }) ∧
    (let x := wordOf 1 0x0E (rWord 0 31 0 1 0xFFFFFFFF)
     field x 35 32 = 0 ∧ iOf x = true ∧ rbOf x = 0 ∧ issuesNow base 0 { gs := [rdOf x, raOf x] }) := by decide

theorem test_witness_ScalarResults_moves :
    issuesNow base 0 {} ∧
    (let x := wordOf 1 0x0F (rWord 31 2 0 0 0xFFFFFFFF)
     field x 36 32 = 0 ∧ rbOf x = 0 ∧ issuesNow base 0 { gs := [rdOf x, raOf x] }) ∧
    (let x := wordOf 1 0x14 (rWord 7 2 31 0 0)
     field x 36 0 = 0 ∧ rdOf x < 8 ∧ issuesNow base 0 { gs := [raOf x, rbOf x] }) ∧
    (let x := wordOf 1 0x15 (rWord 31 7 0 1 0)
     field x 35 0 = 0 ∧ rbOf x = 0 ∧ raOf x < 8 ∧ issuesNow base 0 { gs := [rdOf x] }) ∧
    (let x := wordOf 1 0x16 (rWord 7 2 0 0 0xFFFFFFFF)
     field x 36 32 = 0 ∧ rbOf x = 0 ∧ rdOf x < 8 ∧ issuesNow base 0 { gs := [raOf x] }) ∧
    (let x := wordOf 1 0x17 (rWord 31 0 0 0 0)
     field x 46 0 = 0 ∧ issuesNow base 0 { gs := [rdOf x] }) := by
  exact ⟨by decide, by decide, by decide, by decide, by decide, by decide⟩

/-- LD64 of the last 8 bytes of a parcel, and LD32 of the last 4. -/
theorem test_witness_ScalarLoadResults : ∀ row ∈ [(0x10, 8, 0x7FF8), (0x11, 4, 0x7FFC)],
    let x := wordOf 1 row.1 (rWord 31 0 0 0 row.2.2)
    let t := base.station 0
    let off := t.scalarOff x
    let place := base.scalarPlace 0 x
    field x 36 32 = 0 ∧ raOf x < 8 ∧ dBad (t.rd (raOf x)) false = false ∧ off % row.2.1 = 0 ∧
      base.parcelCheck (base.parcelOfD 0 (t.rd (raOf x))) 0 true .read off (off + row.2.1 - 1) = none ∧
      issuesNow base 0 { gs := [rdOf x, rbOf x], range := some (granules place.1 place.2 (place.2 + row.2.1 - 1) .read) } := by decide

/-- The canonical form of the memories of a small state. -/
theorem test_memWf : base.memWf = true := by decide

/-- ST64 and ST32 at the first and last place, under an open epoch too. -/
theorem test_witness_ScalarStoreResults : ∀ s ∈ [base, base.modCtx 0 fun c => { c with epochs := [3] }],
    ∀ row ∈ [(0x12, 8, 0x7FF8), (0x13, 4, 0), (0x13, 4, 0x7FFC)],
    let x := wordOf 1 row.1 (rWord 2 0 0 0 row.2.2)
    let t := s.station 0
    let off := t.scalarOff x
    let p := s.parcelOfD 0 (t.rd (raOf x))
    let place := s.scalarPlace 0 x
    s.memWf = true ∧ s.kickChan 0 x = none ∧ field x 36 32 = 0 ∧ raOf x < 8 ∧ dBad (t.rd (raOf x)) true = false ∧ off % row.2.1 = 0 ∧
      s.parcelCheck p 0 true .write off (off + row.2.1 - 1) = none ∧ ((s.tagOf 0).isSome = true → p.has 5 = true) ∧
      issuesNow s 0 { gs := [rdOf x, rbOf x], range := some (granules place.1 place.2 (place.2 + row.2.1 - 1) .write) } := by decide

/-- A station that may not issue; every case of the order in which issue checks, the registers pending first. -/
theorem test_witness_IssueChecksInOrder :
    (onSt fun t => { t with running := false }).canIssue 0 = false ∧
    opcodeDefined 0x0400000000000000 = true ∧ opcodeDefined 0x0580000000000000 = false ∧ opcodeDefined 0xFC00000000000000 = false ∧
    (base.canIssue 0 = true ∧ base.fetchCheck 0 (base.station 0).pc.toNat = none ∧ base.tagOf 0 = none) ∧
    (let s := onSt fun t => { t with pc := 0x8000 }
     s.canIssue 0 = true ∧ s.fetchCheck 0 (s.station 0).pc.toNat ≠ none) ∧
    (let s := onSt fun t => { t with vecQ := [{ word := BitVec.ofNat 64 (6 * 2 ^ 58 + 0x0A * 2 ^ 52 + 3 * 2 ^ 47) }] }
     s.canIssue 0 = true ∧ 3 ∈ (s.station 0).pendingG ∧ 4 ∉ (s.station 0).pendingG) ∧
    (let s := onSt fun t => { t with board := [⟨.shm, 0, 20, .read⟩] }
     s.canIssue 0 = true ∧ ∃ o ∈ (s.station 0).board, (⟨.shm, 20, 21, .write⟩ : Range).waits o = true) ∧
    (let s := (onSt fun t => { t with board := List.replicate 32 ⟨.shm, 0, 20, .read⟩ }).modCtx 0 fun c =>
       { c with held := List.replicate 64 ⟨3, .sig 63⟩ }
     s.canIssue 0 = true ∧ 32 ≤ (s.station 0).board.length ∧ 64 ≤ (s.ctx (s.station 0).ctx).held.length) := by
  exact ⟨by decide, by decide, by decide, by decide, by decide, by decide, by decide, by decide, by decide⟩

/-- The places of the program counter: no loop, the last offset, inside a body, at its end with two passes, one and none left. -/
theorem test_witness_ScalarFrame :
    (0 : Nat) < 32 ∧ (31 : Nat) < 32 ∧
    (({ pc := 0xFFFFFFF0 } : Station).loops = [] ∧ (0xFFFFFFF0 : BitVec 32).toNat + 8 ≤ 0xFFFFFFF8) ∧
    ((⟨0x10, 0x40, 2⟩ : Loop).last = (0x40 : BitVec 32).toNat ∧ 1 < (⟨0x10, 0x40, 2⟩ : Loop).left ∧
      (⟨0x10, 0x40, 2⟩ : Loop).first ≤ 0xFFFFFFF8) ∧
    (⟨0x10, 0x40, 1⟩ : Loop).left ≤ 1 ∧ (⟨0x10, 0x40, 0⟩ : Loop).left ≤ 1 := by
  refine ⟨by decide, by decide, ⟨rfl, by simp⟩, ⟨rfl, by decide, by simp⟩, by decide, by decide⟩

/-! ## Branches, loops and END: witnesses -/

/-- The bits below the opcode fields of a word of the C format. -/
def cWord (rd ra cond imm : Nat) : BitVec 52 := BitVec.ofNat 52 (rd * 2 ^ 47 + ra * 2 ^ 42 + cond * 2 ^ 39 + imm)

/-- Backwards to offset 0, to the last word of the parcel, forwards by one word, and through g3. -/
theorem test_witness_BranchResults :
    (∀ l ∈ (base.station 0).loops, l.last ≠ (base.station 0).pc.toNat) ∧
    (∀ imm ∈ [0xFFFFFFF8, 0xFF7, 1], let x := wordOf 8 0x01 (cWord 0 0 0 imm)
      field x 51 32 = 0 ∧ base.fetchCheck 0 ((base.station 0).relTarget x) = none ∧ issuesNow base 0 {}) ∧
    (∀ row ∈ [(0, 31, true), (1, 2, true), (2, 2, true), (3, 3, true), (4, 0, true), (5, 0, true), (0, 3, false), (1, 0, false),
        (2, 3, false), (3, 2, false), (4, 7, false), (5, 7, false)],
      let x := wordOf 8 0x02 (cWord 0 row.2.1 row.1 1)
      let s := onSt fun t => { t with p := (Vector.replicate 8 0).set 0 (BitVec.allOnes 256) }
      rdOf x = 0 ∧ field x 38 32 = 0 ∧ cCond x < 6 ∧ (4 ≤ cCond x → raOf x < 8) ∧ (s.station 0).cond x = row.2.2 ∧
        issuesNow s 0 (if 4 ≤ cCond x then { ps := [raOf x] } else { gs := [raOf x] })) ∧
    (let x := wordOf 8 0x03 (cWord 31 0 0 2)
     field x 46 32 = 0 ∧ base.fetchCheck 0 ((base.station 0).relTarget x) = none ∧ issuesNow base 0 { gs := [rdOf x] }) ∧
    (let x := wordOf 8 0x04 (cWord 0 3 0 0)
     let t := base.station 0
     rdOf x = 0 ∧ field x 41 0 = 0 ∧ (t.rg (raOf x)).toNat % 8 = 0 ∧ (t.rg (raOf x)).toNat < 2 ^ 32 ∧
       base.fetchCheck 0 (t.rg (raOf x)).toNat = none ∧ issuesNow base 0 { gs := [raOf x] }) := by
  exact ⟨by decide, by decide, by decide, by decide, by decide⟩

/-- A body of one word, inside a body that ends with it, three loops active, a count of 8 and of 0; and END. -/
theorem test_witness_LoopAndEndResults :
    (∀ ra ∈ [3, 31], let x := wordOf 8 0x05 (cWord 0 ra 0 1)
      let s := onSt fun t => { t with loops := [⟨0x10, 0x48, 3⟩, ⟨0x10, 0x80, 3⟩, ⟨0x8, 0x80, 2⟩] }
      let t := s.station 0
      rdOf x = 0 ∧ field x 41 32 = 0 ∧ 0 < cImm x ∧ (∀ l ∈ t.loops.head?, t.pc.toNat + 8 * (cImm x).toNat ≤ l.last) ∧
        t.loops.length < 4 ∧ (∀ l ∈ t.loops, l.last ≠ t.pc.toNat) ∧ issuesNow s 0 { gs := [raOf x] }) ∧
    (base.station 0).rg 3 ≠ 0 ∧ (base.station 0).rg 31 = 0 ∧
    ((∀ l ∈ (base.station 0).loops, l.last ≠ (base.station 0).pc.toNat) ∧ issuesNow base 0 {}) := by
  exact ⟨by decide, by decide, by decide, by decide⟩

/-! ## The engines: witnesses -/

/-- The bits below the opcode fields of a word of the vector class. -/
def vWord (rd ra rb etype pr imm : Nat) : BitVec 52 :=
  BitVec.ofNat 52 (rd * 2 ^ 47 + ra * 2 ^ 42 + rb * 2 ^ 37 + etype * 2 ^ 35 + pr * 2 ^ 32 + imm)

/-- Each kind of vector instruction at the ends of its fields; three entries wait in the queue. -/
theorem test_witness_VectorInstructionsQueue :
    let s := onSt fun t => { t with vecQ := List.replicate 3 { word := 0 } }
    (let x := wordOf 6 0x04 (vWord 15 15 0 2 7 0)
     immOf x = 0 ∧ etypeOf x < 3 ∧ rdOf x < 16 ∧ raOf x < 16 ∧ rbOf x < 16 ∧ issuesNow s 0 (s.inQueue 0 .vector { ps := [prOf x] })) ∧
    (let x := wordOf 6 0x07 (vWord 15 31 0 0 7 0)
     immOf x = 0 ∧ etypeOf x < 3 ∧ rdOf x < 16 ∧ rbOf x = 0 ∧ issuesNow s 0 (s.inQueue 0 .vector { gs := [raOf x], ps := [prOf x] })) ∧
    (let x := wordOf 6 0x09 (vWord 7 15 15 1 0 0)
     immOf x = 0 ∧ etypeOf x < 3 ∧ rdOf x < 8 ∧ raOf x < 16 ∧ rbOf x < 16 ∧
       issuesNow s 0 (s.inQueue 0 .vector { ps := [prOf x, rdOf x] })) ∧
    (let x := wordOf 6 0x0B (vWord 31 15 0 2 7 0)
     immOf x = 0 ∧ etypeOf x < 3 ∧ raOf x < 16 ∧ rbOf x = 0 ∧ issuesNow s 0 (s.inQueue 0 .vector { gs := [rdOf x], ps := [prOf x] })) ∧
    (∀ row ∈ [(0x0C, 8192), (0x0E, 16384)], let x := wordOf 6 row.1 (vWord 15 0 0 0 0 (row.2 - 256))
     field x 46 32 = 0 ∧ rdOf x < 16 ∧ (immOf x).toNat % 256 = 0 ∧ (immOf x).toNat < row.2 ∧ issuesNow s 0 (s.inQueue 0 .vector {})) := by
  exact ⟨by decide, by decide, by decide, by decide, by decide⟩

/-- M_LD into the end of DMU A, M_ST and M_STA from the start of the accumulator; three entries wait in the queue. -/
theorem test_witness_TransfersQueue : ∀ row ∈ [(0x01, false, false, 255), (0x02, true, false, 0x2000), (0x03, true, true, 0x2400)],
    let x := wordOf 2 row.1 (BitVec.ofNat 52 (4 * 2 ^ 49 + row.2.2.2 * 2 ^ 33 + 31 * 2 ^ 28))
    let s := onSt fun t => { t with dmuQ := List.replicate 3 { word := 0 } }
    mBuf x < 7 ∧ issuesNow s 0 (s.inQueue 0 (bufEngine (mBuf x)) (s.xferNeed 0 x row.2.1 row.2.2.1)) := by decide

/-- The DMU, array and quantiser classes; array 31 is WRITTEN for ACONV. -/
theorem test_witness_MatrixArrayQuantiserQueue :
    (∀ need ∈ [matNeed, aclrNeed], let x := wordOf 3 0x01 0
      issuesNow base 0 (base.inQueue 0 .dmu (need x))) ∧
    (let x := wordOf 4 0x01 (BitVec.ofNat 52 (2 ^ 31 * 2 ^ 20))
     let s := base.modNv 0 31 fun a => { a with state := 1 }
     field x 8 0 = 0 ∧ aMask x ≠ 0 ∧ (∀ a : Fin 32, (aMask x).getLsbD a.val = true → (s.arrayNv 0 a).state = 1) ∧
       issuesNow s 0 (s.inQueue 0 .arrays {})) ∧
    (let x := wordOf 4 0x02 (BitVec.ofNat 52 (2 ^ 20))
     field x 18 0 = 0 ∧ aMask x ≠ 0 ∧ issuesNow base 0 (base.inQueue 0 .arrays {})) ∧
    (∀ row ∈ [(0x01, 5, qntNeed), (0x02, 1, dqnNeed), (0x03, 0, qactNeed)],
      issuesNow base 0 (base.inQueue 0 .quantiser (row.2.2 (wordOf 5 row.1 (BitVec.ofNat 52 (row.2.1 * 2 ^ 49 + 2 ^ 48)))))) := by
  exact ⟨by decide, by decide, by decide, by decide⟩

/-- The head of the vector queue with one behind it; the lowest and the highest array of an ACONV. -/
theorem test_witness_InstructionRetires :
    (let i : Issued := { word := 0x1810000000000000 }
     let s := onSt fun t => { t with vecQ := [i, i] }
     s.stationsOn = true ∧ (s.station 0).queueOf .vector = i :: [i] ∧ (s.station 0).heldBack .vector i = false ∧ i.todo = 0 ∧ i.convs = []) ∧
    (let i : Issued := { word := wordOf 4 0x02 0 }
     let s := onSt fun t => { t with arrQ := [i] }
     (s.station 0).queueOf .arrays = i :: [] ∧ (s.station 0).heldBack .arrays i = false ∧ majorOf i.word = 4 ∧ minorOf i.word = 2 ∧
       s.main.pwr.switching = false) ∧
    (∀ a ∈ [(0 : Fin 32), 31], let i : Issued := { word := 0x1010000000000000, todo := BitVec.ofNat 32 (2 ^ a.val) }
     let s := onSt fun t => { t with arrQ := [i] }
     let t := s.station 0
     nextConv t.arrQ = some i ∧ i.todo.getLsbD a.val = true ∧ (∀ b : Fin 32, b < a → i.todo.getLsbD b.val = false) ∧
       s.stationsOn = true ∧ s.main.pwr.switching = false ∧ t.heldBack .arrays i = false ∧ t.converting < 2 ∧ t.arrayBusy a = false) := by
  exact ⟨by decide, by decide, by decide⟩

/-- Each lane operation's minor, with the last element type and register. -/
theorem test_witness_VectorLaneResults : ∀ k ∈ [0x01, 0x02, 0x03, 0x04, 0x05, 0x06], let w := wordOf 6 k (vWord 15 15 0 2 7 0)
    minorOf w = k ∧ etypeOf w < 3 ∧ rdOf w < 16 := by decide

/-- Every minor of the other kinds, and a predicate with no active lane. -/
theorem test_witness_VectorOtherResults :
    st0.memWf = true ∧
    (∀ k ∈ [0x07, 0x08, 0x09, 0x0A, 0x0B, 0x0C, 0x0D, 0x0E], let w := wordOf 6 k (vWord 15 15 0 2 1 0)
      minorOf w = k ∧ etypeOf w < 3 ∧ rdOf w < 16) ∧
    (let w := wordOf 6 0x0A (vWord 31 15 0 0 1 0)
     etypeOf w < 3 ∧ ∀ i < laneCount (etypeOf w), (st0.rp (prOf w)).getLsbD (laneBits (etypeOf w) / 8 * i) = false) := by
  exact ⟨by decide, by decide, by decide⟩

/-- LD and ST of one element and of the last buffer. -/
theorem test_witness_TransferEffects :
    let x : Xfer := ⟨.shm, 0x4000, 1, 8, 8⟩
    base.memWf = true ∧ 0 < x.length ∧ x.stride = x.esize ∧
    (∀ k ∈ [1, 2], let w := wordOf 2 k (BitVec.ofNat 52 (6 * 2 ^ 45))
      minorOf w = k ∧ mBuf w < 7 ∧ mCvt w = 0) := by decide

/-- The smallest tile, and the tile that ends at column 255; ACLR, MMA and MMAZ. -/
theorem test_witness_MatrixResults :
    base.memWf = true ∧
    (∀ row ∈ [(1, 0, 0), (2, 0, 15), (3, 0, 15)], let w := wordOf 3 row.1 (BitVec.ofNat 52 (row.2.1 * 2 ^ 49 + row.2.2 * 2 ^ 13))
      minorOf w = row.1 ∧ field w 51 49 < 5 ∧ 16 * xCoff w + xN w ≤ 256) ∧
    dec32 0x7FC00000 = .nan ∧ dec32 0x7F800000 = .inf false ∧ dec32 0xFF800000 = .inf true := by decide

/-! ## Marks, barriers and epochs: witnesses -/

/-- The bits below the opcode fields of a word of the S format. -/
def sWord (mark rb bar : Nat) : BitVec 52 := BitVec.ofNat 52 (mark * 2 ^ 46 + rb * 2 ^ 41 + bar * 2 ^ 39)

def epochal : State := base.modCtx 0 fun c => { c with epochs := [3, 4], nextEpoch := 5 }

theorem test_witness_MarkInstructions :
    (let x := wordOf 7 0x01 (sWord 63 31 0)
     field x 40 0 = 0 ∧ base.tagOf 0 = none ∧ issuesNow base 0 { gs := [sRb x] }) ∧
    (epochal.tagOf 0 = some 4 ∧ issuesNow epochal 0 { gs := [31], held := true }) ∧
    (let x := wordOf 7 0x02 (sWord 63 2 0)
     field x 40 0 = 0 ∧ issuesNow base 0 { gs := [sRb x] } ∧ (base.main.marks[sMark x]).toNat < ((base.station 0).rg (sRb x)).toNat) ∧
    (base.main.marks[(0 : Fin 64)]).toNat = ((base.station 0).rg 31).toNat ∧
    (let s := onSt fun t => { t with signals := [⟨63, 7, 0⟩, ⟨4, 8, 1⟩] }
     (s.station 0).signals = ⟨63, 7, 0⟩ :: [⟨4, 8, 1⟩] ∧ s.serving = true ∧ (s.station 0).writesBefore 0 = true) ∧
    (let s := (onSt fun t => { t with markWait := some (2, 9) }).setMark 2 9
     (s.station 0).markWait = some (2, 9) ∧ s.stationsOn = true ∧ (9 : BitVec 64).toNat ≤ (s.main.marks[(2 : Fin 64)]).toNat) := by
  exact ⟨by decide, by decide, by decide, by decide, by decide, by decide⟩

/-- The device with stations 0, 1 and 5 in the job of queue 2. -/
def team (f : Station → Station) : State :=
  (([0, 1, 5] : List (Fin 24)).foldl (fun s n => s.modStation n fun _ => f st0) tabled).modQueue 2 fun q => { q with
    jobs := [{ desc := 0x2300000000000000000000000000000001, ctx := 0, gen := 0, takenAt := 5, order := 7, prio := 1, nosnoop := false, phase := .running, stations := 0x23 }] }

/-- Masks: all by zero, all named, one station; and masks with a foreign station, without its own, and above bit 23. -/
theorem test_witness_BarrierAndFenceResults :
    (∀ row ∈ [(0, true), (0x23, true), (1, true), (0x63, false), (0x22, false), (0x1000001, false)],
      let x := wordOf 7 0x03 (sWord 0 3 3)
      let s := team fun t => { t with g := t.g.set 3 (BitVec.ofNat 64 row.1) }
      let t := s.station 0
      let all := s.jobStations t.queue t.order
      let v := t.rg (sRb x)
      let mask : BitVec 24 := if v = 0 then all else v.setWidth 24
      field x 51 46 = 0 ∧ field x 38 0 = 0 ∧ issuesNow s 0 { gs := [sRb x] } ∧ t.writesBefore t.issueSeq = true ∧
        ((v.toNat < 2 ^ 24 ∧ mask &&& ~~~all = 0 ∧ mask.getLsbD 0 = true) ↔ row.2 = true)) ∧
    (let s := team fun t => { t with issueSeq := 5, dmuQ := [{ word := 0, range := some ⟨.shm, 0, 1, .write⟩ }] }
     (s.station 0).writesBefore (s.station 0).issueSeq = false ∧ issuesNow s 0 { gs := [3] }) ∧
    (let s := (team id).modStation 0 fun t => { t with barWait := some ⟨3, 0x23, 0⟩ }
     let s := s.modStation 5 fun t => { t with barWait := some ⟨3, 0x21, 1⟩ }
     (s.station 0).waitsAt 2 7 = some ⟨3, 0x23, 0⟩ ∧ (s.station 5).waitsAt 2 7 = some ⟨3, 0x21, 1⟩ ∧
       s.arrived 2 7 3 = [(0, 0), (5, 1)] ∧ s.barBad 1 3 9 = [(0, 0), (1, 9), (5, 1)]) ∧
    (let s := team fun t => { t with barWait := some ⟨3, 0x23, 0⟩ }
     (s.job 2).isSome = true ∧ s.barComplete 2 7 3 = some 0x23 ∧ s.stationsOn = true) ∧
    (issuesNow base 0 {} ∧ (base.station 0).board = [] ∧ (base.station 0).dmuQ = [] ∧ (base.station 0).vecQ = [] ∧
      (base.station 0).qntQ = [] ∧ (base.station 0).arrQ = []) ∧
    issuesNow (onSt fun t => { t with board := [⟨.shm, 1, 2, .read⟩] }) 0 {} := by
  exact ⟨by decide, by decide, by decide, by decide, by decide, by decide⟩

/-- No epoch, three and four open; ECLOSE of the oldest, of none, and of a number above 16 bits, with work left and without. -/
theorem test_witness_EpochInstructions :
    (∀ row ∈ [(0, true), (3, true), (4, false)],
      let s := base.modCtx 0 fun c => { c with epochs := (List.range row.1).map (BitVec.ofNat 16) }
      let x := wordOf 9 0x01 (rWord 31 0 0 0 0)
      raOf x = 0 ∧ field x 41 0 = 0 ∧ issuesNow s 0 { gs := [rdOf x] } ∧ ((s.ctx 0).epochs.length < 4 ↔ row.2 = true)) ∧
    (let x := wordOf 9 0x03 (rWord 31 0 0 0 0)
     raOf x = 0 ∧ field x 41 0 = 0 ∧ issuesNow base 0 { gs := [rdOf x] } ∧ base.workEnded 0 = true) ∧
    (onSt fun t => { t with vecQ := [{ word := 0 }] }).workEnded 0 = false ∧
    (∀ row ∈ [(3, true), (4, true), (5, false), (0x10003, false)], ∀ cd ∈ [true, false],
      let x := setBit (wordOf 9 0x02 (rWord 0 3 0 0 0)) 41 cd
      let s := epochal.modStation 0 fun t => { t with g := t.g.set 3 (BitVec.ofNat 64 row.1) }
      let v := (s.station 0).rg (raOf x)
      rdOf x = 0 ∧ field x 40 0 = 0 ∧ issuesNow s 0 { gs := [raOf x] } ∧ s.workEnded 0 = true ∧
        ((v.toNat < 2 ^ 16 ∧ (v.setWidth 16 : BitVec 16) ∈ (s.ctx 0).epochs) ↔ row.2 = true)) := by
  exact ⟨by decide, by decide, by decide, by decide⟩

/-! ## Arrays: witnesses -/

/-- An array of job 7 that waits for a programmer. -/
def work (n : Fin 24) (a : Fin 32) : ProgWork :=
  { order := 7, queue := 2, ctx := 0, gen := 0, station := n, array := a, source := 0x1000, failLimit := 5 }

/-- Every programmer free and two arrays waiting; the last programmer free; none free; a forced Hold; an end with FAIL_LIMIT and
one more failed cells. -/
theorem test_witness_ArrayProgramming :
    (let s := sv.modMain fun m => { m with progWait := [work 0 1, work 1 3] }
     s.stationsOn = true ∧ s.main.pwr.forcing = false ∧ s.freeProg = some 0 ∧ s.nextWork = some (work 0 1)) ∧
    (let s := sv.modMain fun m => { m with progs := #v[some (work 0 1), some (work 0 2), some (work 0 3), none], progWait := [work 1 3] }
     s.freeProg = some 3 ∧ s.nextWork = some (work 1 3)) ∧
    (let s := sv.modMain fun m => { m with progs := Vector.replicate 4 (some (work 0 1)) }
     s.freeProg = none ∧ s.nextWork = none) ∧
    (sv.modPwr fun p => { p with force := true }).main.pwr.forcing = true ∧
    (let s := sv.modMain fun m => { m with progs := (Vector.replicate 4 none).set 3 (some { work 23 31 with programming := true }) }
     s.main.progs[(3 : Fin 4)] = some { work 23 31 with programming := true } ∧ s.serving = true ∧ (s.station 23).converts 31 = false ∧
       (5 : BitVec 18).toNat ≤ (work 23 31).failLimit.toNat ∧ ¬ (6 : BitVec 18).toNat ≤ (work 23 31).failLimit.toNat) ∧
    (let s := onSt fun t => { t with arrQ := [{ word := 0x1010000000000000, todo := 2 }] }
     (s.station 0).converts 1 = true) := by
  exact ⟨by decide, by decide, by decide, by decide, by decide, by decide⟩

/-- A Hold; a WRITTEN array; an UNWRITTEN one; a benchmark under way; a held write. -/
theorem test_witness_BenchmarkAndTables :
    (let s := sv.modPwr fun p => { p with state := .hold }
     s.serving = true ∧ s.main.pwr.state = .hold) ∧
    (let s := sv.modNv 23 31 fun a => { a with state := 1 }
     s.serving = true ∧ s.main.pwr.state ≠ .hold ∧ s.present 23 = true ∧ (s.arrayNv 23 31).state = 1 ∧ (s.station 23).benchBusy = false ∧
       (s.arrayNv 23 30).state ≠ 1) ∧
    (let s := onSt fun t => { t with benchBusy := true }
     s.main.pwr.state ≠ .hold ∧ s.main.pwr.switching = false ∧ (s.station 0).benchBusy = true ∧ (s.station 0).converting < 2 ∧
       nextConv (s.station 0).arrQ = none ∧ (s.station 0).arrayBusy (s.station 0).benchArray = false) ∧
    (let s := onSt fun t => { t with heldWrites := [⟨31, none, 6⟩] }
     ((s.station 0).heldWrites.find? fun w => !(s.station 0).arrayBusy w.array) = some ⟨31, none, 6⟩) := by
  exact ⟨by decide, by decide, by decide, by decide⟩

/-! ## Queues: witnesses -/

/-- Queue 15 as changed, in context 7, with rings of 16 entries. -/
def onQ (f : Queue → Queue) : State :=
  sv.modQueue 15 fun q => f { q with cfg := ⟨{ enable := true, ctx := 7, cqBase := 0x100000, sqBase := 0x200000 }, {}, none⟩ }

/-- A reset of a context that waits at step 4. -/
def run0 : ResetRun :=
  { time := 1, cause := 1, addr := 0x4000, en := false, sel := 0, stations := 0, pcs := Vector.replicate 24 0, table := ptab }

/-- The last legal tail and the first illegal one; a head that meets the write index, and one past it; each other case. -/
theorem test_witness_DoorbellResults :
    (let s := onQ fun q => { q with cqWrite := 5, cqHead := 3 }
     let v := s.rung
     let x := v.queue 15
     let c := x.cfg.active
     s.serving = true ∧ (v.ctx c.ctx).reset = none ∧ s.main.glb.outOfService = false ∧ c.enable = true ∧ x.cfg.pending = none ∧
       (15 : BitVec 32).toNat < ringSize c.sqLog2 ∧ ringSize c.sqLog2 ≤ (16 : BitVec 32).toNat ∧
       (5 + ringSize c.cqLog2 - x.cqHead.toNat) % ringSize c.cqLog2 ≤ x.used ∧
       x.used < (6 + ringSize c.cqLog2 - x.cqHead.toNat) % ringSize c.cqLog2) ∧
    (let s := onQ fun q => { q with cfg := { q.cfg with pending := some {} } }
     (s.rung.queue 15).cfg.pending ≠ none) ∧
    ((sv.rung.ctx 0).reset = none ∧ (sv.rung.queue 0).cfg.active.enable = false) ∧
    (let s := (onQ id).modCtx 7 fun c => { c with reset := some run0 }
     s.serving = true ∧ (s.rung.ctx 7).reset ≠ none) ∧
    (let s : State := { sv with phase := .bootPcie }
     s.serving = false ∧ s.running = true) := by
  exact ⟨by decide, by decide, by decide, by decide, by decide⟩

/-- A committed set with the ring empty, halted, with a job, a held record and an unread tail; a fetch. -/
theorem test_witness_QueueConfigurationAndFetches :
    (let s := onQ fun q => { q with cfg := { q.cfg with pending := some { ctx := 4 } }, sqHead := 15, sqTail := 15 }
     let x := s.queue 15
     s.serving = true ∧ x.cfg.pending = some { ctx := 4 } ∧ x.jobs = [] ∧ x.hold = [] ∧ x.sqHead = x.sqTail) ∧
    (let s := onQ fun q => { q with cfg := { q.cfg with pending := some { ctx := 4 } }, sqHead := 0, sqTail := 15, halted := true }
     (s.queue 15).halted = true ∧ (s.queue 15).jobs = []) ∧
    (let s := onQ fun q => { q with sqHead := 15, sqTail := 0 }
     (s.queue 15).halted = false ∧ (s.queue 15).sqHead ≠ (s.queue 15).sqTail ∧ s.mayTake 15 = true) := by
  exact ⟨by decide, by decide, by decide⟩

theorem test_witness_MarksWindowAndUnmasking :
    sv.serving = true ∧ sv.running = true ∧ sv.queuesIdle = true ∧ sv.chansBusy = false ∧
    (sv.modChan 15 fun c => { c with state := .running }).chansBusy = true ∧
    (onQ fun q => { q with sqHead := 15, sqTail := 0 }).queuesIdle = false := by
  exact ⟨by decide, by decide, by decide, by decide, by decide, by decide⟩

/-! ## Jobs: witnesses -/

/-- A descriptor with a command and bytes at offsets. -/
def jobDesc (cmd : Nat) (fields : List (Nat × Nat)) : BitVec 512 :=
  BitVec.ofNat 512 (fields.foldl (fun a p => a + p.2 * 2 ^ (8 * p.1)) cmd)

/-- The job of queue 2. -/
def job (phase : JobPhase) (cmd : Nat) (fields : List (Nat × Nat)) : Job :=
  { desc := jobDesc cmd fields, ctx := 0, gen := 0, takenAt := 5, order := 9, prio := 1, nosnoop := false, phase := phase }

/-- The device with one job on queue 2, NAND discovered (profile 0 with 4 codewords) and channel 3 owned. -/
def withJob (j : Job) : State :=
  (((tabled.modChan 3 fun c => { c with ownValid := true, ownCtx := 0 }).modNfc fun n =>
    { n with ready := true, present := 0xFF, ppb := 64, blocks := 1024, spare := 1024, luns := Vector.replicate 32 { blocks := 1024 },
             cfg := { n.cfg with active := { n.cfg.active with prof := n.cfg.active.prof.set 0 0x142F } } }).modQueue 2
      fun q => { q with cfg := ⟨{ enable := true, ctx := 0, cqBase := 0x100000, sqBase := 0x200000 }, {}, none⟩, jobs := [j] })

/-- A RUN_PROGRAM on the stations of a mask. -/
def runJob (phase : JobPhase) (mask : Nat) (more : List (Nat × Nat)) : Job :=
  job phase 1 ([(16, mask), (20, 1), (24, 0x40), (32, 5), (40, 6), (48, 7), (56, 0xFFFFFFFFFFFFFFFF)] ++ more)

/-- All 24 stations; an undefined command; a station that another job holds; a mark wait that does not hold; a FENCE. -/
theorem test_witness_JobStarts :
    (let j := runJob .taken 0xFFFFFF []
     let s := withJob j
     s.job 2 = some j ∧ s.mayStart = true ∧ j.phase = .taken ∧ j.doomed = false ∧ (s.queue 2).hold = [] ∧ j.cmd = 1 ∧ s.runBad j = none ∧
       j.headerBad = none ∧ s.admissible 2 j = true ∧ s.markOk j = true ∧
       ∀ n : Fin 24, j.stationMask.getLsbD n.val = true → s.mayHave 2 j n = true) ∧
    ((job .taken 0 []).headerBad = some 0) ∧
    (let j := runJob .taken 0x800001 []
     let s := (withJob j).modStation 23 fun t => { t with running := true, queue := 5, order := 3 }
     j.headerBad = none ∧ s.admissible 2 j = true ∧ s.markOk j = true ∧ s.runBad j = none ∧ j.stationMask.getLsbD 23 = true ∧
       s.mayHave 2 j 23 = false) ∧
    (let j := runJob .taken 1 [(4, 0x80 + 5), (8, 4)]
     let s := withJob j
     j.headerBad = none ∧ s.markOk j = false) ∧
    (let j := job .taken 5 []
     let s := withJob j
     j.headerBad = none ∧ s.admissible 2 j = true ∧ s.markOk j = true ∧ j.cmd ≠ 1) := by
  exact ⟨by decide, by decide, by decide, by decide, by decide⟩

/-- Station 23 alone; the payload without a station. -/
theorem test_witness_ProgramLaunch :
    (let j := runJob .started 0x800000 []
     let s := withJob j
     s.startedJob 2 1 j ∧ s.runBad j = none ∧ j.stationMask.getLsbD 23 = true ∧ j.stationMask.getLsbD 22 = false) ∧
    (let j := runJob .started 0 []
     let s := withJob j
     s.startedJob 2 1 j ∧ (s.runBad j).isSome = true) := by
  exact ⟨⟨⟨by decide, by decide, by decide, by decide, by decide⟩, by decide, by decide, by decide⟩,
    ⟨by decide, by decide, by decide, by decide, by decide⟩, by decide⟩

/-- Zero bytes of a descriptor, as a finite check. -/
theorem zeroBytes_of_all {j : Job} {lo hi : Nat} (h : ∀ i ∈ List.range hi, lo ≤ i → j.le i 1 = 0) : j.zeroBytes lo hi :=
  fun i a b => h i (List.mem_range.mpr b) a

/-- A FENCE with nothing before it and with an earlier job; ADD and SET of mark 63; a TIMESTAMP. -/
theorem test_witness_FenceMarkTimestampJobs :
    (let j := job .started 5 [(16, 1)]
     (withJob j).startedJob 2 5 j ∧ j.le 16 1 < 2 ∧ j.zeroBytes 17 64 ∧
       (¬ ∃ k, ∃ o ∈ ((withJob j).queue k).jobs, o.order < j.order) ∧
       ∃ k, ∃ o ∈ (((withJob j).modQueue 3 fun q => { q with jobs := [{ j with order := 2 }] }).queue k).jobs, o.order < j.order) ∧
    (∀ op ∈ [0, 1], let j := job .started 6 [(16, 63), (17, op), (24, 0xFFFFFFFFFFFFFFFF)]
      (withJob j).startedJob 2 6 j ∧ j.le 16 1 < 64 ∧ j.le 17 1 = op) ∧
    (let j := job .started 6 [(16, 63), (17, 1), (24, 0xFFFFFFFFFFFFFFFF)]
     j.zeroBytes 18 24 ∧ j.zeroBytes 32 64) ∧
    (let j := job .started 7 []
     (withJob j).startedJob 2 7 j ∧ j.zeroBytes 16 64) := by
  refine ⟨⟨⟨by decide, by decide, by decide, by decide, by decide⟩, by decide, zeroBytes_of_all (by decide), by decide, by decide⟩, ?_,
    ⟨zeroBytes_of_all (by decide), zeroBytes_of_all (by decide)⟩,
    ⟨by decide, by decide, by decide, by decide, by decide⟩, zeroBytes_of_all (by decide)⟩
  intro op h
  simp only [List.mem_cons, List.not_mem_nil, or_false] at h
  rcases h with rfl | rfl <;> exact ⟨⟨by decide, by decide, by decide, by decide, by decide⟩, by decide, by decide⟩

/-- LOAD_ARRAYS in both modes, SET_PARCELS of the last entry, a COPY of one channel, an ATTEST. -/
theorem test_witness_EngineJobsBegin :
    (let j := job .started 2 [(16, 0x4000), (24, 0x5), (28, 1), (30, 5)]
     let s := withJob j
     s.startedJob 2 2 j ∧ s.laBad j = none ∧ s.laRange j = none ∧ j.laMode = 0) ∧
    (let j := job .started 2 [(16, 0x4000), (24, 0x11), (28, 1), (29, 1)]
     let s := withJob j
     s.startedJob 2 2 j ∧ s.laBad j = none ∧ s.laRange j = none ∧ j.laMode = 1) ∧
    (let j := job .started 9 [(16, 31), (17, 1), (24, 0x4020)]
     let s := withJob j
     s.startedJob 2 9 j ∧ 1 ≤ j.spCount ∧ j.spFirst + j.spCount ≤ 32 ∧ j.zeroBytes 18 24 ∧ j.spSource % 32 = 0 ∧ j.zeroBytes 29 64 ∧
       s.rangeCheck (s.ctx j.ctx).table.active 0 j.spSource (32 * j.spCount) = none) ∧
    (let j := job .started 4 [(16, 0x4000), (24, 0x5000), (32, 100), (37, 3)]
     let s := withJob j
     s.startedJob 2 4 j ∧ s.copyBad j = none ∧ s.rangeCheck (s.ctx j.ctx).table.active 0 (j.le 16 5) (j.le 32 4) = none ∧
       s.rangeCheck (s.ctx j.ctx).table.active 1 (j.le 24 5) (j.le 32 4) = none) ∧
    (let j := job .started 8 [(48, 0x4040)]
     let s := withJob j
     s.startedJob 2 8 j ∧ j.le 48 5 % 64 = 0 ∧ j.zeroBytes 53 64 ∧ s.rangeCheck (s.ctx j.ctx).table.active 1 (j.le 48 5) 24896 = none) := by
  exact ⟨⟨⟨by decide, by decide, by decide, by decide, by decide⟩, by decide, by decide, by decide⟩,
    ⟨⟨by decide, by decide, by decide, by decide, by decide⟩, by decide, by decide, by decide⟩,
    ⟨⟨by decide, by decide, by decide, by decide, by decide⟩, by decide, by decide, zeroBytes_of_all (by decide), by decide,
      zeroBytes_of_all (by decide), by decide⟩,
    ⟨⟨by decide, by decide, by decide, by decide, by decide⟩, by decide, by decide, by decide⟩,
    ⟨⟨by decide, by decide, by decide, by decide, by decide⟩, by decide, zeroBytes_of_all (by decide), by decide⟩⟩

/-- Each operation of NAND_IO: a good payload; and a payload that is bad, and one whose range fails. -/
theorem test_witness_NandJobsBegin :
    (∀ row ∈ [(1, NandKind.read), (2, .program), (3, .erase), (4, .setFeatures), (5, .getFeatures), (6, .readParam), (7, .reset)],
      nandKindOf row.1 = some row.2) ∧
    (let j := job .started 3 [(16, 1), (20, 4), (24, 3), (28, 2), (32, 6), (36, 0x30), (40, 0x4000)]
     let s := withJob j
     s.startedJob 2 3 j ∧ nandKindOf (j.le 16 1) = some .read ∧ s.nandJobBad j = none ∧ s.nandRange j .read = none) ∧
    (let j := job .started 3 [(16, 1)]
     let s := withJob j
     s.startedJob 2 3 j ∧ (s.nandJobBad j).isSome = true) ∧
    (let j := job .started 3 [(16, 1), (20, 4), (24, 3), (28, 2), (32, 6), (36, 0x30), (40, 0x40)]
     let s := withJob j
     s.startedJob 2 3 j ∧ s.nandJobBad j = none ∧ (s.nandRange j .read).isSome = true) := by
  exact ⟨by decide, ⟨⟨by decide, by decide, by decide, by decide, by decide⟩, by decide, by decide, by decide⟩,
    ⟨⟨by decide, by decide, by decide, by decide, by decide⟩, by decide⟩,
    ⟨⟨by decide, by decide, by decide, by decide, by decide⟩, by decide, by decide⟩⟩

/-- An ended job without an epoch, with one, and with the closure buffer at 63 and at 64 entries; the last entry of a ring, a
ring with one free entry too few, records waiting, and D3hot. -/
theorem test_witness_JobsCompleteAndRecords :
    (let j := job .ended 1 [(2, 77), (5, 0x80 + 7)]
     let s := withJob j
     s.serving = true ∧ s.job 2 = some j ∧ j.phase = .ended ∧ j.doomed = false ∧ s.tablesHeld j = false ∧ (s.ctx j.ctx).epochs = []) ∧
    (∀ n ∈ [63, 64], let j := job .ended 1 []
     let s := (withJob j).modCtx 0 fun c => { c with epochs := [3, 4], held := List.replicate n ⟨3, .sig 63⟩ }
     (s.ctx j.ctx).epochs.getLast? = some 4 ∧ (s.ctx j.ctx).held.length = n ∧ s.tablesHeld j = false) ∧
    (let s := onQ fun q => { q with cqWrite := 15, cqHead := 1 }
     s.memWf = true ∧ (s.queue 15).hold = [] ∧ (s.queue 15).used + 1 < 16 ∧ s.main.pwr.d3hot = false ∧
       (s.queue 15).cqWrite.toNat + 1 = ringSize (s.queue 15).cfg.active.cqLog2) ∧
    (let s := onQ fun q => { q with cqWrite := 15, cqHead := 0 }
     ringSize (s.queue 15).cfg.active.cqLog2 ≤ (s.queue 15).used + 1) ∧
    (sv.modPwr fun p => { p with d3hot := true }).main.pwr.d3hot = true := by
  exact ⟨by decide, by decide, by decide, by decide, by decide⟩

/-- A completion that waits under epoch 4: open, with room and without; committed; discarded. -/
theorem test_witness_JobsCompleteAndRecords_waiting :
    let j := { job .ended 1 [(2, 77)] with endTag := some 4 }
    let s := fun (f : Ctx → Ctx) => (withJob j).modCtx 0 f
    (∀ n ∈ [63, 64], let t := s fun c => { c with epochs := [3, 4, 5], held := List.replicate n ⟨3, .sig 63⟩ }
      t.serving = true ∧ t.job 2 = some j ∧ j.doomed = false ∧ t.tablesHeld j = false ∧ (4 : BitVec 16) ∈ (t.ctx j.ctx).epochs ∧
        ((t.ctx j.ctx).held.length < 64 ↔ n = 63)) ∧
    ∀ committed ∈ [true, false], let t := s fun c => { c with epochs := [5], closed := [(3, true), (4, committed)] }
      t.job 2 = some j ∧ (4 : BitVec 16) ∉ (t.ctx j.ctx).epochs ∧ (t.ctx j.ctx).closed.find? (fun p => p.1 == 4) = some (4, committed) := by
  decide

/-! ## The block: witnesses -/

theorem test_witness_invariants : State.reset.memWf = true ∧ base.memWf = true ∧ State.reset.otpSafe = true ∧
    (sv.modIdk fun i => { i with burnBusy := true }).otpSafe = true ∧ State.reset.otp.pmkState = 0 ∧
    ({ State.reset with otp := { State.reset.otp with pmkState := 1 } } : State).otpSafe = true := by
  exact ⟨by decide, by decide, by decide, by decide, by decide, by decide⟩

/-- Before the main domain runs; in Run at each divider with a running station; in Trim. -/
theorem test_witness_IdleStepIsOneClock : State.reset.pending = [] ∧ State.reset.running = false ∧
    (∀ d ∈ [0, 1, 2, 3], let s := base.modPwr fun p => { p with effDiv := BitVec.ofNat 2 d }
      s.pending = [] ∧ s.running = true ∧ s.serving = true ∧ s.main.pwr.state = .run ∧ (s.station 0).running = true ∧
        (s.station 1).running = false ∧ s.main.pwr.effDiv = BitVec.ofNat 2 d) ∧
    (base.modPwr fun p => { p with state := .trim }).main.pwr.state ≠ .run ∧
    ({ sv with phase := .bootFw } : State).running = true ∧ ({ sv with phase := .bootFw } : State).serving = false ∧
    (sv.modPwr fun p => { p with state := .hold }).main.pwr.state = .hold ∧
    (∀ ch, base.readReady ch = false ∧ base.writeReady ch = false) ∧ base.main.lin.state = 0 ∧ (base.station 0).contends false = false ∧
    (st0.contends true = true) := by
  exact ⟨by decide, by decide, by decide, by decide, by decide, by decide, by decide, by decide, by decide, by decide, by decide⟩

/-- A 32-bit register; both halves of a 64-bit one; the last doubleword of a block without registers. -/
theorem test_witness_RegisterWrites :
    (0x040 % 4 = 0 ∧ 0x040 + 8 ≤ 2 ^ 24 ∧ sv.isWide (0x040 / 8 * 8) = false) ∧
    (0x050018 % 8 = 0 ∧ sv.isWide 0x050018 = true ∧ sv.isWide (0x05001C / 8 * 8) = true) ∧
    (0xFFFFF8 % 8 = 0 ∧ 0xFFFFF8 + 8 ≤ 2 ^ 24 ∧ 0xFFFFF8 / 0x10000 ∈ [0x04, 0x0E, 0x0F, 0x28, 0x3F, 0xFF]) ∧ sv.serving = true ∧
    ((8 ≤ 8 ∧ 0xFF8 < 0x1000) ∧ [some 1, none, some 2, some (3 : BitVec 8)].length = 4 ∧
      none ∈ [some 1, none, some 2, some (3 : BitVec 8)]) ∧ sv.running = true := by
  exact ⟨⟨by simp, by simp, by decide⟩, ⟨by simp, by decide, by decide⟩, ⟨by simp, by simp, by simp⟩, by decide, by decide, by decide⟩

theorem boot_len_is_no_snapshot (v : BitVec 64) : sv.reg 0x040 ≠ .rs v := by
  intro h
  have e : sv.reg 0x040 = .r32 0 := rfl
  simp [e] at h

/-- TCK_TIME, an RS register without a snapshot; a 32-bit register; the first and the last entry of the ring. -/
theorem test_witness_RegisterReads :
    (sv.reg 0x0D0000 = .rs 1000 ∧ sv.main.snapOf 0x0D0000 = none) ∧
    ((∀ v, sv.reg 0x040 ≠ .rs v) ∧ stnOf 0x040 = none) ∧
    (sv.serving = true ∧ inFieldBook 0x0B1000 = true ∧ inFieldBook 0x0B3FF8 = true ∧ 0x0B1000 % 16 = 0 ∧ 0x0B3FF8 % 16 = 8 ∧
      notedAt sv.main.fbLatches (0x0B3FF8 - 8) = none) := by
  exact ⟨⟨by rfl, by decide⟩, ⟨boot_len_is_no_snapshot, by decide⟩, by decide, by decide, by decide, by simp, by simp, by decide⟩

/-! ## Resets and boot: witnesses -/

/-- The phases that the reset commands ask for, and the dies with and without a write in flight. -/
theorem test_witness_ResetCommands :
    ((∀ l : Fin 32, (sv.lun l).writing = false) ∧ sv.running = true ∧ sv.flrWait = none ∧ sv.perstLow = false) ∧
    (let s := sv.modLun 31 fun l => { l with cur := some { op := { kind := .program, owner := .job 2 7, ctx := 0, gen := 0 } } }
     ∃ l : Fin 32, (s.lun l).writing = true) ∧
    ({ sv with flrWait := some goodBoot } : State).flrWait = some goodBoot ∧
    ({ sv with phase := .dormant } : State).phase = .dormant ∧
    sv.phase ≠ .borHeld ∧ sv.phase ≠ .strapWait ∧ sv.phase ∈ [Phase.bootPcie, .bootFw, .bootFailed, .serving, .pllNever, .pllLost] ∧
    State.reset.perstLow = false ∧ sv.aon.padHeld = true ∧ (sv.modAon fun a => { a with padHeld := false }).aon.padHeld = false ∧
    (sv.stationsOn = true ∧ (sv.modLink fun l => { l with binds := l.binds.set 7 { set := ⟨{ valid := true }, {}, none⟩ } }).bound 7 = { valid := true }) ∧
    (let c : InFlight := { op := { kind := .program, owner := .job 2 7, ctx := 0, gen := 0 }, ready := true }
     c.op.writes = true ∧ c.ready = true ∧ c.fail = false ∧ c.pair = none) := by
  exact ⟨by decide, ⟨31, by decide⟩, rfl, by decide, by decide, by decide, by decide, by decide, by decide, by decide, by decide, by decide⟩

/-- Good and bad rails and PLL, the third try, and each phase with its pins. -/
theorem test_witness_StartSequence :
    (goodBoot.vcoreOk = true ∧ goodBoot.vsramOk = true ∧ goodBoot.pllOk = true) ∧
    (({ goodBoot with vsramOk := false }).vcoreOk && ({ goodBoot with vsramOk := false } : BootInputs).vsramOk) = false ∧
    (State.reset.dftHigh = false ∧ State.reset.perstLow = false ∧ State.reset.phase = .strapWait ∧ State.reset.aon.supplyTries < 2) ∧
    (sv.modAon fun a => { a with supplyTries := 2 }).aon.supplyTries = 2 ∧
    ({ sv with phase := .inReset, perstLow := true } : State).dftHigh = false ∧
    ({ sv with phase := .dftHeld, perstLow := true, dftHigh := true } : State).phase = .dftHeld ∧ sv.running = true := by
  exact ⟨by decide, by decide, by decide, by decide, by decide, by decide, by decide⟩

/-- An image of 256 bytes: header, vendor key, 40 zero bytes, 64 bytes of code and data, signature. Key and signature were made by
hand outside the model, with a private key of the test's own. -/
def image : List Byte :=
  [0x47, 0x4C, 0x46, 0x57, 1, 0, 0, 0, 0, 1, 0, 0, 7, 0, 0, 0, 0, 0, 0, 0, 0, 0, 0, 0] ++
  toBytes (0x70baf7d12888902a6a0c1d67add103123c859ab69bf8e9431c9384930d4b7eeef9ebe464147cc102d92324d099d927c1a50e42d57a08a116ffec0a29819d8c65 : BitVec 512) 64 ++
  List.replicate 40 0 ++ (List.range 64).map (BitVec.ofNat 8) ++
  toBytes (0x0940204edc69bd9e37941e0a512e6d32320bd2da5ffd6702bc977439b03f64580e67e53c2b8d077c1f2d087e232d50f40ccc36de7f2591abb1a4617c404124cd : BitVec 512) 64

/-- A unit whose fuses hold the hash of that key. -/
def fused : State :=
  { sv with phase := .bootPcie, otp := { sv.otp with vendorHash := 0x2e6b5b0e65e25862b5cd1b1bd8bd101839638a9b7726e53317c7659aad0f3443 } }

theorem test_image_is_signed : image.length = 256 ∧ imageHeaderOk 256 image = true ∧ fused.imageSigned 256 image = true := by
  exact ⟨by decide +kernel, by decide +kernel, by decide +kernel⟩

theorem test_image_of_another_vendor : imageHeaderOk 256 image = true ∧ sv.imageSigned 256 image = false := by
  exact ⟨by decide +kernel, by decide +kernel⟩

/-- A parameter page: 8 KiB and 1,024 spare bytes a page, 64 pages a block. -/
def part : TargetParam := { badParam with main := 0, spare := 1024 }

/-- Each boot source, OTP with a hole, copies that fail, lengths at and beyond the limits of R39, and firmware that starts. -/
theorem test_witness_BootResults :
    (∀ k ∈ [0, 1, 2, 3], (sv.modAon fun a => { a with bootSel := BitVec.ofNat 2 k }).aon.bootSel = BitVec.ofNat 2 k) ∧
    (sv.otp.shmGroups ≠ 0 ∧ sv.otp.stationMap ≠ 0) ∧
    goodBoot.param = none ∧
    (∀ len ∈ [256, 0x100000], 256 ≤ len ∧ len ≤ 0x100000 ∧ len % 16 = 0) ∧
    (∀ len ∈ [255, 0x100010, 264], len < 256 ∨ 0x100000 < len ∨ len % 16 ≠ 0) ∧
    imageHeaderOk 256 (List.replicate 256 0) = false ∧
    ({ sv with phase := .bootPcie } : State).phase = .bootPcie ∧ sv.phase ≠ .bootPcie ∧ ({ sv with phase := .bootFw } : State).phase = .bootFw ∧
    (∀ i : Fin 16, targetParam (Vector.replicate 16 ({} : TargetReply))[i] = none) ∧
    (let ts := (Vector.replicate 16 ({} : TargetReply)).set 15 { answers := true, copies := [{ crc := false, param := part }, { param := part }] }
     targetParam ts[(15 : Fin 16)] = some part ∧ ∀ j : Fin 16, j < 15 → targetParam ts[j] = none) := by
  exact ⟨by decide, by decide, rfl, by simp, by simp, by decide, by decide, by decide, by decide, by decide, by decide⟩

/-- A unit whose NAND holds that image as copy 0, in page 1 of block 0 of LUN 0, with a profile 0 that does not randomise. The
cells are the inverted flash bytes. -/
def bootable : State :=
  let s := { fused with phase := .bootFw }.modNfc fun n => { n with cfg := { n.cfg with active := { n.cfg.active with prof := n.cfg.active.prof.set 0 0x02F } } }
  { s with nand := { stamp := 1, known := [(nandKey 0 1, nandKey 0 2)], cells :=
    ((((List.range 256).map fun i => (nandKey 0 1 + i, ~~~ image.getD i 0)).filter fun c => c.2 != 0) ++
      (List.range 8).map fun i => (nandKey 0 1 + 4096 + i, ~~~ (metaBytes 1 0 0 0).getD i 0)) } }

/-! ## Clocks, power and supply: witnesses -/

/-- 5 mV below and exactly at the minimum of divide-by-2 and of divide-by-8, with the device running. -/
theorem test_witness_DividerRequests : sv.running = true ∧
    (159 : BitVec 8).toNat < 160 ∧ 160 ≤ (160 : BitVec 8).toNat ∧ (109 : BitVec 8).toNat < 110 ∧ 110 ≤ (110 : BitVec 8).toNat := by
  decide

/-- A conversion under way. -/
def converting : State :=
  onSt fun t => { t with arrQ := [{ word := 0x1010000000000000, convs := [{ array := 0, ppset := 0, zp := 0, stamp := 9 }] }] }

/-- A pending switch with and without a conversion; VCORE 25 mV and 20 mV below the minimum of divide-by-8. -/
theorem test_witness_StationDivider :
    (let s := base.modPwr fun p => { p with switching := true }
     s.running = true ∧ s.main.pwr.switching = true ∧ ¬ ∃ n, ∃ i ∈ (s.station n).arrQ, i.convs ≠ []) ∧
    (∃ n, ∃ i ∈ (converting.station n).arrQ, i.convs ≠ []) ∧ base.main.pwr.switching = false ∧ base.main.pwr.effDiv = 3 ∧
    (105 : BitVec 8).toNat + 4 < 110 ∧ 110 ≤ (106 : BitVec 8).toNat + 4 := by
  exact ⟨by decide, by decide, by decide, by decide, by decide, by decide⟩

/-- A device without work in each power state, with each of the two reasons of a forced Hold, and with work. -/
theorem test_witness_PowerStates_idle :
    (sv.serving = true ∧ sv.main.pwr.state = .run ∧ sv.trimIdle = true ∧ sv.main.pwr.idleTrim ≠ 0 ∧ sv.holdIdle = true ∧
      sv.main.pwr.idleHold ≠ 0 ∧ sv.main.glb.outOfService = false) ∧
    base.trimIdle = false ∧ base.holdIdle = false ∧
    (sv.modPwr fun p => { p with state := .trim }).main.pwr.state ≠ .run ∧
    (let s := sv.modPwr fun p => { p with force := true }
     s.main.pwr.force = true ∧ s.main.pwr.d3hot = false ∧ s.main.pwr.state ≠ .hold ∧ s.main.resetOrder = [] ∧ s.workLeft = false ∧
       s.recordLeft = false) ∧
    (let s := (withJob (job .running 2 [])).modPwr fun p => { p with d3hot := true }
     s.main.pwr.d3hot = true ∧ s.main.resetOrder = [] ∧ s.workLeft = true) ∧
    (sv.modGlb fun g => { g with outOfService := true }).main.glb.outOfService = true := by
  exact ⟨by decide, by decide, by decide, by decide, by decide, by decide, by decide⟩

theorem test_witness_PowerStates_hold :
    (let j := job .started 2 []
     (withJob j).job 2 = some j ∧ j.doomed = false ∧ (withJob j).draining j = true ∧ j.cmd = 2) ∧
    (∀ row ∈ [(9, 16, 0xFFFFFFC0, false), (9, 24, 0xFFFFFFE0, false), (9, 24, 0x100000000, true), (8, 48, 0x100000000, true),
        (8, 48, 0x4000, false), (7, 48, 0x100000000, false)],
      let j := job .running row.1 [(row.2.1, row.2.2.1)]
      (withJob j).job 2 = some j ∧ (withJob j).draining j = row.2.2.2) ∧
    (sv.downAddr 0x0FFFFFFF = false ∧ inHostWindow 0x8000000000 = true) ∧
    (let j := runJob .running 1 []
     (withJob j).job 2 = some j ∧ j.phase = .running ∧ j.cmd = 1 ∧ j.faulted = false) ∧
    (∀ d3 ∈ [true, false], let s := sv.modPwr fun p => { p with state := .hold, force := true, d3hot := d3 }
      s.main.pwr.force = true ∧ s.main.pwr.d3hot = d3 ∧ s.main.pwr.state = .hold ∧ s.main.glb.outOfService = false) ∧
    (let s := sv.modPwr fun p => { p with state := .hold, idleDormant := 3 }
     s.main.pwr.state = .hold ∧ s.main.pwr.force = false ∧ s.main.pwr.d3hot = false ∧ s.dormantIdle = true ∧ s.main.pwr.idleDormant ≠ 0 ∧
       s.main.pwr.notice = false ∧ s.main.pwr.wakeCause = false) ∧
    (let s := sv.modPwr fun p => { p with state := .hold, idleDormant := 3, notice := true }
     s.main.pwr.notice = true ∧ s.dormantIdle = true ∧ s.main.pwr.wakeCause = false) ∧
    (let s := sv.modPwr fun p => { p with state := .hold, notice := true, wakeCause := true }
     s.main.pwr.notice = true ∧ s.main.pwr.wakeCause = true) ∧
    (sv.modPwr fun p => { p with d3hot := true }).main.pwr.force = false := by
  exact ⟨by decide, by decide, by decide, by decide, by decide, by decide, by decide, by decide, by decide⟩

/-- VSYS just below and at the warning level of the reset (3.0 V), at and above the recovery level; a charge that falls from above to
exactly the empty level, one above it, and one at it already. -/
theorem test_witness_SupplyResults :
    (let level := 2900 + 50 * sv.aon.vsysWarn.toNat
     sv.phase ≠ .strapWait ∧ sv.phase ≠ .borHeld ∧ sv.phase ≠ .dormant ∧ (2999 : BitVec 13).toNat < level ∧ level ≤ (3000 : BitVec 13).toNat ∧
       (3050 : BitVec 13).toNat ≤ level + 50 ∧ level + 50 < (3051 : BitVec 13).toNat) ∧
    (({ sv with phase := .inReset } : State).phase ≠ .strapWait ∧ State.reset.phase = .strapWait) ∧
    (sv.serving = true ∧ sv.aon.warn = false ∧ (sv.modAon fun a => { a with warn := true }).aon.warn = true ∧
      (sv.modAon fun a => { a with holdoff := true }).aon.holdoff = true ∧
      (sv.modPwr fun p => { p with effDiv := 2 }).main.pwr.effDiv ≠ sv.main.pwr.div) ∧
    (let x : Supply := { en := true, charge := 100, emptyLevel := 50 }
     (sv.modSup fun _ => x).main.sup = x ∧ x.en = true ∧ x.emptyLevel.toInt < x.charge.toInt ∧
       (x.charge - BitVec.ofInt 64 50).toInt ≤ x.emptyLevel.toInt ∧ ¬ (x.charge - BitVec.ofInt 64 49).toInt ≤ x.emptyLevel.toInt) ∧
    (let x : Supply := { charge := 50, emptyLevel := 50 }
     x.en = false ∧ x.charge.toInt ≤ x.emptyLevel.toInt ∧ x.emptyLevel.toInt < (51 : BitVec 64).toInt) := by
  exact ⟨by decide, by decide, by decide, by decide, by decide⟩

/-- No flush, a flush, a flush with one more pending; a slot without entries. -/
theorem test_witness_FieldBookResults :
    let f : Flush := { slot := 15, seq := 5, bytes := [1, 2, 3] }
    sv.serving = true ∧ sv.aon.flushing = none ∧ sv.aon.seq = 0 ∧
    (let s := sv.modAon fun a => { a with flushing := some f }
     s.aon.flushing = some f ∧ s.aon.flushPend = none) ∧
    (sv.modAon fun a => { a with flushing := some f, flushPend := some 0x0FE }).aon.flushPend = some 0x0FE ∧
    ([] : List (BitVec 128)).length ≤ 128 := by
  exact ⟨by decide, by decide, by decide, by decide, by decide, by decide⟩

/-! ## Identity and the management port: witnesses -/

/-- A blank unit with an active key; one whose burn is under way; one with a hash written; the engine with work waiting, and at a
verify request that stands at the start of shared memory. The good signature is that of test_image_is_signed. -/
theorem test_witness_IdentityResults :
    (let s := sv.modIdk fun i => { i with pmkKey := ⟨5, 5, none⟩ }
     s.serving = true ∧ s.otp.pmkState = 0 ∧ s.main.idk.pmkKey.active ≠ 0 ∧ s.main.idk.burnBusy = false) ∧
    (sv.main.idk.pmkKey.active = 0 ∧ (0x5A5B : BitVec 32) ≠ 0x5A5A) ∧
    (sv.modIdk fun i => { i with burnBusy := true, burnHash := 9 }).main.idk.burnBusy = true ∧
    ({ sv with otp := { sv.otp with pmkState := 1 } } : State).otp.pmkState ≠ 0 ∧
    (sv.main.idk.vfyBusy = false ∧ (sv.modIdk fun i => { i with vfyBusy := true }).main.idk.vfyBusy = true) ∧
    (let s := (withJob (job .running 8 [])).modIdk fun i => { i with sigQueue := [.attest 2 9, .verify 0x4000 5 true] }
     s.main.idk.sigBusy = none ∧ s.main.idk.sigQueue = .attest 2 9 :: [.verify 0x4000 5 true] ∧ (s.jobOrder 2 9).isSome = true) ∧
    (let s := (sv.modIdk fun i => { i with sigBusy := some (.verify 0 5 true) }).modShm fun m =>
        { m with mem := { stamp := 4, known := [(0, 256)], cells := [(1, 1), (8, 64)] } }
     s.memWf = true ∧ s.place 0 128 = some (.shm 0) ∧ leAt (s.main.shm.mem.readBytes 0 128) 0 5 = 256 ∧
       leAt (s.main.shm.mem.readBytes 0 128) 8 4 = 64 ∧ s.place 256 64 = some (.shm 256)) := by
  exact ⟨by decide, by decide, by decide, by decide, by decide, by decide, by decide⟩

theorem test_witness_ManagementPort :
    (sv.aon.mgtBus = 0x48 ∧ (0x49 : BitVec 7) ≠ sv.aon.mgtBus) ∧
    State.reset.phase = .strapWait ∧ (sv.phase ≠ .strapWait ∧ sv.phase ≠ .dormant) ∧
    ({ sv with phase := .bootFw } : State).serving = false ∧
    (let s := sv.modAon fun a => { a with mgmt := { a.mgmt with captures := [(8, [1, 2, 3, 4])] } }
     s.aon.mgmt.captures.find? (fun p => p.1 == 8) = some (8, [1, 2, 3, 4])) ∧
    (sv.serving = true ∧ sv.main.glb.outOfService = false) ∧
    (let s := sv.modPwr fun p => { p with state := .hold, force := true, d3hot := true }
     s.main.pwr.force = true ∧ s.main.pwr.d3hot = true ∧ s.main.pwr.state ≠ .run) := by
  exact ⟨by decide, by decide, by decide, by decide, by decide, by decide, by decide⟩

/-! ## Serial ports: witnesses -/

/-- The device with its pads released and both UARTs as changed. -/
def onUart (f : Uart → Uart) : State := ((sv.modUart 0 f).modUart 1 f).modAon fun a => { a with padHeld := false, padZ := false }

/-- A set with transmitter and receiver on. -/
def onSet : SerCfg := { txen := true, rxen := true, dbits := 1, parity := 1 }

/-- A start bit with just enough high samples before it, one disagreeing sample; a bit that reads high by two samples. -/
theorem test_witness_ReceivedCharacters : (16 ≤ ({ high := 16, samples := ⟨true, false, false⟩ } : StartBit).high ∧
      ¬ 2 ≤ [true, false, false].count true ∧ 2 ≤ [true, false, true].count true) ∧
    ∀ full ∈ [true, false], ∀ u ∈ [(0 : Fin 2), 1],
    let s := onUart fun x => { x with cfg := ⟨onSet, onSet, none⟩, rxFull := full }
    s.serving = true ∧ s.main.pwr.state ≠ .hold ∧ s.aon.padHeld = false ∧ s.frameMode u = false ∧
      (s.main.uarts[u]).cfg.active.rxen = true ∧ (s.main.uarts[u]).rxFull = full := by decide

/-- UART 1 in frame mode; transmitter off, ready and full; a pending set; pads held. -/
theorem test_witness_SerialPorts :
    (onUart fun x => { x with cfg := ⟨{ onSet with linEn := true }, onSet, none⟩ }).frameMode 1 = true ∧
    (let x := (onUart id).main.uarts[(1 : Fin 2)]
     (onUart id).frameMode 1 = false ∧ x.cfg.active.txen = false ∧ x.cfg.active.rxen = false ∧ x.cfg.pending = none) ∧
    (let x := (onUart fun x => { x with cfg := ⟨onSet, onSet, none⟩ }).main.uarts[(1 : Fin 2)]
     x.cfg.active.txen = true ∧ x.txHold = none) ∧
    (let x := (onUart fun x => { x with cfg := ⟨onSet, onSet, none⟩, txHold := some 5 }).main.uarts[(1 : Fin 2)]
     x.cfg.active.txen = true ∧ x.txHold ≠ none) ∧
    (let s := onUart fun x => { x with cfg := ⟨onSet, onSet, some { onSet with divisor := 99 }⟩ }
     (s.main.uarts[(1 : Fin 2)]).cfg.pending = some { onSet with divisor := 99 } ∧ (s.main.uarts[(1 : Fin 2)]).txShift = none ∧
       s.main.lin.state = 0) ∧
    ((onUart fun x => { x with txShift := some [false] }).main.uarts[(1 : Fin 2)]).txShift ≠ none ∧ sv.aon.padHeld = true ∧
    (let x := (onUart fun x => { x with cfg := ⟨onSet, onSet, none⟩ }).main.uarts[(1 : Fin 2)]
     x.cfg.active.rxen = true ∧ 2 ≤ [true, false, true].count true ∧ ¬ (true = false ∧ false = true) ∧ (15 : Nat) < 16) := by
  exact ⟨by decide, by decide, by decide, by decide, by decide, by decide, by decide, by decide⟩

/-- SER1 in frame mode with 1000 as divisor, identifier 5 published by a commander (3 bytes) and 6 subscribed (8 bytes). -/
def onLin (role adapt : Bool) (f : Lin → Lin) : State :=
  (onUart fun x => { x with cfg := ⟨{ onSet with linEn := true, linRole := role, linAdapt := adapt, divisor := 1000 }, onSet, none⟩ }).modLin
    fun l => f { l with tab := (l.tab.set 5 (0x10 + 3)).set 6 (0x20 + 8) }

theorem test_witness_LinFrames_headers :
    (∀ n ∈ [0, 1, 4, 5, 6], let s := onLin true false fun l => { l with state := BitVec.ofNat 4 n }
      s.serving = true ∧ s.lin.linEn = true ∧ s.lin.linRole = true ∧ s.main.pwr.state ≠ .hold ∧
        s.main.uarts[(1 : Fin 2)].cfg.pending = none ∧ s.linOn = true ∧ s.main.lin.state.toNat = n) ∧
    (let s := onLin false true fun l => { l with state := 1 }
     s.lin.linRole = false ∧ s.lin.linAdapt = true ∧ s.main.uarts[(1 : Fin 2)].cfg.pending = none ∧ s.main.lin.inFrame = true ∧
       100 * (2 * (570 : BitVec 24).toNat) ≤ 114 * s.lin.divisor.toNat ∧ 114 * s.lin.divisor.toNat < 100 * (2 * (571 : BitVec 24).toNat) ∧
       86 * s.lin.divisor.toNat ≤ 100 * (2 * (430 : BitVec 24).toNat) ∧ 100 * (2 * (429 : BitVec 24).toNat) < 86 * s.lin.divisor.toNat) ∧
    ((pidOf 5) = pidOf ((pidOf 5).setWidth 6) ∧ (0x05 : BitVec 8) ≠ pidOf ((0x05 : BitVec 8).setWidth 6)) ∧
    (let l := (onLin true false id).main.lin
     let k := fun (id : BitVec 6) => { l with id := id, pidByte := pidOf id }
     (k 5).dir = 1 ∧ (k 6).dir = 2 ∧ (k 7).dir = 0) := by
  exact ⟨by decide, by decide, by decide, by decide⟩

theorem test_witness_LinFrames_responses :
    (let l := (onLin true false fun l => { l with state := 5, id := 5, pidByte := pidOf 5 }).main.lin
     l.state = 5 ∧ l.dir = 1) ∧
    (let l := (onLin false false fun l => { l with state := 5, id := 6, pidByte := pidOf 6 }).main.lin
     l.state = 5 ∧ l.dir = 2 ∧ (List.replicate 8 (0 : Byte)).length = l.len ∧ l.len ≤ 8 ∧ ({ received := 0 } : PartResponse).received.val ≤ l.len ∧ ({ received := 8 } : PartResponse).received.val ≤ l.len ∧
       linChecksum l.id (bit (l.tab.getD l.id.toNat 8) 6) l.pidByte (List.replicate 8 0) ≠ 0) := by
  exact ⟨by decide, by decide⟩

/-! ## The traverse engine: witnesses -/

/-- A channel descriptor of 32 bytes. -/
def chanDesc (kind flags mark src dst len next : Nat) : BitVec 256 :=
  BitVec.ofNat 256 (kind + flags * 8 + mark * 2 ^ 8 + src * 2 ^ 16 + dst * 2 ^ 64 + len * 2 ^ 128 + next * 2 ^ 192)

/-- Channel 15 as changed, owned by context 0. -/
def onChan (f : Chan → Chan) : State := base.modChan 15 fun c => f { c with ownValid := true, ownCtx := 0, head := 0x4040 }

/-- A linear move of 100 bytes, of which some were written. -/
def move (raw : BitVec 256) (moved : Nat) (finished : Bool) : Active :=
  { raw := raw, kind := 0, last := dLast raw, src := 0x5000, dst := 0x4000, rowLen := 100, rOff := moved, off := moved, written := moved,
    done := finished }

/-- A channel that is idle, halted, triggered, held, armed, running, drained, cancelling, owned by a program. -/
theorem test_witness_ChannelControl_states :
    (let x := (onChan id).chan 15
     (onChan id).serving = true ∧ x.ownValid = true ∧ x.startHeld = none ∧ x.state = .idle ∧ x.trig = 0 ∧ x.pendKick = none ∧
       x.classify = none ∧ (onChan id).main.pwr.force = false ∧ (onChan id).main.pwr.d3hot = false ∧ (sv.chan 15).ownValid = false) ∧
    ((onChan fun c => { c with state := .halted, trig := 1 }).chan 15).trig ≠ 0 ∧
    ((onChan fun c => { c with state := .armed }).chan 15).state = .armed ∧
    ((onChan fun c => { c with startHeld := some 5 }).chan 15).startHeld ≠ none ∧
    (let s := onChan fun c => { c with state := .running, pause := true }
     s.chanDrained 15 = true ∧ (s.chan 15).cancelling = false ∧ (s.chan 15).pause = true ∧ (s.chan 15).state = .running ∧
       (s.chan 15).starter = .driver) ∧
    (onChan fun c => { c with state := .running, cancelling := true }).chanDrained 15 = true := by
  exact ⟨by decide, by decide, by decide, by decide, by decide, by decide⟩

/-- A channel with a READ under way; a chain of a COPY; a tick waited for with one pending; the counter at 14 and at 15; a generator
that is due, one that is early, and one that is off. -/
theorem test_witness_ChannelControl_ticks :
    (onChan fun c => { c with state := .running, cur := some { move 0 0 false with tag := some 5 } }).chanDrained 15 = false ∧
    ((onChan fun c => { c with state := .running, starter := .copy 2 }).chan 15).starter ≠ .driver ∧
    (let x := (onChan fun c => { c with state := .running, pendCount := 0, cur := some { move 0 0 false with needTick := true } }).chan 15
     (x.cur.all fun a => !a.needTick || x.pendCount == 0) = true) ∧
    (∀ n ∈ [14, 15], let x := (onChan fun c => { c with state := .armed, trig := 1, tsel := 3, pendCount := BitVec.ofNat 4 n }).chan 15
      x.trig = 1 ∧ x.tsel = 3 ∧ x.state = .armed ∧ x.cur = none ∧ x.pendCount = BitVec.ofNat 4 n) ∧
    (let g3 : TickGen := { en := true, period := ⟨990, 7, some 9⟩, phase := ⟨10, 3, some 2⟩ }
     let g2 : TickGen := { en := true, period := ⟨990, 7, none⟩, phase := ⟨9, 3, none⟩ }
     let s := sv.modMain fun m => { m with gens := ((Vector.replicate 4 {}).set 3 g3).set 2 g2 }
     let due := fun (g : Fin 4) => let y := s.main.gens[g]
       y.en = true ∧ y.ticked ≠ some s.time ∧ y.phase.active.toNat ≤ s.time.toNat ∧ (s.time.toNat - y.phase.active.toNat) % y.period.active.toNat = 0
     due 3 ∧ (s.time.toNat - 9) % 990 ≠ 0 ∧ (s.main.gens[(0 : Fin 4)]).en = false) := by
  exact ⟨by decide, by decide, by decide, by decide, by decide⟩

/-- Two channels of one priority and one of another, one of them granted last. -/
theorem test_witness_ChannelControl_grants :
    let sd : Side := { last := some 7, run := 15 }
    let prio : ChanNo → BitVec 2 := fun c => if c = 3 then 0 else 2
    sd.pick prio [3, 7, 9] = some 7 ∧ { sd with run := 16 }.pick prio [3, 7, 9] = some 9 ∧ sd.pick prio [3] = some 3 := by decide

/-- A fetch whose beats are granted, from shared memory and from an absent place; a descriptor that is bad, out of bounds, good; a read
that has returned; a stale generation; a write to shared memory. -/
theorem test_witness_ChannelWork_fetches :
    (∀ row ∈ [(0x4000, true), (0x300000000, false)],
      let s := onChan fun c => { c with state := .running, wantFetch := true, fetchBeats := 2, descAddr := BitVec.ofNat 40 row.1 }
      let x := s.chan 15
      s.serving = true ∧ x.classify = none ∧ x.state = .running ∧ x.wantFetch = true ∧ 2 ≤ x.fetchBeats ∧
        (s.place x.descAddr.toNat 32).isSome = row.2) ∧
    (let t := onChan fun c => { c with state := .running }
     (t.descBad 15 (chanDesc 7 0 0 0 0 0 0) {}).isSome = true ∧
     t.descBad 15 (chanDesc 0 1 0 0x10000040 0x10000800 100 0) {} = none ∧
     (t.descBound 15 (t.chan 15).starter.station (chanDesc 0 1 0 0x10000040 0x10000800 0xFFFFFF0 0) {}).isSome = true) ∧
    (∀ row ∈ [(0x5000, true), (0x300000000, false)],
      let r : TrvRead := { addr := row.1, len := 16 }
      let a := { move 0 0 false with reads := [r], rOff := 16, got := List.replicate 48 0 }
      let s := onChan fun c => { c with state := .running, cur := some a }
      (s.chan 15).cur = some a ∧ a.reads = r :: [] ∧ r.dead = false ∧ a.srcPeer = none ∧ (s.chan 15).state = .running ∧
        a.got.length + r.len ≤ 64 ∧ (s.place r.addr r.len).isSome = row.2 ∧ (s.ctx (s.chan 15).ownCtx).gen = 0) ∧
    (let a := { move 0 16 false with out := [1, 2, 3], rOff := 19 }
     base.memWf = true ∧ a.dstPeer = none ∧ a.out ≠ [] ∧ base.place a.dstNext a.out.length = some (.shm 0x4010)) ∧
    (let r : TrvRead := { addr := 0x5000, len := 16 }
     let a := { move 0 0 false with reads := [r], rOff := 16 }
     let s := onChan fun c => { c with state := .running, cur := some a }
     (s.readDue 15).isSome = true ∧ s.until (fun v => (v.readDue 15).isSome) = s ∧ (1 : BitVec 8) ≠ (s.ctx (s.chan 15).ownCtx).gen) := by
  exact ⟨by decide, by decide, by decide, by decide, by decide, rfl, by decide⟩

/-- An access of each kind that fails, with tries left and with none. -/
theorem test_witness_ChannelWork_accesses :
    (∀ n ∈ [2, 3],
      let s := onChan fun c => { c with retries := n, state := .running, wantFetch := true, fetchBeats := 2, descAddr := 0x300000000 }
      let x := s.chan 15
      x.classify = none ∧ x.retries = n ∧ s.main.trvRetry.toNat = 3 ∧
        (s.access 15).any (fun c => c.code == 2 && s.accessFails c) = true) ∧
    (∀ row ∈ [(0, 2, false), (0, 3, false), (3, 2, true), (3, 3, true)],
      let r : TrvRead := { addr := 0x300000000, len := 16, index := row.2.2 }
      let a := { move 0 0 false with kind := if row.2.2 then 2 else 0, reads := [r] }
      let s := onChan fun c => { c with retries := row.2.1, state := .running, cur := some a }
      let x := s.chan 15
      x.classify = none ∧ x.retries = row.2.1 ∧ x.cur = some a ∧ a.reads = r :: [] ∧
        (s.access 15).any (fun c => c.code == row.1 && s.accessFails c) = true) ∧
    (∀ n ∈ [2, 3],
      let a := { move 0 0 false with dst := 0x300000000, rOff := 16, out := List.replicate 16 7 }
      let s := onChan fun c => { c with wrRetries := n, state := .running, cur := some a }
      (s.chan 15).wrRetries = n ∧ (s.access 15).any (fun c => c.code == 1 && s.accessFails c) = true) ∧
    (let r : TrvRead := { addr := 0x300000000, len := 16, dead := true }
     let a := { move 0 16 false with reads := [r] }
     let s := onChan fun c => { c with state := .running, cur := some a }
     (s.chan 15).cur = some a ∧ a.got = [] ∧ a.out = [] ∧ (s.chan 15).wantFetch = false ∧ a.done = false ∧ a.kind ≠ 4) := by
  exact ⟨by decide, by decide, by decide, by decide⟩

/-- A descriptor that ended with and without a successor, at the chain limit and below it; one that ended while a cancel is under way;
a kick of the owner and of another context. -/
theorem test_witness_ChannelWork_ends :
    (∀ a ∈ [move (chanDesc 0 5 63 0 0 0 0) 0 true, move (chanDesc 0 0 0 0 0 0 0x4020) 0 true],
      let s := onChan fun c => { c with state := .running, cur := some a }
      (s.chan 15).cur = some a ∧ (s.chan 15).state = .running ∧ (s.chan 15).cancelling = false ∧ a.done = true ∧ (s.chan 15).spec = none) ∧
    (let a := move (chanDesc 0 5 63 0 0 0 0) 0 true
     let s := onChan fun c => { c with state := .running, cancelling := true, cur := some a }
     s.until (fun v => (v.chan 15).cur.all Active.done) = s ∧ (s.chan 15).cur = some a ∧ (s.chan 15).cancelling = true) ∧
    (dSig (chanDesc 0 5 63 0 0 0 0) = true ∧ dIrq (chanDesc 0 5 63 0 0 0 0) = false ∧ (move (chanDesc 0 5 63 0 0 0 0) 0 true).last = true) ∧
    (dSig (chanDesc 0 0 0 0 0 0 0) = false ∧ (move (chanDesc 0 0 0 0 0 0 0x4020) 0 true).last = false) ∧
    ((4095 : BitVec 21).toNat < sv.main.chainLimit.toNat ∧ sv.main.chainLimit.toNat ≤ (4096 : BitVec 21).toNat) ∧
    (∀ own ∈ [(0 : Fin 8), 7],
      let s := (onChan fun c => { c with ownCtx := own }).modStation 0 fun t => { t with kicks := [{ ch := 15, head := 0x4040 }] }
      (s.station 0).kicks = { ch := 15, head := 0x4040 } :: [] ∧ (s.chan 15).pendKick = none ∧ (s.chan 15).classify = none ∧
        (s.station 0).writesBefore 0 = true ∧ (s.chan 15).ownValid = true) ∧
    ((onChan id).chan 15).ownCtx = (base.station 0).ctx ∧
    (let s := base.modStation 0 fun t => { t with
       issueSeq := 5, kicks := [{ ch := 15, head := 0x4040, seq := 5 }], dmuQ := [{ word := 0, range := some ⟨.shm, 0, 1, .write⟩ }] }
     (s.station 0).writesBefore 5 = false) := by
  exact ⟨by decide, ⟨rfl, by decide, by decide⟩, by decide, by decide, by decide, by decide, by decide, by decide⟩

/-! ## NAND: witnesses -/

/-- An operation of job 9 on page 3 of a block. -/
def nandOp (kind : NandKind) (block : Nat) (overtaken : Nat := 0) : NandOp :=
  { kind := kind, owner := .job 2 9, ctx := 0, gen := 0, block := block, page := 3, mem := 0x4000, overtaken := overtaken }

/-- LUN 0 as changed, with eight LUNs present. -/
def onLun (f : Lun → Lun) : State :=
  (sv.modNfc fun n => { n with ready := true, present := 0xFF, ppb := 64, blocks := 1024, spare := 160, pageBits := 6, luns := Vector.replicate 32 { blocks := 1024 } }).modLun
    0 f

/-- No LUN 8; an empty queue; a write of block 0 and of block 1; a read; a reset that waits, and one that the mate's write holds up. -/
theorem test_witness_NandOperations_starts :
    (let s := onLun id
     s.serving = true ∧ s.nandMayStart = true ∧ s.lunPresent 7 = true ∧ s.lunPresent 8 = false ∧ (s.lun 0).resetPend = false ∧ (s.lun 0).cur = none ∧
       s.busCommand 0 = none ∧ s.main.nfc.bootWrite = false) ∧
    sv.nandMayStart = false ∧
    (∀ o ∈ [nandOp .program 0, nandOp .erase 1, nandOp .read 0, nandOp .setFeatures 0],
      (onLun fun l => { l with queue := [o] }).busCommand 0 = some (0, o) ∧ o.kind ≠ .reset ∧ o.owner ≠ .ctrl) ∧
    ((onLun fun l => { l with resetPend := true }).busCommand 0).any (fun x => x.1 == 0 && x.2.kind == .reset) = true ∧
    ((onLun fun l => { l with setup := true }).busCommand 0).any (fun x => x.1 == 0 && x.2.kind == .setFeatures && x.2.owner == .ctrl) = true ∧
    (let a := { nandOp .read 2 with mp := true }
     let b := { nandOp .read 3 with mp := true }
     pairOf [b] a = some b) ∧
    (let c : InFlight := { op := nandOp .read 3 }
     let s := (onLun id).modLun 4 fun l => { l with cur := some c }
     (s.lun (lunMate 0)).cur = some c ∧ c.ignored = false ∧ c.decodedAll s.main.nfc = false) ∧
    (∀ o ∈ [nandOp .program 0, nandOp .erase 1, nandOp .read 0], pickOp [o] = some o ∧ o.kind ≠ .reset) ∧
    ((nandOp .program 0).writes = true ∧ (nandOp .read 0).writes = false) ∧
    (let s := onLun fun l => { l with resetPend := true }
     (s.lun 0).resetPend = true ∧ (s.lun (lunMate 0)).writing = false ∧ (s.lun 0).cur.all InFlight.ignored = true) ∧
    (let s := (onLun fun l => { l with resetPend := true }).modLun 4 fun l => { l with cur := some { op := nandOp .erase 3 } }
     (s.lun (lunMate 0)).writing = true) ∧
    ((63 : Nat) < 64 ∧ (64 : Nat) ≤ (nandOp .erase 3 64).overtaken ∧ (nandOp .read 4).spec = none ∧ (nandOp .read 4).block ≠ (nandOp .erase 3).block) := by
  exact ⟨by decide, by decide, by decide, by decide, by decide, by decide, by decide, by decide, by decide, by decide, by decide, by decide⟩

/-- A codeword whose flash bytes are all 0xFF counts as erased. -/
theorem blank_is_erased (s : State) (u row k p lo hi : Nat) (h : s.nand = { stamp := 1, known := [(lo, hi)] })
    (hl : lo ≤ nandKey u row + k * profWords (s.main.nfc.prof p))
    (hh : nandKey u row + k * profWords (s.main.nfc.prof p) + profWords (s.main.nfc.prof p) ≤ hi) : s.cwErased u row k p = true := by
  have zero : ∀ n acc, (List.replicate n (0 : Byte)).foldl (fun a b => a + popCount b) acc = acc := by
    intro n
    induction n with
    | zero => intro acc; rfl
    | succ n ih =>
      intro acc
      have z : popCount (0 : Byte) = 0 := by decide
      rw [List.replicate_succ, List.foldl_cons, z]
      exact ih acc
  have bytes : ∀ a n, lo ≤ a → a + n ≤ hi → s.nand.readBytes a n = List.replicate n 0 := by
    intro a n ha hn
    rw [h, Memory.readBytes, List.eq_replicate_iff]
    refine ⟨by simp, fun b hb => ?_⟩
    obtain ⟨i, hi', rfl⟩ := List.mem_map.mp hb
    have := List.mem_range.mp hi'
    have c : covers [(lo, hi)] (a + i) = true := by simp [covers]; omega
    simp [Memory.read, c]
  simp only [State.cwErased]
  rw [bytes _ _ hl hh, zero]
  simp

/-- A codeword of a profile without randomising whose metadata columns are as expected. -/
theorem metadata_match (s : State) (u row k p : Nat) (hp : profRand (s.main.nfc.prof p) = false)
    (h : (List.range' 4096 8).map (fun i => ~~~ s.nand.read (nandKey u row + k * profWords (s.main.nfc.prof p) + i)) = metaBytes row u k p) :
    s.metaOk u row k p = true := by
  simp only [State.metaOk, State.codeword, keystream, hp, xorBytes, State.flash, Memory.readBytes, zeros]
  rw [List.drop_zipWith]
  simp only [Bool.false_eq_true, if_false, List.drop_replicate, List.map_map, ← List.map_drop, List.range_eq_range', List.drop_range', beq_iff_eq]
  rw [← h]
  simp only [List.range'_eq_map_range, List.map_map]
  apply List.ext_getElem
  · simp
  · intro i h1 h2
    have hi : i < 8 := by simpa using h2
    simp
    interval_cases i <;> rfl

/-- A codeword with more zeros in its first bytes than ERASED_MAX does not count as erased. -/
theorem not_erased (s : State) (u row k p n : Nat)
    (h : field s.main.nfc.cfg.active.ladder 23 16 <
      (((s.nand.readBytes (nandKey u row + k * profWords (s.main.nfc.prof p)) (profWords (s.main.nfc.prof p))).take n).foldl
        (fun a b => a + popCount b) 0)) : s.cwErased u row k p = false := by
  have mono : ∀ (l : List Byte) (acc : Nat), acc ≤ l.foldl (fun a b => a + popCount b) acc := by
    intro l
    induction l with
    | nil => intro acc; exact Nat.le_refl _
    | cons x l ih => intro acc; exact Nat.le_trans (Nat.le_add_right _ _) (ih _)
  simp only [State.cwErased, decide_eq_false_iff_not, Nat.not_le]
  refine Nat.lt_of_lt_of_le h ?_
  conv => rhs; rw [← List.take_append_drop n (s.nand.readBytes _ _), List.foldl_append]
  exact mono _ _

/-- A copy whose first codeword begins with the image of the tests is that image. -/
theorem copy_of_word (s : State) (c : Nat) (r : CopyRead) (h : List Byte) (hw : s.copyWord c r 0 = .ok h) (ht : h.take 256 = image)
    (fit : 256 ≤ s.main.nfc.copyPages * profCpp (s.main.nfc.prof 0) * 4096) (signed : s.imageSigned 256 image = true) :
    s.copyImage c r = .ok image := by
  have size : image.length = 256 := test_image_is_signed.1
  obtain ⟨t, rfl⟩ : ∃ t, h = image ++ t := ⟨h.drop 256, by rw [← ht, List.take_append_drop]⟩
  have e1 : leAt (image ++ t) 8 4 = 256 := by
    have : leAt (image ++ t) 8 4 = leAt image 8 4 := by
      simp [leAt, List.drop_append_of_le_length, List.take_append_of_le_length, size]
    rw [this]; decide +kernel
  have e2 : imageHeaderOk 256 (image ++ t) = true := by
    have : imageHeaderOk 256 (image ++ t) = imageHeaderOk 256 image := by
      simp [imageHeaderOk, leAt, List.drop_append_of_le_length, List.take_append_of_le_length, size]
    rw [this]; exact test_image_is_signed.2.1
  have e3 : ¬ (s.main.nfc.copyPages * profCpp (s.main.nfc.prof 0) * 4096 < 256) := by omega
  simp [State.copyImage, hw, e1, e2, e3, State.copyWords, imageLenOk, size, signed]

/-- The first codeword of a copy as the ROM reads it, where its metadata match. -/
theorem word_of_copy (s : State) (c row k : Nat)
    (hr : s.main.nfc.row 0 (1 + c * s.main.nfc.copyPages) = row) (hk : 0 % profCpp (s.main.nfc.prof 0) = k)
    (e : s.cwErased 0 row k 0 = false) (m : s.metaOk 0 row k 0 = true) : s.copyWord c .good 0 = .ok (s.codeword 0 row k 0 4096) := by
  simp [-List.reduceReplicate, State.copyWord, State.blockZero, hr, hk, e, m]

theorem first_of_copies (s : State) (b : BootInputs) (p : TargetParam) (img : List Byte)
    (h : (s.geometry p).copyImage 0 b.copies[(0 : Fin 4)] = .ok img) : firstImage (s.copyImages b p) = some img := by
  have f : List.finRange 4 = [0, 1, 2, 3] := by decide
  simp only [State.copyImages, f, List.map_cons]
  rw [show ((0 : Fin 4).val) = 0 from rfl, h]
  rfl

theorem test_witness_BootResults_nand : firstImage (bootable.copyImages { goodBoot with param := some part } part) = some image :=
  first_of_copies _ _ _ _ (copy_of_word _ 0 .good _
    (word_of_copy _ 0 1 0 (by decide +kernel) (by decide +kernel) (not_erased _ 0 1 0 0 256 (by decide +kernel))
      (metadata_match _ 0 1 0 0 (by decide +kernel) (by decide +kernel)))
    (by decide +kernel) (by decide +kernel) test_image_is_signed.2.2)

theorem test_witness_BootResults_copies_fail :
    firstImage (fused.copyImages { goodBoot with copies := Vector.replicate 4 (.ecc 0) } part) = none := by decide +kernel

/-- A device with one page written: metadata of codeword 0 of page 195 of LUN 0, profile 1 without randomising. -/
def written : State :=
  { (onLun id).modNfc fun n => { n with cfg := { n.cfg with active := { n.cfg.active with prof := n.cfg.active.prof.set 1 0 } } } with
    nand := { stamp := 1, known := [(nandKey 0 195, nandKey 0 196)],
              cells := (List.range 8).map fun i => (nandKey 0 195 + 4096 + i, ~~~ (metaBytes 195 0 0 1).getD i 0) } }

/-- A device with one erased page. -/
def erased : State := { onLun id with nand := { stamp := 1, known := [(nandKey 0 195, nandKey 0 196)] } }

/-- LUN 0 with an operation in flight whose stream is there. -/
def inFlight (c : InFlight) : State :=
  (onLun fun l => { l with cur := some c }).modNfc fun n => { n with streams :=
    [{ seq := 0, kind := c.op.kind, owner := c.op.owner, ctx := 0, gen := 0, spec := none, raw := false, mp := false, profile := 0, u0 := 0, s := 1,
       block0 := 3, page0 := 3, count := 1, cwFirst := 0, cwLast := 0, mem := 0x4000, next := 1, live := 1 }] }

/-- A read that is ready, before and after its transfer began, of an erased page and of a written one whose metadata match; its ladder:
a codeword left that was tried, with two soft sets; the end of a read with a set applied and without; the other ends; a pending set. -/
theorem test_witness_NandOperations_reads :
    (∀ moved ∈ [true, false],
     let c : InFlight := { op := nandOp .read 3, ready := true, moved := moved }
     let s := inFlight c
     s.nand.wf = true ∧ (s.lun 0).cur = some c ∧ c.phase = .page ∧ c.ignored = false ∧ c.op.raw = false ∧ c.decodedAll s.main.nfc = false ∧
       c.op.cwFirst ≤ 0 ∧ 0 ≤ c.op.cwLast ∧ s.readStale c.op = false ∧ s.mayMove 0 c = true ∧
       c.decoded.getLsbD 0 = false ∧ c.tried.getLsbD 0 = false ∧ ({ c with decoded := 1 } : InFlight).decodedAll s.main.nfc = true) ∧
    (let c : InFlight := { op := nandOp .read 3, ready := true, tried := 1 }
     let s := (inFlight c).modNfc fun n => { n with cfg := { n.cfg with active := { n.cfg.active with ladder := 2 } } }
     (s.lun 0).cur = some c ∧ (c.op.wanted.filter fun k => !c.decoded.getLsbD k.val) = [0] ∧ c.tried.getLsbD 0 = true ∧
       c.ladder < s.main.nfc.softCount + s.main.nfc.retryCount ∧ c.applied s.main.nfc = false ∧
       ({ c with ladder := 1 } : InFlight).applied s.main.nfc = true) ∧
    (∀ ph ∈ [ReadPhase.setting, .restoring], ({ op := nandOp .read 3, phase := ph } : InFlight).ready = false) ∧
    (erased.nand.wf = true ∧ erased.cwErased 0 195 0 1 = true) ∧
    (written.metaOk 0 195 0 1 = true ∧ ({ op := nandOp .read 3, ladder := 1 } : InFlight).ladder ≠ 0) ∧
    (∀ k ∈ [NandKind.program, .erase], (({ op := nandOp k 3, ready := true, fail := true } : InFlight).ignored = false)) ∧
    (onLun fun l => { l with cur := some { op := nandOp .reset 0 } }).serving = true ∧
    (let s := (onLun id).modNfc fun n => { n with cfg := { n.cfg with pending := some { n.cfg.active with resetWait := 9 } } }
     s.main.nfc.cfg.pending.isSome = true ∧ ∀ v : Fin 32, (s.lun v).cur = none) := by
  exact ⟨by decide, by decide, by decide, ⟨by decide, blank_is_erased erased 0 195 0 1 _ _ rfl (by decide +kernel) (by decide +kernel)⟩,
    ⟨metadata_match written 0 195 0 1 (by decide) (by decide +kernel), by decide⟩, by decide, by decide, by decide⟩

/-! ## The link: witnesses -/

/-- A port in a state. -/
def port (state : Nat) : Port := { enable := true, state := BitVec.ofNat 2 state, trained := state = 2 }

/-- A binding of a job to a window at 0x4000 of shared memory. -/
def bound (job bytes rights : Nat) : Binding :=
  { job := BitVec.ofNat 12 job, valid := true, base := 0x4000, bound := BitVec.ofNat 29 bytes, rights := BitVec.ofNat 2 rights }

/-- Chip 0 with both ports up, context 0 bound to job 3 with both rights and context 1 to job 4 with none; a route to chip 1. -/
def linked (f : Link → Link) : State :=
  base.modLink fun l => f { l with
    ports := Vector.replicate 2 (port 2), route := ⟨0x0004, 0, none⟩
    binds := (l.binds.set 0 { set := ⟨bound 3 64 3, {}, none⟩ }).set 1 { set := ⟨bound 4 64 0, {}, none⟩ } }

/-- A message of 4 bytes at the last place of a window of 64 bytes. -/
def lastWord (op : MsgOp) (job : Nat) : Msg := { op := op, src := 1, dst := 0, job := BitVec.ofNat 12 job, off := 60, len := 3 }

theorem test_witness_LinkMessagesReadBack :
    ({ lastWord .write 3 with data := [1, 2, 3, 4] } : Msg).data.length = dataLen .write 3 ∧ (lastWord .flush 3).data.length = dataLen .flush 3 ∧
    (([] : List Byte).getD 0 0 = 0 ∧ 10 ≤ (([10] : List Byte).getD 0 0).toNat) := by decide

/-- A port that is down; a route and none; the last bytes of a window, one byte past it, rights and none; no binding. -/
theorem test_witness_LinkMessages :
    ((linked id).stationsOn = true ∧ ((linked id).port 0).state = 2 ∧ (sv.port 0).state ≠ 2 ∧ (linked id).chipId = 0) ∧
    ((1 : Fin 8) ≠ (linked id).chipId ∧ ((linked id).routeOf 1).isSome = true ∧ (linked id).routeOf 2 = none) ∧
    (let m := lastWord .write 3
     let b := (linked id).bound 0
     m.dst = (linked id).chipId ∧ (linked id).jobCtx m.job = some 0 ∧ m.off.toNat + m.len.toNat + 1 ≤ b.bound.toNat ∧
       ¬ ({ m with off := 61 } : Msg).off.toNat + m.len.toNat + 1 ≤ b.bound.toNat ∧ b.rights.getLsbD 0 = true ∧ b.rights.getLsbD 1 = true) ∧
    ((linked id).jobCtx 4 = some 1 ∧ ((linked id).bound 1).rights.getLsbD 0 = false ∧ ((linked id).bound 1).rights.getLsbD 1 = false) ∧
    ((linked id).jobCtx 5 = none ∧ (linked id).main.link.refusedNotes = [] ∧ (linked id).main.link.tags[(63 : Fin 64)] = none ∧
      (linked id).main.link.lost = []) ∧
    (let s := linked fun l => { l with refusedNotes := [(2, 5, 64), (1, 5, 128)] }
     (s.main.link.refusedNotes.find? fun x => x.1 == (1 : Fin 8) && x.2.1 == (5 : Fin 16)) = some (1, 5, 128)) ∧
    (∀ row ∈ [(true, 0), (false, 0), (true, 1), (false, 1)],
      let a := if row.1 then { move 0 0 false with tag := some 63, flushing := true }
        else { move 0 0 false with srcPeer := some 1, rOff := 16, reads := [{ addr := 0x40, len := 16, tag := some 63 }] }
      let u : TagUse := ⟨15, 0, BitVec.ofNat 8 row.2, row.1⟩
      let s := (linked fun l => { l with tags := l.tags.set 63 (some u) }).modChan 15 fun c => { c with state := .running, cur := some a }
      s.main.link.tags[(63 : Fin 64)] = some u ∧ (s.chan 15).cur = some a ∧ (s.chan 15).state = .running ∧ a.awaits 63 = true ∧
        ((s.ctx 0).gen = u.gen ↔ row.2 = 0)) := by
  exact ⟨by decide, by decide, by decide, by decide, by decide, by decide, by decide⟩

/-- ABORT from a chip that was not seen with that number, and one that was; its own; HELLO of another chip and of its own ID. -/
theorem test_witness_LinkMessages_control :
    (let s := linked fun l => { l with seen := [(3, 7)] }
     ((3 : Fin 8), (7 : BitVec 8)) ∈ s.main.link.seen ∧ ((3 : Fin 8), (8 : BitVec 8)) ∉ s.main.link.seen ∧ (3 : Fin 8) ≠ s.chipId ∧
       s.jobCtx 3 = some 0 ∧ (s.ctx 0).reset = none) ∧
    (let s := linked fun l => { l with ports := Vector.replicate 2 { port 1 with trained := true } }
     (s.port 1).state = 1 ∧ (s.port 1).trained = true) := by
  exact ⟨by decide, by decide⟩

/-- A flit of zeros with its CRC is good and out of order at SEQ 1; a flit without is bad. -/
theorem test_witness_LinkPorts_flits :
    (let bs := List.replicate 60 (0 : Byte) ++ toBytes (crc32 (List.replicate 60 0)) 4
     crc32 (bs.take 60) = word 32 (bs.drop 60) ∧ bs.getD 0 0 = ((linked id).port 0).rxSeq ∧ bs.getD 0 0 ≠ (1 : BitVec 8)) ∧
    (let bs := toBytes (0 : BitVec 512) 64
     crc32 (bs.take 60) ≠ word 32 (bs.drop 60)) := by
  exact ⟨by decide +kernel, by decide +kernel⟩

/-- Ports down, up, training; enabled and not; a binding that is good, misaligned, and of a job that is bound already. -/
theorem test_witness_LinkPorts :
    ((linked id).stationsOn = true ∧ ((linked id).port 0).state = 2 ∧ ((linked id).port 1).enable = true ∧ (sv.port 0).state = 0 ∧
      (sv.port 0).enable = false ∧ (∀ g ∈ ((linked id).port 0).replay, g.seq ≠ 0)) ∧
    (let s := linked fun l => { l with ports := Vector.replicate 2 (port 1) }
     (s.port 1).state = 1 ∧ (s.port 1).trained = false) ∧
    (let s := linked fun l => { l with ports := Vector.replicate 2 { port 2 with replay := List.replicate 64 ⟨5, 0⟩ } }
     64 ≤ (s.port 1).replay.length) ∧
    (let pre : List SentFlit := [⟨4, 0⟩]
     ∀ y ∈ pre, y.seq ≠ 5) ∧
    (∀ b ∈ [bound 8 64 3, { bound 8 64 3 with base := 0x4001 }, bound 3 64 3],
      let s := linked fun l => { l with binds := l.binds.set 7 { set := ⟨{}, b, some b⟩ } }
      s.main.link.binds[(7 : Fin 8)].set.pending = some b ∧ s.ctxRuns 7 = false) ∧
    (((linked id).bound 0).valid = true ∧ ((linked id).ctx 0).reset = none ∧ ((linked id).bound 7).valid = false) := by
  exact ⟨by decide, by decide, by decide, by decide, by decide, by decide⟩

/-! ## Contexts, modes and counters: witnesses -/

/-- Context 7 in a reset at a step. -/
def resetting (step : Fin 13) (r : ResetRun) : State :=
  (sv.modCtx 7 fun c => { c with reset := some r, step := step, cause := 1 }).modMain fun m => { m with resetOrder := [7] }

/-- A trigger that is taken, below the limit and at it; ones that are not; another context's turn; each step at which a reset waits. -/
theorem test_witness_ContextResets :
    ((sv.ctx 7).reset = none ∧ sv.serving = true ∧ sv.main.glb.outOfService = false ∧
      ((sv.time :: sv.main.esc.history).take 15).countP (fun t => sv.time.toNat ≤ t.toNat + sv.main.esc.window.active.toNat * 100000000) <
        sv.main.esc.limit.active.toNat) ∧
    (let s := sv.modEsc fun e => { e with limit := ⟨1, 1, none⟩ }
     s.main.esc.limit.active.toNat ≤ ((s.time :: s.main.esc.history).take 15).countP fun t =>
       s.time.toNat ≤ t.toNat + s.main.esc.window.active.toNat * 100000000) ∧
    (sv.modGlb fun g => { g with outOfService := true }).main.glb.outOfService = true ∧ sv.main.resetOrder.head? ≠ some 7 ∧
    (let s := resetting 1 run0
     s.main.resetOrder.head? = some 7 ∧ (s.ctx 7).reset = some run0 ∧ (s.ctx 7).step = 1 ∧ run0.en = false) ∧
    (let s := resetting 3 { run0 with sampling := true }
     (s.ctx 7).step = 3 ∧ (s.ctx 7).reset = some { run0 with sampling := true }) ∧
    (let s := (resetting 5 run0).modChan 15 fun x => { x with ownValid := true, ownCtx := 7, state := .running }
     (s.chan 15).ownValid = true ∧ (s.chan 15).ownCtx = 7 ∧ (s.chan 15).state = .running) ∧
    (((resetting 4 run0).ctx 7).step = 4 ∧ ((resetting 5 run0).ctx 7).step = 5 ∧ ((resetting 6 run0).ctx 7).step = 6) ∧ sv.memWf = true := by
  exact ⟨by decide, by decide, by decide, by decide, by decide, by decide, by decide, by decide, by decide⟩

/-- A pending table with a good and a bad entry; a context that runs a job, and one whose next job waits on its mark; two requesters of one
bank of shared memory, and two ports of one bank of a station; SHM_MODE while idle, busy, and not allowed; Hold; a fused
station. -/
theorem test_witness_TablesModeAndCounters :
    (let t := ptab.set 31 (par 1 0x60000 0x1E 0x83)
     let s := tabled.modCtx 7 fun c => { c with table := { c.table with pending := some t } }
     s.serving = true ∧ (s.ctx 7).table.pending = some t ∧ s.ctxRuns 7 = false ∧ s.entryBad t[(31 : Fin 32)].bytes ≠ none ∧
       s.entryBad t[(0 : Fin 32)].bytes = none) ∧
    ((withJob (job .running 9 [])).ctxRuns 0 = true ∧ (sv.ctx 7).table.pending = none) ∧
    (sv.shmIdle = true ∧ sv.otp.shmGroups = 7 ∧ (withJob (job .running 9 [])).shmIdle = false ∧ ({ sv with otp := { sv.otp with shmGroups := 5 } } : State).otp.shmGroups ≠ 7) ∧
    (sv.main.pwr.state ≠ .hold ∧ sv.present 23 = true ∧ (sv.modPwr fun p => { p with state := .hold }).main.pwr.state = .hold ∧
      ({ sv with otp := { sv.otp with stationMap := 0x7FFFFF } } : State).present 23 = false) ∧
    (let j := runJob .taken 1 [(4, 0x80 + 5), (8, 4)]
     let s := withJob j
     s.job 2 = some j ∧ j.ctx = 0 ∧ j.phase = .taken ∧ j.headerBad = none ∧ s.admissible 2 j = true ∧ s.markOk j = false ∧
       s.ctxRuns 0 = false) ∧
    (let v := (sv.main.shm).bankClock (fun _ => true) (fun r => if r = 3 ∨ r = 28 then some 0x4100 else none)
     v.granted[(1 : Fin 64)] = 3 ∧ v.waits[(28 : Fin 29)] = some 0x4100 ∧ v.conflicts[(1 : Fin 64)] = 1) ∧
    (let v := ({ st0 with dmuQ := [{ word := 0 }] }).bankClock false (fun _ => some 0x8000)
     v.ports[(0 : Fin 5)] = none ∧ v.ports[(2 : Fin 5)] = some 0x8000 ∧ v.conflicts.getD 7 0 = 1) := by
  exact ⟨by decide, by decide, by decide, by decide, by decide, by decide, by decide⟩

/-! ## Results: one step on a small state -/

/-- The state that a command gives, read by a function. -/
def after {α : Type} (c : Instr) (s : State) (f : State → α) : Option α :=
  match exec c s with
  | .next t => some (f t)
  | _ => none

/-- R130: ADD wraps modulo 2^64: g2 holds 2^64 - 1 and g3 holds 8. -/
theorem test_add_wraps : after (.add 0 (rWord 1 2 3 0 0)) base (fun t => ((t.station 0).rg 1, (t.station 0).pc, (t.station 0).retired)) =
    some (7, 0x48, 1) := by decide +kernel

/-- R130: SRA by 8 of a negative value; SHR of the same. -/
theorem test_sra : after (.sra 0 (rWord 1 2 3 0 0)) base (fun t => (t.station 0).rg 1) = some 0xFFFFFFFFFFFFFFFF := by decide +kernel
theorem test_shr : after (.shr 0 (rWord 1 2 3 0 0)) base (fun t => (t.station 0).rg 1) = some 0x00FFFFFFFFFFFFFF := by decide +kernel

/-- R130: SLT is signed and SLTU unsigned: -1 and 8. -/
theorem test_slt : after (.slt 0 (rWord 1 2 3 0 0)) base (fun t => (t.station 0).rg 1) = some 1 := by decide +kernel
theorem test_sltu : after (.sltu 0 (rWord 1 2 3 0 0)) base (fun t => (t.station 0).rg 1) = some 0 := by decide +kernel

/-- R130: an immediate is sign-extended; g0 stays zero. -/
theorem test_min_immediate : after (.min 0 (rWord 1 3 0 1 0xFFFFFFFE)) base (fun t => (t.station 0).rg 1) = some 0xFFFFFFFFFFFFFFFE := by
  decide +kernel
theorem test_g0 : after (.add 0 (rWord 0 2 3 0 0)) base (fun t => (t.station 0).rg 0) = some 0 := by decide +kernel

/-- R126: a reserved bit of a NOP faults with ILLEGAL_INSTR. -/
theorem test_nop_reserved : after (.nop 0 1) base (fun t => ((t.station 0).faultValid, (t.station 0).faultStatus)) =
    some (true, stIllegalInstr) := by decide +kernel

/-- R131: ST32 and a byte read back, little-endian. -/
theorem test_st32 : after (.st32 0 (rWord 3 0 0 0 0x10)) base (fun t => ((t.station 0).mem.read 0x10, (t.station 0).mem.read 0x13)) =
    some (8, 0) := by decide +kernel

/-- R143: BR with IMM -1 goes one word back. -/
theorem test_br_back : after (.br 0 (cWord 0 0 0 0xFFFFFFFF)) base (fun t => (t.station 0).pc) = some 0x38 := by decide +kernel

/-- R145, R194: EOPEN writes the number of the new epoch and opens it. -/
theorem test_eopen : after (.eopen 0 (rWord 1 0 0 0 0)) epochal (fun t => ((t.station 0).rg 1, (t.ctx 0).epochs)) = some (5, [3, 4, 5]) := by
  decide +kernel

/-- R53: a tail equal to the ring size sets BAD_DOORBELL; the last index is taken. -/
theorem test_sq_tail_bad : after (.sqTail 15 16) (onQ id) (fun t => ((t.queue 15).badDoorbell, (t.queue 15).sqTail)) = some (true, 0) := by
  decide +kernel
theorem test_sq_tail : after (.sqTail 15 15) (onQ id) (fun t => ((t.queue 15).badDoorbell, (t.queue 15).sqTail)) = some (false, 15) := by
  decide +kernel

/-- R64: ADD wraps modulo 2^64. -/
theorem test_mark_add_wraps :
    after (.markOpAdd 2) ((withJob (job .started 6 [(16, 63), (24, 0xFFFFFFFFFFFFFFFF)])).setMark 63 2) (fun t => t.main.marks[(63 : Fin 64)]) =
      some 1 := by decide +kernel

/-- R29: 0.795 V is too low for divide-by-2, 0.8 V is enough. -/
theorem test_divider_refused : after (.pwrClkCtrl 0 159) sv (fun t => (t.main.pwr.refused, t.main.pwr.switching, t.main.pwr.div)) =
    some (true, false, 3) := by decide +kernel
theorem test_divider_taken : after (.pwrClkCtrl 0 160) sv (fun t => (t.main.pwr.refused, t.main.pwr.switching, t.main.pwr.div)) =
    some (false, true, 0) := by decide +kernel

/-- R311: the sample clips at 32767, sets ADC_SAT and takes that much from the charge. -/
theorem test_charge_clips : after (.chargeSample 40000 3700) (sv.modSup fun x => { x with en := true, charge := 100000 })
    (fun t => (t.main.sup.charge, t.main.sup.adcSat)) = some (67233, true) := by decide +kernel

/-- R346: any value but 0x5A5A is refused. -/
theorem test_burn_refused : after (.idkPmkBurn 0x5A5B) (sv.modIdk fun i => { i with pmkKey := ⟨5, 5, none⟩ })
    (fun t => (t.main.idk.burnRefused, t.main.idk.burnBusy)) = some (true, false) := by decide +kernel

/-- R328: the parity bits of identifiers 0x00, 0x3C and 0x3D, worked out by hand from the formula. -/
theorem test_pid : pidOf 0x00 = 0x80 ∧ pidOf 0x3C = 0x3C ∧ pidOf 0x3D = 0x7D := by decide

/-- R239: the check values of CRC-32C and CRC-32 over the nine digits. -/
theorem test_crc_check : crc32c [0x31, 0x32, 0x33, 0x34, 0x35, 0x36, 0x37, 0x38, 0x39] = 0xE3069283 ∧
    crc32 [0x31, 0x32, 0x33, 0x34, 0x35, 0x36, 0x37, 0x38, 0x39] = 0xCBF43926 := by decide +kernel

/-- SHA-256 of "abc" begins BA7816BF (FIPS 180-4, appendix B.1). -/
theorem test_sha256_abc : (sha256 [0x61, 0x62, 0x63]).take 4 = [0xBA, 0x78, 0x16, 0xBF] := by decide +kernel

/-- R336: an address with no item reads 0x00. Log entry 27: 0xFF before the straps are latched. -/
theorem test_mgt_read : after (.mgtRead ⟨0x48, 0x0200⟩ 2) sv State.mgtData = some [0, 0] ∧
    after (.mgtRead ⟨0x48, 0⟩ 2) State.reset State.mgtData = some [0xFF, 0xFF] := by
  exact ⟨by decide +kernel, by decide +kernel⟩

/-- Step takes the front command and keeps the rest. -/
theorem test_step_front : (match step { sv with pending := [.pwrClkCtrl 0 160, .perst] } with
    | .next t => (t.pending, t.main.pwr.switching)
    | _ => ([], false)) = ([.perst], true) := by decide +kernel

end Sys2Proof.Tests
end

namespace Sys2Proof.Machine

/-! ## The station divider (R28, R29) -/

/-- The table of R28, row by row. -/
theorem minVcore_eq (div : BitVec 2) :
    minVcore div = if div = 0 then 160 else if div = 1 then 140 else if div = 2 then 124 else 110 := by
  revert div
  decide

/-- R29: below the divider's minimum, the write only sets REFUSED. -/
theorem State.writeDiv_of_lt {s : State} {div : BitVec 2} (h : s.main.pwr.vcoreMv.toNat < minVcore div) :
    s.writeDiv div = s.modPwr fun p => { p with refused := true } := by
  simp [State.writeDiv, State.modPwr, State.modMain, h]

/-- R29, R32: from the divider's minimum on, the write is pending and ends the VCORE force. -/
theorem State.writeDiv_of_le {s : State} {div : BitVec 2} (h : minVcore div ≤ s.main.pwr.vcoreMv.toNat) :
    s.writeDiv div = s.modPwr fun p => { p with div := div, switching := true, vcoreForce := false } := by
  simp [State.writeDiv, State.modPwr, State.modMain, h.not_gt]

/-- The command that the dispatcher runs for PWR_CLK_CTRL. -/
theorem exec_pwrClkCtrl (div : BitVec 2) (vcore : BitVec 8) (s : State) :
    exec (.pwrClkCtrl div vcore) s = execPwrClkCtrl div vcore s := rfl

/-- While the device runs, PWR_CLK_CTRL is a write of DIV with the measured VCORE. -/
theorem exec_pwrClkCtrl_of_running {s : State} (hrun : s.running = true) (div : BitVec 2) (vcore : BitVec 8) :
    exec (.pwrClkCtrl div vcore) s = .next ((s.modPwr fun p => { p with vcoreMv := vcore }).writeDiv div) := by
  rw [exec_pwrClkCtrl, execPwrClkCtrl, hrun, State.when_true]

/-- Settles O41: the measured VCORE decides between the two results of a write of DIV. -/
theorem dividerRequests : Obligations.DividerRequests := by
  intro div vcore s hrun need
  have hneed : need div = minVcore div := (minVcore_eq div).symm
  rw [hneed, exec_pwrClkCtrl_of_running hrun]
  constructor
  · intro hlow
    rw [State.writeDiv_of_lt hlow]
    rfl
  · intro hok
    rw [State.writeDiv_of_le hok]
    rfl

end Sys2Proof.Machine

namespace Sys2Proof.Machine

/-! ## What messages and the field book leave of the GLB_ block (R75, R296, R356) -/

/-- A message changes MSI-X at most, in the main domain. -/
theorem State.raise_main (s : State) (v : Fin 64) :
    (s.raise v).main = { s.main with msix := (s.raise v).main.msix } := by
  unfold State.raise
  dsimp only
  split
  · simp
  · simp

@[simp] theorem State.raise_glb (s : State) (v : Fin 64) : (s.raise v).main.glb = s.main.glb := by
  rw [State.raise_main]

@[simp] theorem State.powerEvent_glb (s : State) (bits : BitVec 5) : (s.powerEvent bits).main.glb = s.main.glb := by
  unfold State.powerEvent State.raiseIf
  dsimp only
  split
  · simp
  · simp

@[simp] theorem State.noticeCheck_glb (s : State) : s.noticeCheck.main.glb = s.main.glb := by
  unfold State.noticeCheck State.cancelNotice
  split
  · split
    · simp
    · rfl
  · rfl

@[simp] theorem State.flush_main (s : State) (trigger : BitVec 16) : (s.flush trigger).main = s.main := by
  unfold State.flush
  split
  · rfl
  · rfl

/-! ## What a trigger leaves of the main domain (R273, R279) -/

/-- Marking a context's jobs changes the queues alone. -/
theorem State.doomJobs_main (s : State) (c : Fin 8) :
    (s.doomJobs c).main = { s.main with queues := (s.doomJobs c).main.queues } := by
  unfold State.doomJobs
  dsimp only
  refine List.foldlRecOn _ _ (motive := fun t : State => t.main = { s.main with queues := t.main.queues }) rfl ?_
  intro t ht p _
  simp only [State.modQueue_main]
  rw [ht]

/-- A trigger changes the queues, the contexts and the order of the resets alone. -/
theorem State.triggerReset_main (s : State) (c : Fin 8) (cause : BitVec 3) :
    let t := (s.triggerReset c cause).main
    t = { s.main with queues := t.queues, ctxs := t.ctxs, resetOrder := t.resetOrder } := by
  unfold State.triggerReset
  dsimp only
  split
  · rfl
  · simp only [State.modMain_main, State.modCtx_main]
    rw [State.doomJobs_main]

@[simp] theorem State.triggerReset_glb (s : State) (c : Fin 8) (cause : BitVec 3) :
    (s.triggerReset c cause).main.glb = s.main.glb := by rw [State.triggerReset_main]

@[simp] theorem State.triggerReset_esc (s : State) (c : Fin 8) (cause : BitVec 3) :
    (s.triggerReset c cause).main.esc = s.main.esc := by rw [State.triggerReset_main]

@[simp] theorem State.triggerReset_time (s : State) (c : Fin 8) (cause : BitVec 3) :
    (s.triggerReset c cause).main.time = s.main.time := by rw [State.triggerReset_main]

/-! ## Escalation (R288, R289) -/

/-- R289: OUT_OF_SERVICE is 1 once it is entered; the triggers of the other contexts leave it. -/
theorem State.enterOos_outOfService (s : State) (c : Fin 8) : (s.enterOos c).main.glb.outOfService = true := by
  unfold State.enterOos
  dsimp only
  refine List.foldlRecOn _ _ (motive := fun t : State => t.main.glb.outOfService = true) (by simp) ?_
  intro t ht k _
  split
  · exact ht
  · rw [State.triggerReset_glb, ht]

/-- How many counting triggers, one now and at most 14 before it, lie within the active window (R288). -/
def State.triggersInWindow (s : State) : Nat :=
  ((s.time :: s.main.esc.history).take 15).countP (inWindow s.main.esc.window.active s.time)

/-- R288, R289: a trigger that counts puts the device out of service where the active limit is reached, and only there. -/
theorem State.driverReset_outOfService_iff {s : State} {c : Fin 8} (hidle : (s.ctx c).reset = none)
    (hin : s.main.glb.outOfService = false) :
    (s.driverReset c).main.glb.outOfService = true ↔ s.main.esc.limit.active.toNat ≤ s.triggersInWindow := by
  have htake : ¬ ((s.ctx c).reset.isSome || s.main.glb.outOfService) = true := by rw [hidle, hin]; decide
  unfold State.driverReset
  rw [if_neg htake]
  simp only [State.modEsc_main, State.triggerReset_esc, State.triggerReset_time]
  rw [← State.triggersInWindow]
  split
  case isTrue hlimit => exact iff_of_true (State.enterOos_outOfService _ c) hlimit
  case isFalse hlimit => exact iff_of_false (by simp [hin]) hlimit

/-- While READY is 1, CTX_RESET with GO is a driver's trigger. -/
theorem exec_ctxReset_of_serving {s : State} (hs : s.serving = true) (c : Fin 8) :
    exec (.ctxReset c true) s = .next (s.driverReset c).noticeCheck := by
  change execCtxReset c true s = _
  rw [execCtxReset, hs, Bool.and_self, State.when_true]

/-! ## The staged pair (R291) -/

/-- The escalation record after CTX_ESC_COMMIT: both staging copies active together. -/
def Esc.committed (e : Esc) : Esc :=
  { e with limit := ⟨e.limit.staging, e.limit.staging, none⟩, window := ⟨e.window.staging, e.window.staging, none⟩ }

/-- While READY is 1, CTX_ESC_COMMIT changes the escalation record alone. -/
theorem exec_ctxEscCommit_of_serving {s : State} (hs : s.serving = true) :
    exec .ctxEscCommit s = .next (s.modEsc Esc.committed) := by
  change execCtxEscCommit s = _
  rw [execCtxEscCommit, hs, State.when_true]
  rfl

/-- While READY is 1, a write in the CTX_ block reaches its registers. -/
theorem State.write32_of_ctx {s : State} (hs : s.serving = true) (reply : HostReply) {a : Nat} (ha : a / 0x10000 = 2)
    (v : BitVec 32) :
    s.write32 reply a v = s.ctxWrite (a % 0x10000) v := by
  have htakes : s.takesWrite a = true := by rw [State.takesWrite, hs, Bool.true_or]
  have hstn : stnOf a = none := by
    unfold stnOf
    split
    · exact if_neg (by omega)
    · rfl
  simp only [State.write32, htakes, hstn, ha, State.blockWrite]
  rfl

/-- A write of CTX_ESC_LIMIT changes its staging copy alone. -/
theorem State.ctxWrite_escLimit (s : State) (v : BitVec 32) :
    s.ctxWrite 0x1000 v =
      s.modEsc fun e => { e with limit := { e.limit with staging := if fld v 0 4 = 0 then 1 else fld v 0 4 } } := rfl

/-- A write of CTX_ESC_WINDOW changes its staging copy alone. -/
theorem State.ctxWrite_escWindow (s : State) (v : BitVec 32) :
    s.ctxWrite 0x1004 v = s.modEsc fun e => { e with window := { e.window with staging := escWindow (fld v 0 10) } } := rfl

/-- Settles O59: the two writes reach staging copies alone, and the trigger after the commit reads the committed pair. -/
theorem escalationPairCommits : Obligations.EscalationPairCommits := by
  intro v c s hs
  constructor
  · intro reply a ha
    refine ⟨_, rfl, ?_⟩
    obtain rfl | rfl : a = 0x021000 ∨ a = 0x021004 := by simpa using ha
    · rw [State.write32_of_ctx hs reply (by norm_num), State.ctxWrite_escLimit]
      exact ⟨rfl, rfl, rfl⟩
    · rw [State.write32_of_ctx hs reply (by norm_num), State.ctxWrite_escWindow]
      exact ⟨rfl, rfl, rfl⟩
  · refine ⟨_, exec_ctxEscCommit_of_serving hs, rfl, rfl, fun hidle hin => ?_⟩
    have hserving : (s.modEsc Esc.committed).serving = true := hs
    refine ⟨_, exec_ctxReset_of_serving hserving c, ?_⟩
    rw [State.noticeCheck_glb]
    exact State.driverReset_outOfService_iff hidle hin

end Sys2Proof.Machine

namespace Sys2Proof.Machine

/-! ## The samples of a bit (R319, R320) -/

/-- R319: a bit reads high where at least two of its samples do. -/
theorem sampleValue_iff (b : Samples) : sampleValue b = true ↔ 2 ≤ [b.s7, b.s8, b.s9].count true := by
  obtain ⟨s7, s8, s9⟩ := b
  revert s7 s8 s9
  decide

theorem samplesNoisy_iff (b : Samples) : samplesNoisy b = true ↔ ¬ (b.s7 = b.s8 ∧ b.s8 = b.s9) := by
  rw [samplesNoisy, Bool.or_eq_true, bne_iff_ne, bne_iff_ne, ← not_and_or]

theorem samplesLow_iff (b : Samples) : samplesLow b = true ↔ b.s7 = false ∧ b.s8 = false ∧ b.s9 = false := by
  simp [samplesLow, and_assoc]

/-! ## Words put together from flags -/

@[simp] theorem getElem_flag {w i j : Nat} (b : Bool) (hj : j < w) : (flag w i b)[j] = (decide (j = i) && b) := by
  cases b with
  | true => simp [flag]
  | false => simp [flag]

/-- A bit of a word into which a list of flags was put: it was set before, or the list sets it. -/
theorem getElem_foldl_flag {w i : Nat} (hi : i < w) (l : List (Bool × Nat)) (v : BitVec w) :
    (l.foldl (fun v p => v ||| flag w p.2 p.1) v)[i] = true ↔ v[i] = true ∨ (true, i) ∈ l := by
  induction l generalizing v with
  | nil => simp
  | cons p l ih =>
    obtain ⟨b, k⟩ := p
    have hp : (decide (i = k) && b) = true ↔ (true, i) = (b, k) := by cases b <;> simp
    rw [List.foldl_cons, ih, BitVec.getElem_or, getElem_flag, Bool.or_eq_true, hp, or_assoc, List.mem_cons]

/-! ## What the receiver reads of a character (R317, R320) -/

theorem Uart.hasParity_iff (x : Uart) :
    x.hasParity = true ↔ x.cfg.active.parity = 1 ∨ x.cfg.active.parity = 2 := by simp [Uart.hasParity]

/-- The data samples, by their place on the line. -/
theorem Uart.getElem?_dataSamples (x : Uart) (c : RxChar) (i : Fin 8) :
    (x.dataSamples c)[i.val]? = if i.val < 5 + x.cfg.active.dbits.toNat then some c.data[i] else none := by
  simp [Uart.dataSamples, List.getElem?_take]

/-- The data samples are those of the bits that the format has. -/
theorem Uart.mem_dataSamples (x : Uart) (c : RxChar) (b : Samples) :
    b ∈ x.dataSamples c ↔ ∃ i : Fin 8, i.val < 5 + x.cfg.active.dbits.toNat ∧ c.data[i] = b := by
  constructor
  · intro h
    obtain ⟨i, hi, rfl⟩ := List.getElem_of_mem h
    have hlen : i < 5 + x.cfg.active.dbits.toNat ∧ i < 8 := by simpa [Uart.dataSamples] using hi
    exact ⟨⟨i, hlen.2⟩, hlen.1, by simp [Uart.dataSamples]⟩
  · rintro ⟨i, hi, rfl⟩
    have h := x.getElem?_dataSamples c i
    rw [if_pos hi] at h
    exact List.mem_of_getElem? h

/-- A data bit is the majority of its samples, and a bit that the format lacks is 0. -/
theorem Uart.getLsbD_dataBits (x : Uart) (c : RxChar) (i : Fin 8) :
    (x.dataBits c).getLsbD i = true ↔ i.val < 5 + x.cfg.active.dbits.toNat ∧ sampleValue c.data[i] = true := by
  rw [BitVec.getLsbD_eq_getElem i.isLt, Uart.dataBits, getElem_foldl_flag i.isLt, List.mem_zipIdx_iff_getElem?,
    List.getElem?_map, x.getElem?_dataSamples]
  split <;> simp [*]

/-- The bits after the start bit: the data bits, the parity bit where the format has one, the stop bit. -/
theorem Uart.mem_bitsSeen (x : Uart) (c : RxChar) (b : Samples) :
    b ∈ x.bitsSeen c ↔
      (∃ i : Fin 8, i.val < 5 + x.cfg.active.dbits.toNat ∧ c.data[i] = b) ∨ (x.hasParity = true ∧ b = c.parity) ∨ b = c.stop := by
  simp [Uart.bitsSeen, x.mem_dataSamples]

/-! ## The flags of a character (R319, R320) -/

section
variable (x : Uart) (c : RxChar)

/-- FE: the stop bit reads low. -/
theorem Uart.charFlags_fe : (x.charFlags c).getLsbD 0 = !sampleValue c.stop := by
  simp [Uart.charFlags]

/-- PE: the parity bit does not match. -/
theorem Uart.charFlags_pe : (x.charFlags c).getLsbD 1 = !x.parityOk c := by
  simp [Uart.charFlags]

/-- OE is no flag of a character. -/
theorem Uart.charFlags_oe : (x.charFlags c).getLsbD 2 = false := by
  simp [Uart.charFlags]

/-- NOISE: the samples of a bit that was looked at disagree. -/
theorem Uart.charFlags_noise : (x.charFlags c).getLsbD 3 = true ↔
    samplesNoisy c.start.samples = true ∨
      (∃ i : Fin 8, i.val < 5 + x.cfg.active.dbits.toNat ∧ samplesNoisy c.data[i] = true) ∨
      (x.hasParity = true ∧ samplesNoisy c.parity = true) ∨ samplesNoisy c.stop = true := by
  have hbit : (x.charFlags c).getLsbD 3 = (c.start.samples :: x.bitsSeen c).any samplesNoisy := by
    simp [Uart.charFlags]
  rw [hbit, List.any_cons, Bool.or_eq_true, List.any_eq_true]
  simp only [x.mem_bitsSeen]
  simp [or_and_right, exists_or, and_assoc]

/-- BRK: every sample after the start bit reads low. -/
theorem Uart.charFlags_brk : (x.charFlags c).getLsbD 4 = true ↔
    (∀ i : Fin 8, i.val < 5 + x.cfg.active.dbits.toNat → samplesLow c.data[i] = true) ∧
      (x.hasParity = true → samplesLow c.parity = true) ∧ samplesLow c.stop = true := by
  have hbit : (x.charFlags c).getLsbD 4 = (x.bitsSeen c).all samplesLow := by
    simp [Uart.charFlags]
  rw [hbit, List.all_eq_true]
  simp only [x.mem_bitsSeen]
  simp [or_imp, forall_and]

/-- R317: even parity fails where the parity bit is high for an even count of data bits, odd parity where it is high for an odd one. -/
theorem Uart.parityOk_eq_false_iff : x.parityOk c = false ↔
    (x.cfg.active.parity = 1 ∧ (sampleValue c.parity = true ↔ popCount (x.dataBits c) % 2 = 0)) ∨
      (x.cfg.active.parity = 2 ∧ (sampleValue c.parity = true ↔ popCount (x.dataBits c) % 2 = 1)) := by
  have hmod := Nat.mod_two_eq_zero_or_one (popCount (x.dataBits c))
  unfold Uart.parityOk
  dsimp only
  split
  case isTrue heven => rcases hmod with h | h <;> simp [heven, h]
  case isFalse hne =>
    split
    case isTrue hodd => rcases hmod with h | h <;> simp [hodd, h]
    case isFalse hno => simp only [hne, hno, false_and, or_self, Bool.true_eq_false]

end

/-! ## A finished character (R322) -/

theorem Uart.finish_of_full {x : Uart} (h : x.rxFull = true) (c : RxChar) :
    x.finish c = { x with flags := x.flags ||| 4, marks := x.marks &&& ~~~4 } := if_pos h

theorem Uart.finish_of_empty {x : Uart} (h : x.rxFull = false) (c : RxChar) :
    x.finish c = { x.setFlags (x.charFlags c) with rxHold := x.dataBits c, rxFull := true } := if_neg (by simp [h])

theorem State.serialOn_of {s : State} (hs : s.serving = true) (hpwr : s.main.pwr.state ≠ .hold) (hpad : s.aon.padHeld = false) :
    s.serialOn = true := by simp [State.serialOn, State.stationsOn, hs, hpwr, hpad]

/-- While the receiver is on, a character whose start bit is accepted and reads low is finished. -/
theorem exec_characterReceived_of_on {u : Fin 2} {c : RxChar} {s : State} (hon : s.serialOn = true)
    (hframe : s.frameMode u = false) (hrx : (s.main.uarts[u]).cfg.active.rxen = true) (hseen : 16 ≤ c.start.high)
    (hlow : sampleValue c.start.samples = false) :
    exec (.characterReceived u c) s = .next (s.modUart u fun x => x.finish c) := by
  have hstart : startSeen c.start = true := decide_eq_true hseen
  change execCharacterReceived u c s = _
  rw [execCharacterReceived, hon, hframe, hrx, hstart, hlow]
  rfl

/-- An effect on a UART is an effect on its present value. -/
theorem State.modUart_congr {s : State} {u : Fin 2} {f g : Uart → Uart} (h : f (s.main.uarts[u]) = g (s.main.uarts[u])) :
    s.modUart u f = s.modUart u g := by
  simp only [State.modUart, State.modMain, upd, h]

/-- Settles O49: a full holding register decides whether the character is lost or taken; what is taken is read off bit by bit. -/
theorem receivedCharacters : Obligations.ReceivedCharacters := by
  intro u c s hs x high noisy low n par hpwr hpad hframe hrx hseen hstart
  have hhigh : ∀ b, high b ↔ sampleValue b = true := fun b => (sampleValue_iff b).symm
  have hnoisy : ∀ b, noisy b ↔ samplesNoisy b = true := fun b => (samplesNoisy_iff b).symm
  have hlow : ∀ b, low b ↔ samplesLow b = true := fun b => (samplesLow_iff b).symm
  have hpar : par ↔ x.hasParity = true := x.hasParity_iff.symm
  rw [hhigh, Bool.not_eq_true] at hstart
  rw [exec_characterReceived_of_on (State.serialOn_of hs hpwr hpad) hframe hrx hseen hstart]
  constructor
  · intro hfull
    exact congrArg Host.Outcome.next (State.modUart_congr (Uart.finish_of_full hfull c))
  · intro hempty
    refine ⟨_, rfl, ?_⟩
    have huart : (s.modUart u fun x => x.finish c).main.uarts[u] =
        { x.setFlags (x.charFlags c) with rxHold := x.dataBits c, rxFull := true } := by
      rw [State.modUart_main, upd_get_same, Uart.finish_of_empty hempty]
    simp only [huart, Uart.setFlags, BitVec.getLsbD_or, Bool.or_eq_true, hhigh, hnoisy, hlow, hpar]
    refine ⟨trivial, x.getLsbD_dataBits c, ?_, ?_, ?_, ?_, ?_, trivial⟩
    · rw [x.charFlags_fe, Bool.not_eq_true', Bool.not_eq_true]
    · rw [x.charFlags_pe, Bool.not_eq_true', x.parityOk_eq_false_iff]
    · rw [x.charFlags_oe, Bool.or_false]
    · rw [x.charFlags_noise]
    · rw [x.charFlags_brk]

end Sys2Proof.Machine

namespace Sys2Proof.Machine

/-! ## The driver's data (R9, R10, R355) -/

/-- The first MiB of BAR0 belongs to no station. -/
theorem stnOf_eq_none_of_lt {a : Nat} (ha : a < 0x100000) : stnOf a = none := by
  unfold stnOf
  split
  · exact if_neg (by omega)
  · rfl

/-- While READY is 1, writes reach every block (R42). -/
theorem State.takesWrite_of_serving {s : State} (hs : s.serving = true) (a : Nat) : s.takesWrite a = true := by
  rw [State.takesWrite, hs, Bool.true_or]

/-- While READY is 1, a write of a 64-bit register in the FBK_ block reaches it. -/
theorem State.write64_of_fbk {s : State} (hs : s.serving = true) {a : Nat} (ha : a / 0x10000 = 0x0B) (w : W64) :
    s.write64 a w = s.blockWrite64 0x0B (a % 0x10000) w := by
  simp only [State.write64, State.takesWrite_of_serving hs, stnOf_eq_none_of_lt (show a < 0x100000 by omega), ha]
  rfl

/-- A write of FBK_DRV_DATA changes its staging copy alone. -/
theorem State.blockWrite64_fbkDrvData (s : State) (w : W64) :
    s.blockWrite64 0x0B 0x10 w =
      s.modMain fun m => { m with fbkDrv := { m.fbkDrv with staging := applyW64 m.fbkDrv.staging w } } := rfl

/-- A COMMIT that acts at once (R10): the staging copy is active, and none is pending. -/
theorem Staged.activate_commit {α : Type} (r : Staged α) : r.commit.activate = ⟨r.staging, r.staging, none⟩ := rfl

/-! ## The driver's entry (R353, R355) -/

/-- The main domain runs while READY is 1. -/
theorem State.running_of_serving {s : State} (hs : s.serving = true) : s.running = true := by
  have hphase : s.phase = .serving := eq_of_beq hs
  rw [State.running, hphase]

/-- R353: while TCK_TIME counts, an entry stands at FBK_HEAD with the time's low bits. -/
theorem State.fbEntry_ring_of_running {s : State} (hrun : s.running = true) (source code : Nat) (data : BitVec 64) :
    (s.fbEntry source code data).aon.ring = s.aon.ring.set s.aon.fbHead (fbWord (s.time.setWidth 48) source code data) := by
  simp only [State.fbEntry, hrun, if_true, State.modAon_aon]

@[simp] theorem State.fbEntry_fbHead (s : State) (source code : Nat) (data : BitVec 64) :
    (s.fbEntry source code data).aon.fbHead = s.aon.fbHead + 1 := rfl

/-- FBK_DRV_LOG's entry holds the data that it has just committed. -/
theorem State.driverLog_eq (s : State) (code : BitVec 8) :
    s.driverLog code =
      (s.modMain fun m => { m with fbkDrv := ⟨m.fbkDrv.staging, m.fbkDrv.staging, none⟩ }).fbEntry 7 (0xE00 + code.toNat)
        s.main.fbkDrv.staging := by
  simp only [State.driverLog, Staged.activate_commit, State.modMain_main]

/-- While READY is 1, FBK_DRV_LOG commits and writes its entry. -/
theorem exec_fbkDrvLog_of_serving {s : State} (hs : s.serving = true) (code : BitVec 8) :
    exec (.fbkDrvLog code) s = .next (s.driverLog code) := by
  change execFbkDrvLog code s = _
  rw [execFbkDrvLog, hs, State.when_true]

/-- Settles O45: the write stops at the staging copy, and the log's entry is read off the commit of that copy. -/
theorem driverLogEntry : Obligations.DriverLogEntry := by
  intro code v s hs
  constructor
  · rw [State.write64_of_fbk hs (by norm_num), State.blockWrite64_fbkDrvData]
    rfl
  · have hrun : (s.modMain fun m => { m with fbkDrv := ⟨m.fbkDrv.staging, m.fbkDrv.staging, none⟩ }).running = true :=
      State.running_of_serving hs
    refine ⟨_, exec_fbkDrvLog_of_serving hs code, ?_⟩
    rw [State.driverLog_eq]
    refine ⟨State.fbEntry_fbHead _ _ _ _, State.fbEntry_ring_of_running hrun _ _ _, ?_⟩
    rw [State.fbEntry_main, State.modMain_main]

end Sys2Proof.Machine

namespace Sys2Proof.Machine

/-! ## What a command keeps (R19, R77, R365; R1, R43, R341, R346, R347) -/

/-- A choice keeps what both of its branches keep. -/
theorem Kept.ite {s0 a b : State} {c : Prop} [Decidable c] (ha : Kept s0 a) (hb : Kept s0 b) : Kept s0 (if c then a else b) := by
  split
  · exact ha
  · exact hb

/-- A change of a station's registers, flags and queues alone. -/
theorem State.modStation_mems_kept {s0 s : State} (h : Kept s0 s) {n : Fin 24} {f : Station → Station}
    (hf : ∀ t, (f t).mems = t.mems) : Kept s0 (s.modStation n f) :=
  State.modStation_kept h fun t ht => Station.memWf_of ht (hf t)

/-- An instruction that the sequencer completed, having changed no memory of its station. -/
theorem State.advanced_kept {s0 s : State} (h : Kept s0 s) {n : Fin 24} {f : Station → Station}
    (hf : ∀ t, t.memWf = true → (f t).memWf = true) : Kept s0 ((s.modStation n fun t => (f t).advance).retire n) :=
  State.retire_kept (State.modStation_kept h fun t ht => Station.advance_memWf (hf t ht))

/-! ### Stations -/

theorem execSt64_kept (n : Fin 24) (w : BitVec 52) (s : State) : Kept s (s.act (execSt64 n w)) := by
  unfold State.act execSt64
  dsimp only
  split
  · exact State.scalarStore_kept (.refl s)
  · exact State.issue_kept (.refl s) fun _ h => State.issueKick_kept h

theorem execConversionStart_kept (n : Fin 24) (s : State) : Kept s (s.act (execConversionStart n)) := by
  unfold State.act execConversionStart
  dsimp only
  split
  · exact .refl s
  split
  · exact .refl s
  · exact State.when_kept (.refl s) fun _ h => State.startConv_kept
      (.ite (State.endConv_kept (.ite (State.endConv_kept h) h)) (.ite (State.endConv_kept h) h))

theorem execInstructionRetire_kept (n : Fin 24) (e : Engine) (s : State) : Kept s (s.act (execInstructionRetire n e)) := by
  unfold State.act execInstructionRetire
  dsimp only
  split
  · exact .refl s
  · exact State.when_kept (.refl s) fun _ h => State.settle_kept <| State.retire_kept <|
      State.modStation_kept (State.engineEffect_kept (State.endConvs_kept h)) fun _ ht => Station.dequeue_memWf ht

theorem execMarkSignalVisible_kept (n : Fin 24) (s : State) : Kept s (s.act (execMarkSignalVisible n)) := by
  unfold State.act execMarkSignalVisible
  dsimp only
  split
  · exact .refl s
  · exact State.when_kept (.refl s) fun _ h => State.settle_kept <|
      State.modStation_mems_kept (State.addMark_kept h) fun _ => by with_reducible rfl

theorem execMwait_kept (n : Fin 24) (w : BitVec 52) (s : State) : Kept s (s.act (execMwait n w)) := by
  unfold State.act execMwait
  dsimp only
  exact State.issue_kept (.refl s) fun _ h => .ite (State.advanced_kept h fun _ ht => ht) (State.modStation_mems_kept h fun _ => by with_reducible rfl)

theorem execMarkWaitEnd_kept (n : Fin 24) (s : State) : Kept s (s.act (execMarkWaitEnd n)) := by
  unfold State.act execMarkWaitEnd
  dsimp only
  split
  · exact .refl s
  · exact State.when_kept (.refl s) fun _ h => State.retire_kept <|
      State.modStation_kept h fun _ ht => Station.memWf_of (Station.advance_memWf ht) (by with_reducible rfl)

theorem execBar_kept (n : Fin 24) (w : BitVec 52) (s : State) : Kept s (s.act (execBar n w)) := by
  unfold State.act execBar
  dsimp only
  exact .ite (.refl s) <| State.issue_kept (.refl s) fun _ h =>
    .ite (State.settleAll_kept (State.barFaults_kept h))
      (State.settleAll_kept (State.barCheck_kept (State.modStation_mems_kept h fun _ => by with_reducible rfl)))

theorem execBarrierRelease_kept (q : Fin 16) (b : Fin 4) (s : State) : Kept s (s.act (execBarrierRelease q b)) := by
  unfold State.act execBarrierRelease
  dsimp only
  split
  · exact .refl s
  split
  · exact .refl s
  · exact State.when_kept (.refl s) fun _ h => Kept.foldl _ h fun _ n h => State.retire_kept <|
      State.modStation_kept h fun _ ht => Station.memWf_of (Station.advance_memWf ht) (by with_reducible rfl)

theorem execSFence_kept (n : Fin 24) (w : BitVec 52) (s : State) : Kept s (s.act (execSFence n w)) := by
  unfold State.act execSFence
  dsimp only
  exact .ite (.refl s) (State.issueScalar_kept (.refl s) fun _ ht => ht)

theorem execBrc_kept (n : Fin 24) (w : BitVec 52) (s : State) : Kept s (s.act (execBrc n w)) := by
  unfold State.act execBrc
  dsimp only
  exact .ite (State.takeBranch_kept (.refl s) fun _ ht => ht) (State.issueScalar_kept (.refl s) fun _ ht => ht)

theorem execEndProg_kept (n : Fin 24) (w : BitVec 52) (s : State) : Kept s (s.act (execEndProg n w)) := by
  unfold State.act execEndProg
  dsimp only
  exact State.issue_kept (.refl s) fun _ h => State.settleAll_kept <|
    Kept.foldl _ (State.retire_kept (State.modStation_mems_kept h fun _ => by with_reducible rfl)) fun _ _ h => State.barCheck_kept h

theorem execKick_kept (n : Fin 24) (s : State) : Kept s (s.act (execKick n)) := by
  unfold State.act execKick
  dsimp only
  split
  · exact .refl s
  · exact State.when_kept (.refl s) fun _ h => State.settle_kept <| State.chansSettle_kept <|
      State.modStation_mems_kept (State.kickArrive_kept h) fun _ => by with_reducible rfl

/-! ### Arrays -/

theorem execProgrammerStart_kept (s : State) : Kept s (s.act execProgrammerStart) := by
  unfold State.act execProgrammerStart
  dsimp only
  refine State.when_kept (.refl s) fun s' h => ?_
  split
  · exact State.modMain_kept (State.setProg_kept h) rfl rfl rfl
  · exact h

theorem execArrayProgrammingEnd_kept (k : Fin 4) (failCells : Fin 266241) (maxIter : Fin 17) (s : State) :
    Kept s (s.act (execArrayProgrammingEnd k failCells maxIter)) := by
  unfold State.act execArrayProgrammingEnd
  dsimp only
  split
  · exact .refl s
  · exact State.when_kept (.refl s) fun _ h => State.endProgramming_kept h

/-! ### Traverse channels -/

theorem execPaused_kept (ch : Fin 16) (s : State) : Kept s (s.act (execPaused ch)) := by
  unfold State.act execPaused
  dsimp only
  exact State.when_kept (.refl s) fun s' h => by
    have hu : Kept s (if (s'.chan ch).pause || (s'.chan ch).cancelling then s'.until fun v => v.chanDrained ch else s') :=
      .ite (State.until_kept h) h
    exact .ite hu (.ite (State.chansSettle_kept (State.cancelDone_kept hu)) (.ite (State.modChan_kept hu) hu))

theorem execTick_kept (g : Fin 4) (s : State) : Kept s (s.act (execTick g)) := by
  unfold State.act execTick
  dsimp only
  exact State.when_kept (.refl s) fun _ h => State.chansSettle_kept <|
    Kept.foldl _ (State.modMain_kept h rfl rfl rfl) fun _ _ h => State.tickChan_kept h

theorem execTraverseReadCompletion_kept (who : Requester) (gen : BitVec 8) (data : List (BitVec 8)) (s : State) :
    Kept s (s.act (execTraverseReadCompletion who gen data)) := by
  unfold State.act execTraverseReadCompletion
  dsimp only
  refine State.when_kept (.refl s) fun s' h => ?_
  split
  · exact State.chansSettle_kept (State.chanRead_kept (State.until_kept h))
  · exact State.freshReply_kept h fun _ h => State.programmerRead_kept h
  · exact State.freshReply_kept h fun _ h => State.setParcelsRead_kept h
  · exact State.freshReply_kept h fun _ h => State.tablesRead_kept h
  · exact h
  · exact h

theorem execDescriptorEnd_kept (ch : Fin 16) (s : State) : Kept s (s.act (execDescriptorEnd ch)) := by
  unfold State.act execDescriptorEnd
  dsimp only
  refine State.when_kept (.refl s) fun s' h => ?_
  have hu : Kept s (s'.until fun v => (v.chan ch).cur.all Active.done) := State.until_kept h
  split
  · exact hu
  · exact State.when_kept hu fun _ h => State.chansSettle_kept (State.descNext_kept (State.descSignals_kept h))

theorem execAccessFail_kept (who : Requester) (s : State) : Kept s (s.act (execAccessFail who)) := by
  unfold State.act execAccessFail
  dsimp only
  refine State.when_kept (.refl s) fun s' h => ?_
  split
  · exact State.chansSettle_kept (State.until_kept (State.chansSettle_kept (State.chanFail_kept (State.until_kept h))))
  · exact State.programmerFail_kept h
  · exact State.setParcelsFail_kept h
  · exact State.tablesFail_kept h
  · exact State.attestFail_kept h
  · split
    · exact State.abandonSample_kept h
    · exact h

/-! ### Queues and jobs -/

theorem execDescriptorFetch_kept (q : Fin 16) (reply : Option (BitVec 512)) (s : State) :
    Kept s (s.act (execDescriptorFetch q reply)) := by
  unfold State.act execDescriptorFetch
  dsimp only
  refine State.when_kept (.refl s) fun s' h => ?_
  cases reply with
  | some d => exact State.modQueue_kept (State.modMain_kept h rfl rfl rfl)
  | none => exact State.raise_kept (State.modQueue_kept h)

theorem execJobStart_kept (q : Fin 16) (s : State) : Kept s (s.act (execJobStart q)) := by
  unfold State.act execJobStart
  dsimp only
  split
  · exact .refl s
  · refine .ite (.refl s) ?_
    split
    · exact State.badDescriptor_kept (.refl s)
    · exact .ite (.refl s) <| .ite (.ite (State.modJob_kept (State.claimStations_kept (.refl s))) (.refl s))
        (State.modJob_kept (.refl s))

theorem execRunProgram_kept (q : Fin 16) (s : State) : Kept s (s.act (execRunProgram q)) := by
  unfold State.act execRunProgram
  dsimp only
  refine State.onJob_kept (.refl s) fun j => State.checked_kept (.refl s) fun s' h => State.modJob_kept <| Kept.rest ?_
  refine State.modMain_ofFn_kept h rfl (fun n hn => ?_) rfl rfl
  split
  · exact Station.launch_memWf hn
  · exact hn

theorem execCopy_kept (q : Fin 16) (s : State) : Kept s (s.act (execCopy q)) := by
  unfold State.act execCopy
  dsimp only
  exact State.onJob_kept (.refl s) fun _ => State.checked_kept (.refl s) fun _ h => State.ranged_kept h fun _ h =>
    State.ranged_kept h fun _ h => State.chansSettle_kept <| State.modChan_kept <| State.setRunning_kept <| State.nextStamp_kept h

theorem execSignatureEngineStart_kept (s : State) : Kept s (s.act execSignatureEngineStart) := by
  unfold State.act execSignatureEngineStart
  dsimp only
  refine State.when_kept (.refl s) fun s' h => ?_
  split
  · exact h
  · split
    · split
      · exact State.modJobOrder_kept (State.modIdk_kept h rfl)
      · exact State.modIdk_kept (State.modIdk_kept h rfl) rfl
    · exact State.modIdk_kept h rfl

/-! ### NAND dies -/

theorem execNandOperationStart_kept (u : Fin 32) (s : State) : Kept s (s.act (execNandOperationStart u)) := by
  unfold State.act execNandOperationStart
  dsimp only
  split
  · exact .refl s
  · exact .ite (.refl s) <| .ite (State.startReset_kept (.refl s)) <|
      .ite (State.startSetup_kept (.refl s)) (State.startOp_kept (.refl s))

theorem execStatusPoll_kept (u : Fin 32) (ready fail : Bool) (s : State) : Kept s (s.act (execStatusPoll u ready fail)) := by
  unfold State.act execStatusPoll
  dsimp only
  split
  · exact .refl s
  · exact State.when_kept (.refl s) fun _ h => State.when_kept (State.send_kept h) fun _ h => State.polled_kept h

theorem execCodewordDecode_kept (u : Fin 32) (k : Fin 5) (outcome : DecodeOutcome) (s : State) :
    Kept s (s.act (execCodewordDecode u k outcome)) := by
  unfold State.act execCodewordDecode
  dsimp only
  split
  · exact .refl s
  · exact State.when_kept (.refl s) fun _ h => State.ladderStep_kept (State.decodeOne_kept (State.beginMove_kept h))

theorem execNandOperationEnd_kept (u : Fin 32) (data : List (BitVec 8)) (s : State) :
    Kept s (s.act (execNandOperationEnd u data)) := by
  unfold State.act execNandOperationEnd
  dsimp only
  split
  · exact .refl s
  · refine State.when_kept (.refl s) fun s' h => ?_
    split
    · exact State.endRead_kept h
    · exact .ite (State.endOp_kept (State.spoil_kept h)) (State.endOp_kept h)
    · exact .ite (State.endOp_kept (State.spoil_kept h)) (State.endOp_kept h)
    · exact State.endOp_kept (State.when_kept h fun _ h => State.setupDone_kept h)
    · exact State.endOp_kept (State.nandData_kept h)
    · exact .ite (State.endOp_kept h) (State.endOp_kept (State.nandData_kept h))
    · exact State.endOp_kept (State.modLun_kept (State.modLun_kept h))

theorem execNandTimeout_kept (u : Fin 32) (s : State) : Kept s (s.act (execNandTimeout u)) := by
  unfold State.act execNandTimeout
  dsimp only
  split
  · exact .refl s
  · refine State.when_kept (.refl s) fun s' h => .ite (State.nandSettle_kept (State.loseTarget_kept h)) <|
      .ite (State.modLun_kept h) <| State.nandSettle_kept <| Kept.foldl _ (State.modLun_kept ?_) fun _ _ h => State.opEnded_kept h
    exact .ite (Kept.foldl _ h fun _ _ h => State.spoil_kept (State.suspect_kept h)) h

/-! ### The link and contexts -/

theorem execResponseTimeout_kept (tag : Fin 64) (s : State) : Kept s (s.act (execResponseTimeout tag)) := by
  unfold State.act execResponseTimeout
  dsimp only
  refine State.when_kept (.refl s) fun s' h => ?_
  split
  · exact h
  · split
    · exact .ite (State.linkSettle_kept (State.tagFails_kept (State.setTag_kept h))) (State.linkSettle_kept (State.setTag_kept h))
    · exact State.linkSettle_kept (State.setTag_kept h)

theorem execLinkTrainingEnd_kept (p : Fin 2) (width : Option (Fin 3)) (s : State) :
    Kept s (s.act (execLinkTrainingEnd p width)) := by
  unfold State.act execLinkTrainingEnd
  dsimp only
  refine State.when_kept (.refl s) fun s' h => ?_
  cases width with
  | some w => exact State.queueMsg_kept (State.modPort_kept h)
  | none => exact State.linkSettle_kept (State.portDown_kept h)

theorem execBindingActivate_kept (c : Fin 8) (s : State) : Kept s (s.act (execBindingActivate c)) := by
  unfold State.act execBindingActivate
  dsimp only
  split
  · exact .refl s
  · exact State.when_kept (.refl s) fun _ h => State.noticeCheck_kept (State.modBind_kept h)

theorem execContextResetSequence_kept (c : Fin 8) (s : State) : Kept s (s.act (execContextResetSequence c)) := by
  unfold State.act execContextResetSequence
  dsimp only
  refine State.when_kept (.refl s) fun s' h => ?_
  split
  · exact State.resetSteps_kept h
  · exact h

theorem execSampleTimeout_kept (c : Fin 8) (s : State) : Kept s (s.act (execSampleTimeout c)) := by
  unfold State.act execSampleTimeout
  dsimp only
  split
  · exact .refl s
  · exact State.abandonSample_kept (.refl s)

theorem execRevocation_kept (c : Fin 8) (s : State) : Kept s (s.act (execRevocation c)) := by
  unfold State.act execRevocation
  dsimp only
  split
  · exact .refl s
  · refine State.when_kept (.refl s) fun s' h => ?_
    split
    · exact State.resetFrom5_kept (State.revokeStations_kept h)
    · exact State.resetFrom6_kept (State.revokeChans_kept h)
    · exact State.finishReset_kept (State.stopProgramming_kept (Kept.foldl _ h fun _ _ h => State.giveUp_kept h))
    · exact h

theorem execParcelTableActivate_kept (c : Fin 8) (s : State) : Kept s (s.act (execParcelTableActivate c)) := by
  unfold State.act execParcelTableActivate
  dsimp only
  split
  · exact .refl s
  · exact State.when_kept (.refl s) fun _ h => State.modCtx_kept h

/-! ### Power, resets and boot -/

theorem execVcoreForce_kept (vcore : BitVec 8) (s : State) : Kept s (s.act (execVcoreForce vcore)) := by
  unfold State.act execVcoreForce
  dsimp only
  exact State.when_kept (.refl s) fun _ h =>
    .ite (State.modPwr_kept (State.fbEntry_kept (State.modPwr_kept h))) (State.modPwr_kept h)

theorem execDormantEntry_kept (s : State) : Kept s (s.act execDormantEntry) := by
  unfold State.act execDormantEntry
  dsimp only
  exact State.when_kept (.refl s) fun _ h => .ite (State.enterDormant_kept h) (State.cancelNotice_kept h)

theorem execPerst_kept (s : State) : Kept s (s.act execPerst) := by
  unfold State.act execPerst
  dsimp only
  exact .ite (.refl s) <| .ite (Kept.rest (State.deviceReset_kept (.refl s))) <| .ite (Kept.rest (.refl s)) (Kept.rest (.refl s))

theorem execPerstNRelease_kept (boot : BootInputs) (s : State) : Kept s (s.act (execPerstNRelease boot)) := by
  unfold State.act execPerstNRelease
  dsimp only
  exact .ite (.ite (State.startMain_kept (Kept.rest (.refl s))) (Kept.rest (.refl s))) (Kept.rest (.refl s))

theorem execFlr_kept (boot : BootInputs) (s : State) : Kept s (s.act (execFlr boot)) := by
  unfold State.act execFlr
  dsimp only
  exact State.when_kept (.refl s) fun _ h => State.flrCheck_kept <| Kept.rest <|
    .ite (Kept.foldl _ h fun _ _ h => .ite (State.sendAbort_kept h) h) h

theorem execFlrNandWait_kept (s : State) : Kept s (s.act execFlrNandWait) := by
  unfold State.act execFlrNandWait
  dsimp only
  split
  · exact .refl s
  · exact State.flrCheck_kept (Kept.foldl _ (.refl s) fun _ _ h => .ite (State.giveUp_kept h) h)

theorem execDftEn_kept (s : State) : Kept s (s.act execDftEn) := by
  have hs : Kept s { s with dftHigh := true } := Kept.rest (.refl s)
  have hcut : ∀ {phase aon}, Kept s (State.freshMain { ({ s with dftHigh := true } : State).cutWork with phase := phase, aon := aon }) :=
    Kept.fresh (State.cutCells_kept hs)
  unfold State.act execDftEn
  dsimp only
  split
  case h_6 => exact hs
  all_goals exact hcut

theorem execSupplyWarn_kept (vsys : BitVec 13) (s : State) : Kept s (s.act (execSupplyWarn vsys)) := by
  unfold State.act execSupplyWarn
  dsimp only
  refine State.when_kept (.refl s) fun s' h => State.noticeCheck_kept (State.modPwr_kept ?_)
  split
  · exact State.fbEntry_kept (State.raiseIf_kept (State.modSup_kept (State.modAon_kept h)))
  · exact State.flush_kept (State.fbEntry_kept (State.raiseIf_kept (State.modSup_kept (State.modAon_kept h))))

theorem execFieldBookFlushEnd_kept (s : State) : Kept s (s.act execFieldBookFlushEnd) := by
  unfold State.act execFieldBookFlushEnd
  dsimp only
  split
  · exact .refl s
  · split
    · exact State.flushStart_kept (Kept.rest (.refl s))
    · exact Kept.rest (.refl s)

/-! ### Identity, serial ports, registers -/

theorem execPmkBurnEnd_kept (s : State) : Kept s (s.act execPmkBurnEnd) := by
  unfold State.act execPmkBurnEnd
  dsimp only
  rw [State.when]
  split
  case isFalse => exact .refl s
  case isTrue hgo =>
    have hburn : s.main.idk.burnBusy = true := (Bool.and_eq_true_iff.mp hgo).2
    refine State.fbEntry_kept ?_
    rw [Kept.iff]
    refine ⟨?_, fun _ => ?_, rfl, fun hsafe hset => ?_⟩
    · rw [State.memWf_iff, State.memWf_iff]
      exact id
    · rfl
    · exact absurd (by simpa [State.otpSafe, hburn] using hsafe) hset

theorem execVerifyEnd_kept (req img : HostReply) (s : State) : Kept s (s.act (execVerifyEnd req img)) := by
  unfold State.act execVerifyEnd
  dsimp only
  split
  · exact State.when_kept (.refl s) fun _ h => State.modIdk_kept (State.nextStamp_kept (State.idkWrite_kept h)) rfl
  · exact .refl s

theorem execFalseStart_kept (u : Fin 2) (start : StartBit) (s : State) : Kept s (s.act (execFalseStart u start)) := by
  unfold State.act execFalseStart
  dsimp only
  exact State.when_kept (.refl s) fun _ h => .ite (State.modLin_kept h) (.ite (State.modUart_kept h) h)

theorem execBreakSeen_kept (s : State) : Kept s (s.act execBreakSeen) := by
  unfold State.act execBreakSeen
  dsimp only
  exact State.when_kept (.refl s) fun _ h => .ite (State.modLin_kept h) (State.nextStamp_kept (State.modLin_kept (State.modLin_kept h)))

theorem execRegisterWrite_kept (r : HostWrite) (reply : HostReply) (s : State) : Kept s (s.act (execRegisterWrite r reply)) := by
  have hs : Kept s { s with readUr := r.window == Window.unsupported } := Kept.rest (.refl s)
  unfold State.act execRegisterWrite
  dsimp only
  split
  · exact State.barWrite_kept hs
  · exact State.msixPageWrite_kept hs
  · exact State.doorbellPageWrite_kept hs
  · exact State.configWrite_kept hs
  · exact hs

theorem execLowWordRead_kept (r : HostRead) (s : State) : Kept s (s.act (execLowWordRead r)) := by
  have hs : Kept s { s with readUr := r.window == Window.unsupported } := Kept.rest (.refl s)
  unfold State.act execLowWordRead
  dsimp only
  split
  · exact State.barRead_kept hs
  · exact Kept.rest hs
  · exact Kept.rest hs
  · exact Kept.rest hs
  · exact Kept.rest hs

theorem execMgtRead_kept (addr : MgtAddr) (count : Nat) (s : State) : Kept s (s.act (execMgtRead addr count)) := by
  unfold State.act execMgtRead
  dsimp only
  exact .ite (Kept.rest (.refl s)) (.ite (Kept.rest (State.mgtReadBytes_kept (.refl s))) (Kept.rest (.refl s)))

theorem execFlit_kept (p : Fin 2) (f : BitVec 512) (s : State) : Kept s (s.act (execFlit p f)) := by
  unfold State.act execFlit
  dsimp only
  exact State.when_kept (.refl s) fun _ h =>
    .ite (State.modPort_kept h) (.ite (State.modPort_kept h) (State.linkSettle_kept (State.takeFlit_kept h)))

/-! ### Every command -/

/-- Every command answers a next state, whose memories are canonical and whose fuses stand where those of the state before did. -/
theorem exec_kept (c : Instr) (s : State) : ∃ t, exec c s = .next t ∧ Kept s t := by
  cases c
  case sqTail => exact ⟨_, rfl, State.actSqTail_kept (.refl s)⟩
  case cqHead => exact ⟨_, rfl, State.actCqHead_kept (.refl s)⟩
  case hqCommit => exact ⟨_, rfl, State.actHqCommit_kept (.refl s)⟩
  case queueConfigActivate => exact ⟨_, rfl, State.when_kept (.refl s) fun _ h => State.modQueue_kept h⟩
  case descriptorFetch => exact ⟨_, rfl, execDescriptorFetch_kept _ _ s⟩
  case jobStart => exact ⟨_, rfl, execJobStart_kept _ s⟩
  case jobEnd => exact ⟨_, rfl, State.when_kept (.refl s) fun _ h => State.jobEnd_kept h⟩
  case msixUnmask => exact ⟨_, rfl, State.when_kept (.refl s) fun _ h => State.hostMsix_kept h⟩
  case hqMark => exact ⟨_, rfl, State.actHqMark_kept (.refl s)⟩
  case glbHostwin => exact ⟨_, rfl, State.actGlbHostwin_kept (.refl s)⟩
  case glbBootGo => exact ⟨_, rfl, State.actGlbBootGo_kept (.refl s)⟩
  case flr => exact ⟨_, rfl, execFlr_kept _ s⟩
  case perst => exact ⟨_, rfl, execPerst_kept s⟩
  case perstNRelease => exact ⟨_, rfl, execPerstNRelease_kept _ s⟩
  case d3hot => exact ⟨_, rfl, State.actD3hot_kept (.refl s)⟩
  case returnToD0 => exact ⟨_, rfl, State.actReturnToD0_kept (.refl s)⟩
  case runProgram => exact ⟨_, rfl, execRunProgram_kept _ s⟩
  case loadArraysWeights =>
    exact ⟨_, rfl, State.onJob_kept (.refl s) fun _ => .ite (.refl s) <| State.checked_kept (.refl s) fun _ h => State.ranged_kept h fun _ h =>
    State.modMain_kept (State.setRunning_kept h) rfl rfl rfl⟩
  case loadArraysTables =>
    exact ⟨_, rfl, State.onJob_kept (.refl s) fun _ => .ite (.refl s) <| State.checked_kept (.refl s) fun _ h => State.ranged_kept h fun _ h =>
    State.setRunning_kept h⟩
  case nandIoRead | nandIoProgram | nandIoErase | nandIoSetFeatures | nandIoGetFeatures | nandIoReadParam |
    nandIoReset =>
    exact ⟨_, rfl, State.nandIo_kept (.refl s)⟩
  case copy => exact ⟨_, rfl, execCopy_kept _ s⟩
  case fence =>
    exact ⟨_, rfl, State.onJob_kept (.refl s) fun _ => State.checked_kept (.refl s) fun _ h => .ite h (State.setEnd_kept h)⟩
  case markOpAdd => exact ⟨_, rfl, State.markOp_kept (.refl s) fun _ _ _ h => State.addMark_kept h⟩
  case markOpSet => exact ⟨_, rfl, State.markOp_kept (.refl s) fun _ _ _ h => State.setMark_kept h⟩
  case timestamp =>
    exact ⟨_, rfl, State.onJob_kept (.refl s) fun _ => State.checked_kept (.refl s) fun _ h => State.setEnd_kept h⟩
  case attest =>
    exact ⟨_, rfl, State.onJob_kept (.refl s) fun _ => State.checked_kept (.refl s) fun _ h => State.ranged_kept h fun _ h =>
    State.modIdk_kept (State.setRunning_kept h) rfl⟩
  case signatureEngineStart => exact ⟨_, rfl, execSignatureEngineStart_kept s⟩
  case setParcels =>
    exact ⟨_, rfl, State.onJob_kept (.refl s) fun _ => State.checked_kept (.refl s) fun _ h => State.ranged_kept h fun _ h =>
    State.setRunning_kept h⟩
  case nop => exact ⟨_, rfl, State.issueScalar_kept (.refl s) fun _ ht => ht⟩
  case add | sub | and | or | xor | shl | shr | sra | mul | min | max | slt | sltu | seq =>
    exact ⟨_, rfl, State.alu_kept (.refl s)⟩
  case movhi | dget | rdtime => exact ⟨_, rfl, State.issueScalar_kept (.refl s) fun _ ht => Station.wg_memWf ht⟩
  case ld64 | ld32 => exact ⟨_, rfl, State.scalarLoad_kept (.refl s)⟩
  case st64 => exact ⟨_, rfl, execSt64_kept _ _ s⟩
  case st32 => exact ⟨_, rfl, State.scalarStore_kept (.refl s)⟩
  case dset | doff => exact ⟨_, rfl, State.issueScalar_kept (.refl s) fun _ ht => Station.wd_memWf ht⟩
  case vadd | vsub | vmul | vfma | vmax | vmin | vbcast | vcmplt | vcmpeq | vredsum | vredmax | vld | vst | vsta =>
    exact ⟨_, rfl, State.issueVec_kept (.refl s)⟩
  case mLd | mSt | mSta => exact ⟨_, rfl, State.issueXfer_kept (.refl s)⟩
  case mma | mmaz | aclr | aconv | maa | qnt | dqn | qact => exact ⟨_, rfl, State.issueEngine_kept (.refl s)⟩
  case msig => exact ⟨_, rfl, State.issue_kept (.refl s) fun _ h => State.issueSignal_kept h⟩
  case mwait => exact ⟨_, rfl, execMwait_kept _ _ s⟩
  case bar => exact ⟨_, rfl, execBar_kept _ _ s⟩
  case sFence => exact ⟨_, rfl, execSFence_kept _ _ s⟩
  case br | jr => exact ⟨_, rfl, State.takeBranch_kept (.refl s) fun _ ht => ht⟩
  case brc => exact ⟨_, rfl, execBrc_kept _ _ s⟩
  case call => exact ⟨_, rfl, State.takeBranch_kept (.refl s) fun _ ht => Station.wg_memWf ht⟩
  case loop =>
    exact ⟨_, rfl, State.issue_kept (.refl s) fun _ h => State.retire_kept (State.modStation_kept h fun _ ht => Station.openLoop_memWf ht)⟩
  case endProg => exact ⟨_, rfl, execEndProg_kept _ _ s⟩
  case eopen =>
    exact ⟨_, rfl, State.issue_kept (.refl s) fun _ h => State.advanced_kept (State.modCtx_kept h) fun _ ht => Station.wg_memWf ht⟩
  case ecloseCommit => exact ⟨_, rfl, State.eclose_kept (.refl s) fun _ _ h => State.commitEpoch_kept h⟩
  case ecloseDiscard => exact ⟨_, rfl, State.eclose_kept (.refl s) fun _ _ h => State.discardEpochs_kept h⟩
  case efence =>
    exact ⟨_, rfl, State.issueClosed_kept (.refl s) fun _ h => State.advanced_kept h fun _ ht => Station.wg_memWf ht⟩
  case instructionRetire => exact ⟨_, rfl, execInstructionRetire_kept _ _ s⟩
  case conversionStart => exact ⟨_, rfl, execConversionStart_kept _ s⟩
  case markSignalVisible => exact ⟨_, rfl, execMarkSignalVisible_kept _ s⟩
  case markWaitEnd => exact ⟨_, rfl, execMarkWaitEnd_kept _ s⟩
  case barrierRelease => exact ⟨_, rfl, execBarrierRelease_kept _ _ s⟩
  case kick => exact ⟨_, rfl, execKick_kept _ s⟩
  case programmerStart => exact ⟨_, rfl, execProgrammerStart_kept s⟩
  case arrayProgrammingEnd => exact ⟨_, rfl, execArrayProgrammingEnd_kept _ _ _ s⟩
  case heldTableWrite =>
    exact ⟨_, rfl, State.when_kept (.refl s) fun _ h => State.modStation_kept h fun _ ht => Station.releaseWrite_memWf ht⟩
  case stnBenchCtrl => exact ⟨_, rfl, State.actStnBenchCtrl_kept (.refl s)⟩
  case benchmarkMeasurementEnd =>
    exact ⟨_, rfl, State.when_kept (.refl s) fun _ h => State.modStation_mems_kept h fun _ => by with_reducible rfl⟩
  case trvStart => exact ⟨_, rfl, State.actTrvStart_kept (.refl s)⟩
  case trvPause => exact ⟨_, rfl, State.actTrvPause_kept (.refl s)⟩
  case paused => exact ⟨_, rfl, execPaused_kept _ s⟩
  case trvResume => exact ⟨_, rfl, State.actTrvResume_kept (.refl s)⟩
  case trvCancel => exact ⟨_, rfl, State.actTrvCancel_kept (.refl s)⟩
  case trvChnOwner => exact ⟨_, rfl, State.actTrvChnOwner_kept (.refl s)⟩
  case trvChnCommit => exact ⟨_, rfl, State.actTrvChnCommit_kept (.refl s)⟩
  case tick => exact ⟨_, rfl, execTick_kept _ s⟩
  case traverseDescriptorFetch =>
    exact ⟨_, rfl, State.when_kept (.refl s) fun _ h => State.fetched_kept (State.until_kept h)⟩
  case traverseReadCompletion => exact ⟨_, rfl, execTraverseReadCompletion_kept _ _ _ s⟩
  case descriptorEnd => exact ⟨_, rfl, execDescriptorEnd_kept _ s⟩
  case accessFail => exact ⟨_, rfl, execAccessFail_kept _ s⟩
  case tckCommit => exact ⟨_, rfl, State.actTckCommit_kept (.refl s)⟩
  case nfcCommit => exact ⟨_, rfl, State.actNfcCommit_kept (.refl s)⟩
  case nfcSetActivate => exact ⟨_, rfl, State.when_kept (.refl s) fun _ h => State.modNfc_kept h⟩
  case nandOperationStart => exact ⟨_, rfl, execNandOperationStart_kept _ s⟩
  case statusPoll => exact ⟨_, rfl, execStatusPoll_kept _ _ _ s⟩
  case nandOperationEnd => exact ⟨_, rfl, execNandOperationEnd_kept _ _ s⟩
  case codewordDecode => exact ⟨_, rfl, execCodewordDecode_kept _ _ _ s⟩
  case nandTimeout => exact ⟨_, rfl, execNandTimeout_kept _ s⟩
  case oklCommit => exact ⟨_, rfl, State.actOklCommit_kept (.refl s)⟩
  case oklCtxCommit => exact ⟨_, rfl, State.actOklCtxCommit_kept (.refl s)⟩
  case bindingActivate => exact ⟨_, rfl, execBindingActivate_kept _ s⟩
  case retrain => exact ⟨_, rfl, State.actRetrain_kept (.refl s)⟩
  case portDisable => exact ⟨_, rfl, State.actPortDisable_kept (.refl s)⟩
  case linkTrainingEnd => exact ⟨_, rfl, execLinkTrainingEnd_kept _ _ s⟩
  case hello => exact ⟨_, rfl, State.when_kept (.refl s) fun _ h => State.linkSettle_kept (State.onHello_kept h)⟩
  case write | read | markAdd | flush | readResp | flushAck | errResp | abort =>
    exact ⟨_, rfl, State.message_kept (.refl s)⟩
  case nak =>
    exact ⟨_, rfl, State.when_kept (.refl s) fun _ h => State.linkSettle_kept (State.checkNaks_kept (State.pumpAll_kept (State.modPort_kept h)))⟩
  case ackInterval => exact ⟨_, rfl, State.when_kept (.refl s) fun _ h => State.modPort_kept h⟩
  case linkSilence => exact ⟨_, rfl, State.when_kept (.refl s) fun _ h => State.linkSettle_kept (State.portDown_kept h)⟩
  case responseTimeout => exact ⟨_, rfl, execResponseTimeout_kept _ s⟩
  case ctxReset => exact ⟨_, rfl, State.actCtxReset_kept (.refl s)⟩
  case contextResetSequence => exact ⟨_, rfl, execContextResetSequence_kept _ s⟩
  case sampleTimeout => exact ⟨_, rfl, execSampleTimeout_kept _ s⟩
  case revocation => exact ⟨_, rfl, execRevocation_kept _ s⟩
  case ctxEscCommit => exact ⟨_, rfl, State.actCtxEscCommit_kept (.refl s)⟩
  case ctxPtCommit => exact ⟨_, rfl, State.actCtxPtCommit_kept (.refl s)⟩
  case parcelTableActivate => exact ⟨_, rfl, execParcelTableActivate_kept _ s⟩
  case shmMode => exact ⟨_, rfl, State.actShmMode_kept (.refl s)⟩
  case shmCntClear => exact ⟨_, rfl, State.actShmCntClear_kept (.refl s)⟩
  case stnCntClear => exact ⟨_, rfl, State.actStnCntClear_kept (.refl s)⟩
  case stnExecClear => exact ⟨_, rfl, State.actStnExecClear_kept (.refl s)⟩
  case nfcCntClear => exact ⟨_, rfl, State.actNfcCntClear_kept (.refl s)⟩
  case ctxSpecClear => exact ⟨_, rfl, State.actCtxSpecClear_kept (.refl s)⟩
  case pwrClkCtrl => exact ⟨_, rfl, State.when_kept (.refl s) fun _ h => State.writeDiv_kept (State.modPwr_kept h)⟩
  case dividerSwitch | trimEntry => exact ⟨_, rfl, State.when_kept (.refl s) fun _ h => State.modPwr_kept h⟩
  case vcoreForce => exact ⟨_, rfl, execVcoreForce_kept _ s⟩
  case pllUnlock => exact ⟨_, rfl, State.when_kept (.refl s) fun _ h =>
    State.flush_kept (State.fbEntry_kept (State.assertFault_kept (State.setLink_kept (Kept.rest h))))⟩
  case pllNoLock =>
    exact ⟨_, rfl, State.when_kept (.refl s) fun _ h => State.flush_kept <| State.fbEntry_kept <| State.fbEntry_kept <|
    State.assertFault_kept <| State.modAon_kept <| State.setLink_kept <| Kept.rest h⟩
  case strapLatch => exact ⟨_, rfl, State.when_kept (.refl s) fun _ h => State.wakeSequence_kept (State.modAon_kept h)⟩
  case firmwareStart => exact ⟨_, rfl, State.when_kept (.refl s) fun _ h => State.firmwareStart_kept h⟩
  case fwStartTimeout => exact ⟨_, rfl, State.when_kept (.refl s) fun _ h => State.bootFail_kept h⟩
  case holdEntry => exact ⟨_, rfl, State.when_kept (.refl s) fun _ h => State.enterHold_kept h⟩
  case forcedHold => exact ⟨_, rfl, State.when_kept (.refl s) fun _ h => State.forcedHold_kept h⟩
  case pwrForceHoldSet | pwrForceHoldClear => exact ⟨_, rfl, State.when_kept (.refl s) fun _ h => State.writeForce_kept h⟩
  case drainAbort => exact ⟨_, rfl, State.when_kept (.refl s) fun _ h => State.drainAbort_kept h⟩
  case holdWake => exact ⟨_, rfl, State.when_kept (.refl s) fun _ h => State.wakeHold_kept h⟩
  case dormantNotice => exact ⟨_, rfl, State.when_kept (.refl s) fun _ h => State.powerEvent_kept (State.modPwr_kept h)⟩
  case dormantNoticeCancel => exact ⟨_, rfl, State.when_kept (.refl s) fun _ h => State.noticeWrite_kept h⟩
  case dormantEntry => exact ⟨_, rfl, execDormantEntry_kept s⟩
  case dormantWake =>
    exact ⟨_, rfl, State.when_kept (.refl s) fun _ h => State.wakeSequence_kept (State.deviceReset_kept h)⟩
  case supplyWarn => exact ⟨_, rfl, execSupplyWarn_kept _ s⟩
  case warningRecovery => exact ⟨_, rfl, State.when_kept (.refl s) fun _ h => State.modSup_kept (State.modAon_kept h)⟩
  case holdoffEnd => exact ⟨_, rfl, State.when_kept (.refl s) fun _ h => State.modPwr_kept (State.modAon_kept h)⟩
  case borVsysRelease | supplyRetry => exact ⟨_, rfl, State.when_kept (.refl s) fun _ h => State.wakeSequence_kept h⟩
  case cold => exact ⟨_, rfl, Kept.rest (State.deviceReset_kept (.refl s))⟩
  case borLp | borVsys => exact ⟨_, rfl, State.when_kept (.refl s) fun _ h => Kept.rest (State.deviceReset_kept h)⟩
  case dftEn => exact ⟨_, rfl, execDftEn_kept s⟩
  case chargeSample => exact ⟨_, rfl, State.when_kept (.refl s) fun _ h => State.setCharge_kept (State.modSup_kept h)⟩
  case supCharge => exact ⟨_, rfl, State.actSupCharge_kept (.refl s)⟩
  case pwrPadRelease => exact ⟨_, rfl, State.actPwrPadRelease_kept (.refl s)⟩
  case fieldBookFlushEnd => exact ⟨_, rfl, execFieldBookFlushEnd_kept s⟩
  case fbkFlush => exact ⟨_, rfl, State.actFbkFlush_kept (.refl s)⟩
  case fbkDrvLog => exact ⟨_, rfl, State.actFbkDrvLog_kept (.refl s)⟩
  case idkPmkBurn => exact ⟨_, rfl, State.actIdkPmkBurn_kept (.refl s)⟩
  case pmkBurnEnd => exact ⟨_, rfl, execPmkBurnEnd_kept s⟩
  case idkCommit => exact ⟨_, rfl, State.actIdkCommit_kept (.refl s)⟩
  case idkVfyGo => exact ⟨_, rfl, State.actIdkVfyGo_kept (.refl s)⟩
  case verifyEnd => exact ⟨_, rfl, execVerifyEnd_kept _ _ s⟩
  case sernDataWrite => exact ⟨_, rfl, State.actSernDataWrite_kept (.refl s)⟩
  case sernDataRead => exact ⟨_, rfl, State.actSernDataRead_kept (.refl s)⟩
  case sernStatRead => exact ⟨_, rfl, State.actSernStatRead_kept (.refl s)⟩
  case sernCommit => exact ⟨_, rfl, State.actSernCommit_kept (.refl s)⟩
  case serSetActivate | characterStart | characterReceived =>
    exact ⟨_, rfl, State.when_kept (.refl s) fun _ h => State.modUart_kept h⟩
  case ser1LinHdr => exact ⟨_, rfl, State.actSer1LinHdr_kept (.refl s)⟩
  case ser1LinWake => exact ⟨_, rfl, State.actSer1LinWake_kept (.refl s)⟩
  case wakePulseEnd | pid | frameEnd | noResponse | wakeSeen =>
    exact ⟨_, rfl, State.when_kept (.refl s) fun _ h => State.modLin_kept h⟩
  case breakSeen => exact ⟨_, rfl, execBreakSeen_kept s⟩
  case hdrTimeout => exact ⟨_, rfl, State.when_kept (.refl s) fun _ h => State.nextStamp_kept (State.modLin_kept h)⟩
  case mgtRead => exact ⟨_, rfl, execMgtRead_kept _ _ s⟩
  case mgtWrite => exact ⟨_, rfl, State.when_kept (.refl s) fun _ h => State.mgtPutBytes_kept h⟩
  case mgtPwrCmdHoldSet | mgtPwrCmdHoldClear => exact ⟨_, rfl, State.mgtHold_kept (.refl s)⟩
  case mgtPwrCmdFlush => exact ⟨_, rfl, State.mgtFlush_kept (.refl s)⟩
  case mgtPwrCmdPadRelease => exact ⟨_, rfl, State.mgtPads_kept (.refl s)⟩
  case busTimeout => exact ⟨_, rfl, State.when_kept (.refl s) fun _ h => State.modMgmt_kept h⟩
  case mgtCopyRefresh => exact ⟨_, rfl, State.when_kept (.refl s) fun _ h => State.modMgmt_kept (State.modSup_kept h)⟩
  case lowWordRead => exact ⟨_, rfl, execLowWordRead_kept _ s⟩
  case fieldBookEntryRead => exact ⟨_, rfl, State.barRead_kept (.refl s)⟩
  case registerWrite => exact ⟨_, rfl, execRegisterWrite_kept _ _ s⟩
  case flit => exact ⟨_, rfl, execFlit_kept _ _ s⟩
  case undefinedOpcode => exact ⟨_, rfl, State.when_kept (.refl s) fun _ h => State.issue_kept h fun _ h => h⟩
  case falseStart => exact ⟨_, rfl, execFalseStart_kept _ _ s⟩
  case pcieLinkL0 => exact ⟨_, rfl, State.modAon_kept (State.when_kept (.refl s) fun _ h => State.setLink_kept h)⟩
  case wakeOutNTimeout => exact ⟨_, rfl, State.modAon_kept (.refl s)⟩
  case dftEnLow => exact ⟨_, rfl, .ite (State.startMain_kept (Kept.rest (.refl s))) (Kept.rest (.refl s))⟩
  case flrNandWait => exact ⟨_, rfl, execFlrNandWait_kept s⟩

/-- A step answers a next state, with what a step keeps. -/
theorem step_kept (s : State) : ∃ t, step s = .next t ∧ Kept s t := by
  unfold step
  split
  · exact ⟨_, rfl, State.clockTick_kept (.refl s)⟩
  · next c rest _ =>
    obtain ⟨t, ht, hk⟩ := exec_kept c { s with pending := rest }
    exact ⟨t, ht, (Kept.rest (.refl s)).trans hk⟩

/-- The state that a step answered has what a step keeps. -/
theorem kept_of_step {s t : State} (h : step s = .next t) : Kept s t := by
  obtain ⟨u, hu, hk⟩ := step_kept s
  rw [h, Host.Outcome.next.injEq] at hu
  exact hu ▸ hk

/-- Settles O32: every command keeps the canonical form of every memory. -/
theorem memoriesStayCanonical : Obligations.MemoriesStayCanonical :=
  fun _ _ hs ht => ((Kept.iff _ _).mp (kept_of_step ht)).1 hs

/-- Settles O33: every command keeps what manufacture wrote, and the whole of OTP once the hash is written. -/
theorem fusesBurnOnce : Obligations.FusesBurnOnce := by
  intro s t hs ht
  obtain ⟨-, hsafe, hmade, hotp⟩ := (Kept.iff _ _).mp (kept_of_step ht)
  exact ⟨hsafe hs, hmade, hotp hs⟩

/-- Settles O31, by induction on the number of steps: each of them answers a next state. -/
theorem everyStateIsSafe : Obligations.EveryStateIsSafe := by
  intro s k
  induction k generalizing s with
  | zero => exact ⟨s, rfl⟩
  | succ k ih =>
    obtain ⟨t, ht, -⟩ := step_kept s
    obtain ⟨u, hu⟩ := ih t
    have hstep : core.step s = .next t := ht
    exact ⟨u, by simpa only [Host.Core.run, hstep] using hu⟩

/-- Settles O1: the queue's front is the command that runs. -/
theorem stepRunsFrontCommand : Obligations.StepRunsFrontCommand := fun _ _ _ => rfl

end Sys2Proof.Machine

namespace Sys2Proof.Machine

/-! ## Bytes of a word (R3) -/

@[simp] theorem length_toBytes {w : Nat} (x : BitVec w) (n : Nat) : (toBytes x n).length = n := by simp [toBytes]

@[simp] theorem getElem_toBytes {w : Nat} (x : BitVec w) (n i : Nat) (h : i < (toBytes x n).length) :
    (toBytes x n)[i] = byteOf x i := by simp [toBytes]

theorem byteOf_toNat {w : Nat} (x : BitVec w) (i : Nat) : (byteOf x i).toNat = x.toNat / 256 ^ i % 256 := by
  have h : 2 ^ (8 * i) = 256 ^ i := by rw [Nat.pow_mul]
  simp [byteOf, BitVec.extractLsb'_toNat, Nat.shiftRight_eq_div_pow, h]

theorem toBytes_succ {w : Nat} (x : BitVec w) (n : Nat) : toBytes x (n + 1) = toBytes x n ++ [byteOf x n] := by
  simp [toBytes, List.range_succ]

theorem fromBytes_append (bs cs : List Byte) : fromBytes (bs ++ cs) = fromBytes bs + 256 ^ bs.length * fromBytes cs := by
  induction bs with
  | nil => simp [fromBytes]
  | cons b bs ih => simp only [List.cons_append, fromBytes, ih, List.length_cons, Nat.pow_succ]; ring

/-- The bytes of a word spell the word, cut to their number. -/
theorem fromBytes_toBytes {w : Nat} (x : BitVec w) (n : Nat) : fromBytes (toBytes x n) = x.toNat % 256 ^ n := by
  induction n with
  | zero => simp [toBytes, fromBytes, Nat.mod_one]
  | succ n ih => rw [toBytes_succ, fromBytes_append, ih, length_toBytes, Nat.pow_succ, Nat.mod_mul]; simp [fromBytes, byteOf_toNat]

theorem padTo_of_length {n : Nat} {bs : List Byte} (h : bs.length = n) : padTo n bs = bs := by
  subst h
  simp [padTo, zeros]

@[simp] theorem length_padTo (n : Nat) (bs : List Byte) : (padTo n bs).length = n := by
  simp [padTo, zeros]; omega

end Sys2Proof.Machine

namespace Sys2Proof.Machine

/-! ## The header of a link message (R256) -/

theorem toNat_ofNat_byte {n : Nat} (h : n < 256) : (BitVec.ofNat 8 n).toNat = n := by
  rw [BitVec.toNat_ofNat, Nat.mod_eq_of_lt h]

/-- Header bytes 1: SRC and DST. -/
theorem leAt_msgBytes_ids (m : Msg) : leAt (msgBytes m) 1 1 = m.src.val + 8 * m.dst.val :=
  toNat_ofNat_byte (by omega)

/-- Header bytes 2 and 3: JOB. -/
theorem leAt_msgBytes_job (m : Msg) : leAt (msgBytes m) 2 2 = m.job.toNat := by
  have h : leAt (msgBytes m) 2 2 = fromBytes (toBytes (m.job.setWidth 16) 2) := rfl
  rw [h, fromBytes_toBytes, BitVec.toNat_setWidth]
  omega

/-- Header bytes 8 to 11 of every operation but ABORT: OFF. -/
theorem leAt_msgBytes_off (m : Msg) (h : m.op ≠ .abort) : leAt (msgBytes m) 8 4 = m.off.toNat := by
  have h : leAt (msgBytes m) 8 4 = fromBytes (toBytes (m.off.setWidth 32) 4) := by
    simp only [msgBytes, if_neg h]
    rfl
  rw [h, fromBytes_toBytes, BitVec.toNat_setWidth]
  omega

/-- Header byte 5 of a WRITE: CH. -/
theorem leAt_msgBytes_ch (m : Msg) (h : m.op = .write) : leAt (msgBytes m) 5 1 = m.ch.val := by
  simp only [msgBytes, h]
  exact toNat_ofNat_byte (by omega)

/-- Header byte 5 of an operation with a tag: TAG. -/
theorem leAt_msgBytes_tag (m : Msg) (h : m.op ∈ [MsgOp.read, .flush, .readResp, .flushAck, .errResp]) :
    leAt (msgBytes m) 5 1 = m.tag.val := by
  have hbyte : leAt (msgBytes m) 5 1 = (BitVec.ofNat 8 m.tag.val).toNat := by
    simp only [List.mem_cons, List.not_mem_nil, or_false] at h
    rcases h with h | h | h | h | h <;> simp only [msgBytes, h] <;> rfl
  rw [hbyte]
  exact toNat_ofNat_byte (by omega)

/-- No reserved bit is set in a message's own header. -/
theorem headerBad_msgBytes (m : Msg) : headerBad (msgBytes m) = false := by
  obtain ⟨op, src, dst, job, gen, tag, ch, len, mark, off, origin, aseq, refused, data⟩ := m
  have hjob := job.isLt
  have hoff := off.isLt
  cases op <;> simp [headerBad, msgBytes, opCode, opOfCode, toBytes, List.range_succ, byteOf_toNat]
  case flushAck => cases refused <;> simp <;> omega
  all_goals omega

/-- The message that a good header and its data spell (R256). -/
theorem msgOf_of_header {bs : List Byte} {op : MsgOp} (hbad : headerBad bs = false)
    (hop : opOfCode (bs.getD 0 0).toNat = some op) : msgOf bs = some
      { op := op, src := Fin.ofNat 8 (leAt bs 1 1), dst := Fin.ofNat 8 (leAt bs 1 1 / 8), job := BitVec.ofNat 12 (leAt bs 2 2),
        gen := bs.getD 4 0, tag := Fin.ofNat 64 (leAt bs 5 1), ch := Fin.ofNat 16 (leAt bs 5 1), len := bs.getD 6 0,
        mark := Fin.ofNat 64 (leAt bs 7 1), off := BitVec.ofNat 28 (leAt bs 8 4), origin := Fin.ofNat 8 (leAt bs 8 1),
        aseq := bs.getD 9 0, refused := bs.getD 12 0 != 0, data := (bs.drop 16).take (dataLen op (bs.getD 6 0)) } := by
  simp only [msgOf, hbad, hop]
  rfl

theorem opOfCode_msgBytes (m : Msg) : opOfCode ((msgBytes m).getD 0 0).toNat = some m.op := by
  have h : (msgBytes m).getD 0 0 = BitVec.ofNat 8 (opCode m.op) := rfl
  rw [h]
  cases m.op <;> rfl

theorem dataLen_msgBytes (m : Msg) : dataLen m.op ((msgBytes m).getD 6 0) = dataLen m.op m.len := by
  obtain ⟨op, src, dst, job, gen, tag, ch, len, mark, off, origin, aseq, refused, data⟩ := m
  cases op <;> rfl

theorem drop_msgBytes (m : Msg) : (msgBytes m).drop 16 = padTo (dataLen m.op m.len) m.data := by
  by_cases h : m.op = .abort <;> simp [msgBytes, h, toBytes, List.range_succ]

/-- Header byte 6 of an operation with a length: LEN. -/
theorem getD_msgBytes_len (m : Msg) (h : m.op = .write ∨ m.op = .read ∨ m.op = .readResp) : (msgBytes m).getD 6 0 = m.len := by
  rcases h with h | h | h <;> simp only [msgBytes, h] <;> rfl

/-- Header byte 7 of a MARK_ADD: the mark. -/
theorem leAt_msgBytes_mark (m : Msg) (h : m.op = .markAdd) : leAt (msgBytes m) 7 1 = m.mark.val := by
  simp only [msgBytes, h]
  exact toNat_ofNat_byte (by omega)

/-- Header byte 8 of an ABORT: ORIGIN. -/
theorem leAt_msgBytes_origin (m : Msg) (h : m.op = .abort) : leAt (msgBytes m) 8 1 = m.origin.val := by
  simp only [msgBytes, h]
  exact toNat_ofNat_byte (by omega)

/-- Header byte 9 of an ABORT: ASEQ. -/
theorem getD_msgBytes_aseq (m : Msg) (h : m.op = .abort) : (msgBytes m).getD 9 0 = m.aseq := by
  simp only [msgBytes, h]
  rfl

/-- Header byte 12 of a FLUSH_ACK: whether a write was refused. -/
theorem getD_msgBytes_refused (m : Msg) (h : m.op = .flushAck) : ((msgBytes m).getD 12 0 != 0) = m.refused := by
  simp only [msgBytes, h]
  cases m.refused <;> rfl

/-- The length that the header of a message gives is that of its bytes. -/
theorem msgLength_msgBytes (m : Msg) : msgLength (msgBytes m) = (msgBytes m).length := by
  have hop : leAt (msgBytes m) 0 1 = (BitVec.ofNat 8 (opCode m.op)).toNat := rfl
  have hcode : opOfCode (leAt (msgBytes m) 0 1 % 16) = some m.op := by
    rw [hop]
    cases m.op <;> rfl
  have hhead : 16 ≤ (msgBytes m).length := by by_cases h : m.op = .abort <;> simp [msgBytes, h] <;> omega
  have hrest := congrArg List.length (drop_msgBytes m)
  rw [length_padTo, List.length_drop] at hrest
  rw [msgLength, hcode, Option.map_some, Option.getD_some, dataLen_msgBytes]
  omega

/-- A reserved OP code (R256): no operation has it. -/
theorem opOfCode_eq_none {c : Nat} (h : c = 0 ∨ 10 ≤ c) : opOfCode c = none := by
  rcases h with rfl | h
  · rfl
  · exact List.getD_eq_default _ _ h

theorem msgOf_of_reserved_op {bs : List Byte} (h : bs.getD 0 0 = 0 ∨ 10 ≤ (bs.getD 0 0).toNat) : msgOf bs = none := by
  have hnone : opOfCode (bs.getD 0 0).toNat = none := opOfCode_eq_none (h.imp (fun h => by rw [h]; rfl) id)
  unfold msgOf
  split
  · rfl
  · rw [hnone]
    rfl

theorem msgOf_of_headerBad {bs : List Byte} (h : headerBad bs = true) : msgOf bs = none := if_pos h

/-- Settles O55: the header's fields are read off the sixteen bytes one by one, and each reserved bit makes the header bad. -/
theorem linkMessagesReadBack : Obligations.LinkMessagesReadBack := by
  constructor
  · intro m hdata
    refine ⟨_, msgOf_of_header (headerBad_msgBytes m) (opOfCode_msgBytes m), msgLength_msgBytes m, rfl, ?_, ?_, ?_, rfl, ?_,
      fun h => getD_msgBytes_len m h, ?_, ?_, ?_, fun h => getD_msgBytes_refused m h, ?_, fun h => ⟨?_, getD_msgBytes_aseq m h⟩⟩
    · simp only [leAt_msgBytes_ids]; ext; simp
    · simp only [leAt_msgBytes_ids]; ext; simp; omega
    · simp only [leAt_msgBytes_job, BitVec.ofNat_toNat, BitVec.setWidth_eq]
    · rw [drop_msgBytes, dataLen_msgBytes, padTo_of_length hdata, ← hdata, List.take_length]
    · intro h; simp only [leAt_msgBytes_ch m h]; ext; simp
    · intro h; simp only [leAt_msgBytes_tag m h]; ext; simp
    · intro h; simp only [leAt_msgBytes_mark m h]; ext; simp
    · intro h; simp only [leAt_msgBytes_off m h, BitVec.ofNat_toNat, BitVec.setWidth_eq]
    · simp only [leAt_msgBytes_origin m h]; ext; simp
  · rintro bs (h | h | h | ⟨hop, h⟩ | ⟨hop, h⟩)
    · exact msgOf_of_reserved_op h
    all_goals refine msgOf_of_headerBad ?_
    · have hne : ∀ i, bs.getD i 0 ≠ 0 → (bs.getD i 0).toNat ≠ 0 := fun i h e => h (BitVec.eq_of_toNat_eq e)
      have hset : (bs.getD 13 0).toNat ≠ 0 ∨ (bs.getD 14 0).toNat ≠ 0 ∨ (bs.getD 15 0).toNat ≠ 0 :=
        h.imp (hne 13) (Or.imp (hne 14) (hne 15))
      simp only [headerBad, Bool.or_eq_true, bne_iff_ne]
      tauto
    · simp only [headerBad, Bool.or_eq_true, decide_eq_true_eq]
      tauto
    · have hcode : opOfCode ((1 : Byte).toNat % 16) = some .write := rfl
      simp only [headerBad, hop, hcode, if_true, Bool.or_eq_true, decide_eq_true_eq]
      tauto
    · have hcode : opOfCode ((8 : Byte).toNat % 16) = some .abort := rfl
      have hne : ∀ i, bs.getD i 0 ≠ 0 → (bs.getD i 0).toNat ≠ 0 := fun i h e => h (BitVec.eq_of_toNat_eq e)
      have hset : 8 ≤ (bs.getD 8 0).toNat ∨ (bs.getD 10 0).toNat ≠ 0 ∨ (bs.getD 11 0).toNat ≠ 0 :=
        h.imp id (Or.imp (hne 10) (hne 11))
      simp only [headerBad, hop, hcode, if_true, Bool.or_eq_true, decide_eq_true_eq, bne_iff_ne]
      tauto

end Sys2Proof.Machine

namespace Sys2Proof.Machine

/-! ## The checks of fields (R126, R128) -/

/-- A field that is zero gives no reason. -/
theorem reserved_eq_nil {x : Nat} (h : x = 0) : reserved x = [] := by rw [h, reserved_zero]

/-- A field of a word, as a number. -/
theorem field_eq {w : Nat} (x : BitVec w) (hi lo : Nat) : field x hi lo = x.toNat / 2 ^ lo % 2 ^ (hi - lo + 1) := by
  simp [field, BitVec.extractLsb, Nat.shiftRight_eq_div_pow]

/-! ## Instructions over RD, RA and op2 (R130) -/

/-- What such an instruction asks of issue where the fields that it does not use are zero. -/
theorem aluNeed_eq {x : BitVec 64} (hzero : field x 35 32 = 0) (hop : if iOf x then rbOf x = 0 else immOf x = 0) :
    aluNeed x = { gs := if iOf x then [rdOf x, raOf x] else [rdOf x, raOf x, rbOf x] } := by
  unfold aluNeed
  cases hi : iOf x with
  | true =>
    rw [hi, if_pos rfl] at hop
    simp [reserved_eq_nil hzero, hop]
  | false =>
    rw [hi, if_neg (by decide)] at hop
    simp [reserved_eq_nil hzero, hop]

/-- Such an instruction, once it issues. -/
theorem State.alu_go {s : State} {n : Fin 24} {x : BitVec 64} (hzero : field x 35 32 = 0)
    (hop : if iOf x then rbOf x = 0 else immOf x = 0)
    (h : s.issues n { gs := if iOf x then [rdOf x, raOf x] else [rdOf x, raOf x, rbOf x] })
    (f : BitVec 64 → BitVec 64 → BitVec 64) :
    s.alu n x f = s.ran n fun t => t.wg (rdOf x) (f (t.rg (raOf x)) (t.op2 x)) := by
  rw [State.alu, aluNeed_eq hzero hop, State.issueScalar_go h]

/-- The shift amount is op2 modulo 64. -/
theorem field_shift (b : BitVec 64) : field b 5 0 = b.toNat % 64 := by simp [field_eq]

theorem minSigned_eq (a b : BitVec 64) : minSigned a b = if a.toInt < b.toInt then a else b := by
  simp [minSigned, BitVec.slt_eq_decide]

theorem maxSigned_eq (a b : BitVec 64) : maxSigned a b = if a.toInt < b.toInt then b else a := by
  simp [maxSigned, BitVec.slt_eq_decide]

theorem oneIf_slt (a b : BitVec 64) : oneIf (a.slt b) = if a.toInt < b.toInt then 1 else 0 := by
  simp [oneIf, BitVec.slt_eq_decide]

theorem oneIf_ult (a b : BitVec 64) : oneIf (a.ult b) = if a.toNat < b.toNat then 1 else 0 := by
  simp [oneIf, BitVec.ult_eq_decide]

theorem oneIf_beq (a b : BitVec 64) : oneIf (a == b) = if a = b then 1 else 0 := by simp [oneIf]

/-- The command of a row runs an instruction over RD, RA and op2 that computes the row's function. -/
theorem exec_aluRow {row : AluRow} (h : row ∈ aluRows) (n : Fin 24) (w : BitVec 52) (s : State) :
    ∃ f, exec (row.command n w) s = .next (s.alu n (wordOf 1 row.minor w) f) ∧ ∀ a b, f a b = row.fn a b := by
  simp only [aluRows, List.mem_cons, List.not_mem_nil, or_false] at h
  obtain rfl | rfl | rfl | rfl | rfl | rfl | rfl | rfl | rfl | rfl | rfl | rfl | rfl | rfl := h
  · exact ⟨_, rfl, fun _ _ => rfl⟩
  · exact ⟨_, rfl, fun _ _ => rfl⟩
  · exact ⟨_, rfl, fun _ _ => rfl⟩
  · exact ⟨_, rfl, fun _ _ => rfl⟩
  · exact ⟨_, rfl, fun _ _ => rfl⟩
  · exact ⟨_, rfl, fun a b => congrArg (a <<< ·) (field_shift b)⟩
  · exact ⟨_, rfl, fun a b => congrArg (a >>> ·) (field_shift b)⟩
  · exact ⟨_, rfl, fun a b => congrArg a.sshiftRight (field_shift b)⟩
  · exact ⟨_, rfl, fun _ _ => rfl⟩
  · exact ⟨_, rfl, minSigned_eq⟩
  · exact ⟨_, rfl, maxSigned_eq⟩
  · exact ⟨_, rfl, oneIf_slt⟩
  · exact ⟨_, rfl, oneIf_ult⟩
  · exact ⟨_, rfl, oneIf_beq⟩

/-- A row's instruction, once it issues. -/
theorem exec_aluRow_go {row : AluRow} (hrow : row ∈ aluRows) {n : Fin 24} {w : BitVec 52} {s : State}
    (hzero : field (wordOf 1 row.minor w) 35 32 = 0)
    (hop : if iOf (wordOf 1 row.minor w) then rbOf (wordOf 1 row.minor w) = 0 else immOf (wordOf 1 row.minor w) = 0)
    (h : s.issues n { gs := if iOf (wordOf 1 row.minor w) then [rdOf (wordOf 1 row.minor w), raOf (wordOf 1 row.minor w)]
      else [rdOf (wordOf 1 row.minor w), raOf (wordOf 1 row.minor w), rbOf (wordOf 1 row.minor w)] }) :
    exec (row.command n w) s = .next (s.ran n fun t => t.wg (rdOf (wordOf 1 row.minor w))
      (row.fn (t.rg (raOf (wordOf 1 row.minor w))) (t.op2 (wordOf 1 row.minor w)))) := by
  obtain ⟨f, hexec, hf⟩ := exec_aluRow hrow n w s
  rw [hexec, State.alu_go hzero hop h]
  simp only [hf]

/-! ## Registers of a station without memory accesses (R130) -/

/-- A scalar instruction whose reasons are all absent, once it issues. -/
theorem State.issueScalar_of_reasons {s : State} {n : Fin 24} {gs : List Nat} {reasons : List Nat} (hr : reasons = [])
    (h : s.issues n { gs := gs }) (word : BitVec 64) (f : Station → Station) :
    s.issueScalar n word { gs := gs, reasons := reasons } f = s.ran n f := by
  subst hr
  exact State.issueScalar_go h word f

/-- The half of a descriptor that DGET reads. -/
theorem extractLsb'_half (d : BitVec 128) (high : Bool) :
    d.extractLsb' (if high then 64 else 0) 64 = if high then d.extractLsb' 64 64 else d.extractLsb' 0 64 := by
  cases high <;> rfl

/-- OFFSET of a descriptor as DOFF moves it, modulo 2^29. -/
theorem offset_moved (d : BitVec 128) (a b : BitVec 64) :
    BitVec.ofNat 29 (dOffset d) + (a + b).setWidth 29 = d.extractLsb' 8 29 + a.setWidth 29 + b.setWidth 29 := by
  have hoff : BitVec.ofNat 29 (dOffset d) = d.extractLsb' 8 29 := by
    unfold dOffset field
    exact BitVec.ofNat_toNat _ _
  rw [hoff, BitVec.setWidth_add _ _ (by decide), BitVec.add_assoc]

/-- Settles O2: no field gives a reason, so each instruction issues with the effect of its row. -/
theorem scalarResults : Obligations.ScalarResults := by
  constructor
  · intro row hrow n w s x hzero hop h
    exact exec_aluRow_go hrow hzero hop h
  · intro n w s
    refine ⟨fun h => ?_, fun hzero hrb h => ?_, fun hzero hrd h => ?_, fun hzero hrb hra h => ?_, fun hzero hrb hrd h => ?_,
      fun hzero h => ?_⟩
    · exact congrArg _ (State.issueScalar_of_reasons (by decide) h _ _)
    · exact congrArg _ (State.issueScalar_of_reasons (by rw [reserved_eq_nil hzero, reserved_eq_nil hrb]; rfl) h _ _)
    · exact congrArg _ (State.issueScalar_of_reasons (by rw [reserved_eq_nil hzero, regBelow_of_lt hrd]; rfl) h _ _)
    · refine congrArg _ (Eq.trans (State.issueScalar_of_reasons
        (by rw [reserved_eq_nil hzero, reserved_eq_nil hrb, regBelow_of_lt hra]; rfl) h _ _) ?_)
      simp only [extractLsb'_half]
    · refine congrArg _ (Eq.trans (State.issueScalar_of_reasons
        (by rw [reserved_eq_nil hzero, reserved_eq_nil hrb, regBelow_of_lt hrd]; rfl) h _ _) ?_)
      simp only [offset_moved]
    · exact congrArg _ (State.issueScalar_of_reasons (by rw [reserved_eq_nil hzero]) h _ _)

end Sys2Proof.Machine

namespace Sys2Proof.Machine

/-! ## Bytes of the spaces that parcels name (R86) -/

/-- A change of a station that leaves its memory leaves every byte of every space. -/
theorem State.spaceByte_modStation (s : State) (n : Fin 24) {f : Station → Station} (hf : ∀ t, (f t).mem = t.mem) (sp : Space)
    (a : Nat) : (s.modStation n f).spaceByte sp a = s.spaceByte sp a := by
  cases sp with
  | shm => rfl
  | station k =>
    simp only [State.spaceByte]
    by_cases h : k = n
    · subst h
      rw [State.modStation_station_same, hf]
    · rw [State.modStation_station_ne h]

theorem State.spaceByte_modCtx (s : State) (c : Fin 8) (f : Ctx → Ctx) (sp : Space) (a : Nat) :
    (s.modCtx c f).spaceByte sp a = s.spaceByte sp a := rfl

/-- A retirement writes no byte (R108). -/
theorem State.spaceByte_retire (s : State) (n : Fin 24) (sp : Space) (a : Nat) : (s.retire n).spaceByte sp a = s.spaceByte sp a := by
  have h : ∀ c, (((s.modStation n fun t => { t with retired := t.retired + 1 }).modCtx c fun x =>
      { x with residue := x.residue + 1 }).spaceByte sp a) = s.spaceByte sp a := by
    intro c
    rw [State.spaceByte_modCtx]
    exact s.spaceByte_modStation n (fun _ => by rfl) sp a
  unfold State.retire State.progress
  dsimp only
  split
  · rw [State.spaceByte_modCtx, h]
  · rw [h]

/-- A write into a space: the bytes written, and every other byte of every space as it was (R86). -/
theorem State.spaceByte_spaceWrite {s : State} (hs : s.memWf = true) {sp : Space} {a : Nat} {bs : List Byte} :
    (∀ i (hi : i < bs.length), (s.spaceWrite sp a bs).spaceByte sp (a + i) = bs[i]) ∧
      ∀ sp' b, (sp' ≠ sp ∨ b < a ∨ a + bs.length ≤ b) → (s.spaceWrite sp a bs).spaceByte sp' b = s.spaceByte sp' b := by
  obtain ⟨-, -, hshm, hst, -⟩ := s.memWf_iff.mp hs
  have hmem : ∀ k, (s.station k).mem.wf = true := by
    intro k
    have hk := hst k
    rw [Station.memWf_eq] at hk
    exact List.all_eq_true.mp hk _ (List.mem_cons_self ..)
  cases sp with
  | shm =>
    refine ⟨fun i hi => Memory.read_writeBytes_in hshm hi, fun sp' b hb => ?_⟩
    cases sp' with
    | shm => exact Memory.read_writeBytes_out hshm (hb.resolve_left fun h => h rfl)
    | station k => rfl
  | station k =>
    simp only [State.spaceWrite, State.spaceByte]
    refine ⟨fun i hi => ?_, fun sp' b hb => ?_⟩
    · rw [State.modStation_station_same]
      exact Memory.read_writeBytes_in (hmem k) hi
    · cases sp' with
      | shm => rfl
      | station m =>
        dsimp only
        by_cases h : m = k
        · subst h
          rw [State.modStation_station_same]
          exact Memory.read_writeBytes_out (hmem m) (hb.resolve_left fun h => h rfl)
        · simp only [State.modStation_station_ne h]

/-! ## Scalar loads and stores (R131) -/

/-- What a scalar access asks of issue where every check passes. -/
theorem State.scalarNeed_eq {s : State} {n : Fin 24} {x : BitVec 64} {size : Nat} {store : Bool}
    (hzero : field x 36 32 = 0) (hra : raOf x < 8) (hd : dBad ((s.station n).rd (raOf x)) store = false)
    (halign : (s.station n).scalarOff x % size = 0)
    (hparcel : s.parcelCheck (s.parcelOfD n ((s.station n).rd (raOf x))) n true (if store then .write else .read)
      ((s.station n).scalarOff x) ((s.station n).scalarOff x + size - 1) = none)
    (hspec : store = true → (s.tagOf n).isSome → (s.parcelOfD n ((s.station n).rd (raOf x))).has 5 = true) :
    s.scalarNeed n x size store =
      { gs := [rdOf x, rbOf x]
        range := some (granules (s.scalarPlace n x).1 (s.scalarPlace n x).2 ((s.scalarPlace n x).2 + size - 1)
          (if store then .write else .read)) } := by
  have hno : (store && (s.tagOf n).isSome && !(s.parcelOfD n ((s.station n).rd (raOf x))).has 5) = false := by
    cases store with
    | false => rfl
    | true => simpa using hspec rfl
  unfold State.scalarNeed
  simp only [reserved_eq_nil hzero, regBelow_of_lt hra, hd, halign, hparcel, hno]
  simp [reasonIf]

/-- A scalar load, once it issues. -/
theorem State.scalarLoad_go {s : State} {n : Fin 24} {x : BitVec 64} {size : Nat} (hzero : field x 36 32 = 0)
    (hra : raOf x < 8) (hd : dBad ((s.station n).rd (raOf x)) false = false) (halign : (s.station n).scalarOff x % size = 0)
    (hparcel : s.parcelCheck (s.parcelOfD n ((s.station n).rd (raOf x))) n true .read ((s.station n).scalarOff x)
      ((s.station n).scalarOff x + size - 1) = none)
    (h : s.issues n { gs := [rdOf x, rbOf x], range := some (granules (s.scalarPlace n x).1 (s.scalarPlace n x).2
      ((s.scalarPlace n x).2 + size - 1) .read) }) :
    s.scalarLoad n x size =
      s.ran n fun t => t.touchBoard.wg (rdOf x) (word 64 (s.spaceRead (s.scalarPlace n x).1 (s.scalarPlace n x).2 size)) := by
  have hneed := State.scalarNeed_eq (store := false) hzero hra hd halign hparcel (fun h => absurd h (by decide))
  rw [State.scalarLoad, State.issueScalar_go]
  rw [hneed]
  exact h

/-- Where a scalar access goes does not depend on what issue notes of its waits. -/
theorem State.scalarPlace_stalls (s : State) (n : Fin 24) (x : BitVec 64) (why : List Stall) :
    (s.modStation n fun t => { t with stalls := why }).scalarPlace n x = s.scalarPlace n x := by
  unfold State.scalarPlace State.parcelOfD
  rw [State.modStation_station_same]
  rfl

/-- A scalar store, once it issues. -/
theorem State.scalarStore_go {s : State} {n : Fin 24} {x : BitVec 64} {size : Nat} (hzero : field x 36 32 = 0)
    (hra : raOf x < 8) (hd : dBad ((s.station n).rd (raOf x)) true = false) (halign : (s.station n).scalarOff x % size = 0)
    (hparcel : s.parcelCheck (s.parcelOfD n ((s.station n).rd (raOf x))) n true .write ((s.station n).scalarOff x)
      ((s.station n).scalarOff x + size - 1) = none)
    (hspec : (s.tagOf n).isSome → (s.parcelOfD n ((s.station n).rd (raOf x))).has 5 = true)
    (h : s.issues n { gs := [rdOf x, rbOf x], range := some (granules (s.scalarPlace n x).1 (s.scalarPlace n x).2
      ((s.scalarPlace n x).2 + size - 1) .write) }) :
    s.scalarStore n x size = (((s.modStation n fun t => { t with stalls := [] }).spaceWrite (s.scalarPlace n x).1
      (s.scalarPlace n x).2 (toBytes ((s.station n).rg (rdOf x)) size)).modStation n fun t => t.touchBoard.advance).retire n := by
  have hneed := State.scalarNeed_eq (store := true) hzero hra hd halign hparcel (fun _ => hspec)
  rw [State.scalarStore, State.issue_go (by rw [hneed]; exact h), State.scalarWrite, State.scalarPlace_stalls,
    State.modStation_station_same]
  rfl

/-- What a scalar store leaves in the spaces that parcels name. -/
theorem State.spaceByte_scalarStore {s : State} (hs : s.memWf = true) (n : Fin 24) (sp : Space) (a size : Nat) (v : BitVec 64) :
    let u := (((s.modStation n fun t => { t with stalls := [] }).spaceWrite sp a (toBytes v size)).modStation n
      fun t => t.touchBoard.advance).retire n
    (∀ k < size, u.spaceByte sp (a + k) = byteOf v k) ∧
      ∀ (sp' : Space) (b : Nat), (sp' ≠ sp ∨ b < a ∨ a + size ≤ b) → u.spaceByte sp' b = s.spaceByte sp' b := by
  have hstalls : Kept s (s.modStation n fun t => { t with stalls := [] }) :=
    State.modStation_mems_kept (.refl s) fun _ => by with_reducible rfl
  obtain ⟨hin, hout⟩ := State.spaceByte_spaceWrite (((Kept.iff _ _).mp hstalls).1 hs) (sp := sp) (a := a) (bs := toBytes v size)
  have hkeep : ∀ (t : State) sp' b, ((t.modStation n fun t => t.touchBoard.advance).retire n).spaceByte sp' b = t.spaceByte sp' b := by
    intro t sp' b
    rw [State.spaceByte_retire]
    exact t.spaceByte_modStation n (fun _ => by rfl) sp' b
  rw [length_toBytes] at hout
  refine ⟨fun k hk => ?_, fun sp' b hb => ?_⟩
  · rw [hkeep, hin k (by rwa [length_toBytes]), getElem_toBytes]
  · rw [hkeep, hout sp' b hb]
    exact s.spaceByte_modStation n (fun _ => by rfl) sp' b

/-- Settles O3: the access passes its checks, so the load issues. -/
theorem scalarLoadResults : Obligations.ScalarLoadResults := by
  intro row hrow n w s x t off p place hzero hra hd halign hparcel h
  simp only [List.mem_cons, List.not_mem_nil, or_false] at hrow
  obtain rfl | rfl := hrow
  · exact congrArg _ (State.scalarLoad_go hzero hra hd halign hparcel h)
  · exact congrArg _ (State.scalarLoad_go hzero hra hd halign hparcel h)

/-- ST64 that kicks no channel is a store. -/
theorem exec_st64_of_no_kick {n : Fin 24} {w : BitVec 52} {s : State} (h : s.kickChan n (wordOf 1 0x12 w) = none) :
    exec (.st64 n w) s = .next (s.scalarStore n (wordOf 1 0x12 w) 8) := by
  change execSt64 n w s = _
  rw [execSt64, h]

/-- Settles O4: the store issues, and its write is the only change of a space. -/
theorem scalarStoreResults : Obligations.ScalarStoreResults := by
  intro row hrow n w s x t off p place hs hkick hzero hra hd halign hparcel hspec h
  have hstore := State.scalarStore_go hzero hra hd halign hparcel hspec h
  refine ⟨_, ?_, rfl, State.spaceByte_scalarStore hs n _ _ _ _⟩
  simp only [List.mem_cons, List.not_mem_nil, or_false] at hrow
  obtain rfl | rfl := hrow
  · rw [exec_st64_of_no_kick (hkick rfl)]
    exact congrArg _ hstore
  · exact congrArg _ hstore

end Sys2Proof.Machine

namespace Sys2Proof.Machine

/-! ## A station that may not issue (R103) -/

/-- Issue does nothing for a station that may not issue. -/
theorem State.issue_of_not_canIssue {s : State} {n : Fin 24} (h : s.canIssue n = false) (word : BitVec 64) (need : Need)
    (go : State → State) : s.issue n word need go = s := by
  unfold State.issue
  rw [h]
  rfl

section
variable {s : State} {n : Fin 24} (h : s.canIssue n = false) (w : BitVec 52)
include h

/-- The same for an instruction that waits until its station's work has ended. -/
theorem State.issueClosed_of_not_canIssue (word : BitVec 64) (pre post : Need) (go : State → State) :
    s.issueClosed n word pre post go = s := by
  unfold State.issueClosed
  rw [State.issue_of_not_canIssue h, ite_self]

theorem exec_st64_of_not_canIssue : exec (.st64 n w) s = .next s := by
  change execSt64 n w s = _
  unfold execSt64
  dsimp only
  split
  · exact congrArg _ (State.issue_of_not_canIssue h _ _ _)
  · exact congrArg _ (State.issue_of_not_canIssue h _ _ _)

theorem exec_bar_of_not_canIssue : exec (.bar n w) s = .next s := by
  change execBar n w s = _
  unfold execBar
  dsimp only
  rw [State.issue_of_not_canIssue h, ite_self]

theorem exec_sFence_of_not_canIssue : exec (.sFence n w) s = .next s := by
  change execSFence n w s = _
  unfold execSFence State.issueScalar
  dsimp only
  rw [State.issue_of_not_canIssue h, ite_self]

theorem exec_brc_of_not_canIssue : exec (.brc n w) s = .next s := by
  change execBrc n w s = _
  unfold execBrc State.takeBranch State.issueScalar
  dsimp only
  rw [State.issue_of_not_canIssue h, State.issue_of_not_canIssue h, ite_self]

/-! What each kind of instruction hands to issue stays out of reach. -/

omit h in
/-- Equal states give equal outcomes. -/
theorem next_of_eq {s' : State} (h : s' = s) : (.next s' : Host.Outcome State Fault Refusal) = .next s := by rw [h]

theorem State.issueScalar_of_not_canIssue (word : BitVec 64) (need : Need) (f : Station → Station) :
    s.issueScalar n word need f = s := by
  unfold State.issueScalar
  exact State.issue_of_not_canIssue h word need _

theorem State.alu_of_not_canIssue (word : BitVec 64) (f : BitVec 64 → BitVec 64 → BitVec 64) : s.alu n word f = s := by
  unfold State.alu
  exact State.issueScalar_of_not_canIssue h word _ _

theorem State.scalarLoad_of_not_canIssue (word : BitVec 64) (size : Nat) : s.scalarLoad n word size = s := by
  unfold State.scalarLoad
  exact State.issueScalar_of_not_canIssue h word _ _

theorem State.scalarStore_of_not_canIssue (word : BitVec 64) (size : Nat) : s.scalarStore n word size = s := by
  unfold State.scalarStore
  exact State.issue_of_not_canIssue h word _ _

theorem State.issueEngine_of_not_canIssue (e : Engine) (need : Need) (i : Issued) : s.issueEngine n e need i = s := by
  unfold State.issueEngine
  exact State.issue_of_not_canIssue h i.word _ _

theorem State.issueVec_of_not_canIssue (word : BitVec 64) (need : Need) : s.issueVec n word need = s := by
  unfold State.issueVec
  exact State.issueEngine_of_not_canIssue h _ need _

theorem State.issueXfer_of_not_canIssue (word : BitVec 64) (store acc : Bool) : s.issueXfer n word store acc = s := by
  unfold State.issueXfer
  exact State.issueEngine_of_not_canIssue h _ _ _

theorem State.takeBranch_of_not_canIssue (word : BitVec 64) (need : Need) (target : Nat) (f : Station → Station) :
    s.takeBranch n word need target f = s := by
  unfold State.takeBranch
  exact State.issue_of_not_canIssue h word _ _

theorem State.eclose_of_not_canIssue (word : BitVec 64) (go : State → BitVec 16 → State) : s.eclose n word go = s := by
  unfold State.eclose
  exact State.issueClosed_of_not_canIssue h word _ _ _

/-- Every instruction goes through issue, so a station that may not issue does nothing with any. -/
theorem exec_of_not_canIssue : ∀ c ∈ stationInstrs n w, exec c s = .next s := by
  have plain word need go := next_of_eq (State.issue_of_not_canIssue h word need go)
  have scalar word need f := next_of_eq (State.issueScalar_of_not_canIssue h word need f)
  have alu word f := next_of_eq (State.alu_of_not_canIssue h word f)
  have load word size := next_of_eq (State.scalarLoad_of_not_canIssue h word size)
  have store word size := next_of_eq (State.scalarStore_of_not_canIssue h word size)
  have engine e need i := next_of_eq (State.issueEngine_of_not_canIssue h e need i)
  have vec word need := next_of_eq (State.issueVec_of_not_canIssue h word need)
  have xfer word store acc := next_of_eq (State.issueXfer_of_not_canIssue h word store acc)
  have branch word need target f := next_of_eq (State.takeBranch_of_not_canIssue h word need target f)
  have close word go := next_of_eq (State.eclose_of_not_canIssue h word go)
  have closed word pre post go := next_of_eq (State.issueClosed_of_not_canIssue h word pre post go)
  simp only [stationInstrs, List.forall_mem_cons, List.not_mem_nil, false_implies, implies_true, and_true]
  exact ⟨scalar _ _ _, alu _ _, alu _ _, alu _ _, alu _ _, alu _ _, alu _ _, alu _ _, alu _ _, alu _ _, alu _ _, alu _ _,
    alu _ _, alu _ _, alu _ _, scalar _ _ _, load _ _, load _ _, exec_st64_of_not_canIssue h w, store _ _,
    scalar _ _ _, scalar _ _ _, scalar _ _ _, scalar _ _ _,
    vec _ _, vec _ _, vec _ _, vec _ _, vec _ _, vec _ _, vec _ _, vec _ _, vec _ _, vec _ _, vec _ _, vec _ _, vec _ _,
    vec _ _, xfer _ _ _, xfer _ _ _, xfer _ _ _,
    engine _ _ _, engine _ _ _, engine _ _ _, engine _ _ _, engine _ _ _, engine _ _ _, engine _ _ _, engine _ _ _,
    plain _ _ _, plain _ _ _, exec_bar_of_not_canIssue h w, exec_sFence_of_not_canIssue h w,
    branch _ _ _ _, exec_brc_of_not_canIssue h w, branch _ _ _ _, branch _ _ _ _, plain _ _ _, plain _ _ _, plain _ _ _,
    close _ _, close _ _, closed _ _ _ _⟩

end

/-! ## The checks of issue in their order (R104) -/

/-- The lowest of the reasons that apply. -/
theorem minOpt_eq_some {l : List Nat} {r : Nat} (hr : r ∈ l) (hmin : ∀ k ∈ l, r ≤ k) : minOpt l = some r := by
  have h : minOpt l = l.min? := by cases l <;> rfl
  rw [h, List.min?_eq_some_iff]
  exact ⟨hr, hmin⟩

/-- A wait is noted where its condition holds. -/
theorem mem_stallIf {c : Bool} {v w : Stall} : v ∈ stallIf c w ↔ c = true ∧ v = w := by
  cases c <;> simp

section
variable {s : State} {n : Fin 24} {need : Need}

/-- An instruction's range overlaps an outstanding one (R93). -/
def State.overlaps (s : State) (n : Fin 24) (need : Need) : Prop :=
  ∃ r, need.range = some r ∧ ∃ o ∈ (s.station n).board, r.waits o = true

/-- An instruction's range finds no entry of the scoreboard (R94). -/
def State.boardFull (s : State) (n : Fin 24) (need : Need) : Prop := need.range ≠ none ∧ 32 ≤ (s.station n).board.length

/-- A held effect finds no entry of the closure buffer (R188). -/
def State.closureFull (s : State) (n : Fin 24) (need : Need) : Prop :=
  need.held = true ∧ 64 ≤ (s.ctx (s.station n).ctx).held.length

theorem State.overlap_mem_waitsFor : .overlap ∈ s.waitsFor n need ↔ s.overlaps n need := by
  cases hr : need.range with
  | none => simp [State.waitsFor, mem_stallIf, State.overlaps, hr]
  | some r => simp [State.waitsFor, mem_stallIf, State.overlaps, hr]

theorem State.entries_mem_waitsFor : .entries ∈ s.waitsFor n need ↔ s.boardFull n need := by
  simp [State.waitsFor, mem_stallIf, State.boardFull, Option.isSome_iff_ne_none]

theorem State.closure_mem_waitsFor : .closure ∈ s.waitsFor n need ↔ s.closureFull n need := by
  simp [State.waitsFor, mem_stallIf, State.closureFull]

theorem State.queue_mem_waitsFor : .queue ∈ s.waitsFor n need ↔ need.full = true := by
  simp [State.waitsFor, mem_stallIf]

theorem State.reg_not_mem_waitsFor : .reg ∉ s.waitsFor n need := by
  simp [State.waitsFor, mem_stallIf]

/-- An instruction waits where one of the four waits holds. -/
theorem State.waitsFor_eq_nil_iff :
    s.waitsFor n need = [] ↔ ¬ (s.overlaps n need ∨ s.boardFull n need ∨ s.closureFull n need ∨ need.full = true) := by
  rw [← State.overlap_mem_waitsFor, ← State.entries_mem_waitsFor, ← State.closure_mem_waitsFor,
    ← State.queue_mem_waitsFor (s := s) (n := n)]
  constructor
  · intro h
    simp [h]
  · intro h
    rw [List.eq_nil_iff_forall_not_mem]
    intro v hv
    cases v
    case reg => exact State.reg_not_mem_waitsFor hv
    all_goals tauto

variable (hcan : s.canIssue n = true) (word : BitVec 64) (go : State → State)
include hcan

/-- The fetch is checked first. -/
theorem State.issue_of_fetch_fault {d : BitVec 32} (hf : s.fetchCheck n (s.station n).pc.toNat = some d) :
    s.issue n word need go = s.fetchFault n d := by
  simp only [State.issue, hcan, hf]
  rfl

variable (hf : s.fetchCheck n (s.station n).pc.toNat = none)
include hf

/-- Then the wait for a register with a pending write. -/
theorem State.issue_of_pending (h : ∃ r ∈ need.gs, r ∈ (s.station n).pendingG) :
    s.issue n word need go = s.modStation n fun t => { t with stalls := [.reg] } := by
  have hany : (need.gs.any fun r => (s.station n).pendingG.contains r) = true := by simpa using h
  simp only [State.issue, hcan, hf, hany]
  rfl

variable (hg : ∀ r ∈ need.gs, r ∉ (s.station n).pendingG) (hp : ∀ r ∈ need.ps, r ∉ (s.station n).pendingP)
include hg hp

/-- Then the lowest reason of ILLEGAL_INSTR. -/
theorem State.issue_of_reason {r : Nat} (hr : minOpt need.reasons = some r) :
    s.issue n word need go = s.issueFault n word stIllegalInstr (BitVec.ofNat 32 (r + 256 * n.val)) := by
  simp only [State.issue, hcan, hf, any_pending_false hg, any_pending_false hp, hr]
  rfl

variable (hr : need.reasons = [])
include hr

/-- Then BOUND_FAULT. -/
theorem State.issue_of_bound {d : BitVec 32} (hb : need.bound = some d) :
    s.issue n word need go = s.issueFault n word stBoundFault d := by
  simp only [State.issue, hcan, hf, any_pending_false hg, any_pending_false hp, hr, hb]
  rfl

variable (hb : need.bound = none)
include hb

/-- Then ARRAY_UNWRITTEN. -/
theorem State.issue_of_unwritten {a : Nat} (hu : need.unwritten = some a) :
    s.issue n word need go = s.issueFault n word stArrayUnwritten (BitVec.ofNat 32 (a + 256 * n.val)) := by
  simp only [State.issue, hcan, hf, any_pending_false hg, any_pending_false hp, hr, hb, hu]
  rfl

variable (hu : need.unwritten = none)
include hu

/-- Then SPEC_VIOLATION. -/
theorem State.issue_of_spec {d : BitVec 32} (hs : need.spec = some d) :
    s.issue n word need go = s.issueFault n word stSpecViolation d := by
  simp only [State.issue, hcan, hf, any_pending_false hg, any_pending_false hp, hr, hb, hu, hs]
  rfl

variable (hs : need.spec = none)
include hs

/-- Then the waits, and where there is none the effect. -/
theorem State.issue_of_checks : s.issue n word need go =
    if s.waitsFor n need = [] then go (s.modStation n fun t => { t with stalls := [] })
    else s.modStation n fun t => { t with stalls := s.waitsFor n need } := by
  simp only [State.issue, hcan, hf, any_pending_false hg, any_pending_false hp, hr, hb, hu, hs, List.isEmpty_iff]
  rfl

end

/-- A word with an undefined opcode faults where no epoch is open (R125, R126). -/
theorem exec_undefinedOpcode_of_canIssue {n : Fin 24} {word : BitVec 64} {s : State} (hop : opcodeDefined word = false)
    (hcan : s.canIssue n = true) (hf : s.fetchCheck n (s.station n).pc.toNat = none) (htag : s.tagOf n = none) :
    exec (.undefinedOpcode n word) s = .next ((s.reportFault n (s.station n).queue (s.station n).order stIllegalInstr
      (BitVec.ofNat 32 (0x01 + 256 * n.val)) (s.station n).pcWord word false).settleAll) := by
  change execUndefinedOpcode n word s = _
  rw [execUndefinedOpcode, hop, Bool.not_false, State.when_true,
    State.issue_of_reason hcan word id hf (by simp) (by simp) (show minOpt [0x01] = some 0x01 from rfl), State.issueFault, htag]

/-- Settles O5: the branches of issue, one after the other. -/
theorem issueChecksInOrder : Obligations.IssueChecksInOrder := by
  refine ⟨⟨fun n w s h => exec_of_not_canIssue h w, fun n word s hop hcan hf htag =>
    exec_undefinedOpcode_of_canIssue hop hcan hf htag⟩, fun n word need go s hcan =>
    ⟨fun d hf => State.issue_of_fetch_fault hcan word go hf, fun hf =>
      ⟨fun h => State.issue_of_pending hcan word go hf h, fun hg hp => ⟨?_, ?_, ?_, ?_, ?_⟩⟩⟩⟩
  · exact fun r hr hmin => State.issue_of_reason hcan word go hf hg hp (minOpt_eq_some hr hmin)
  · exact fun hr d hb => State.issue_of_bound hcan word go hf hg hp hr hb
  · exact fun hr hb a hu => State.issue_of_unwritten hcan word go hf hg hp hr hb hu
  · exact fun hr hb hu d hs => State.issue_of_spec hcan word go hf hg hp hr hb hu hs
  · intro hr hb hu hs overlap entries closure
    rw [State.issue_of_checks hcan word go hf hg hp hr hb hu hs]
    refine ⟨fun hwait => ⟨s.waitsFor n need, ?_, State.overlap_mem_waitsFor, State.entries_mem_waitsFor,
      State.closure_mem_waitsFor, State.queue_mem_waitsFor, State.reg_not_mem_waitsFor⟩, fun hno => ?_⟩
    · exact if_neg fun h => State.waitsFor_eq_nil_iff.mp h hwait
    · exact if_pos (State.waitsFor_eq_nil_iff.mpr hno)

end Sys2Proof.Machine

namespace Sys2Proof.Machine

/-! ## Branches (R143) -/

/-- An instruction that is not the last of an active loop's body has no reason 0x1B. -/
theorem Station.lastOfBody_eq_nil {t : Station} (h : ∀ l ∈ t.loops, l.last ≠ t.pc.toNat) : t.lastOfBody = [] :=
  reasonIf_false (by simpa using h)

/-- A taken branch whose target is in the parcel, once it issues. -/
theorem State.takeBranch_of_target {s : State} {n : Fin 24} {need : Need} {target : Nat} (ht : s.fetchCheck n target = none)
    (hb : need.bound = none) (h : s.issues n need) (word : BitVec 64) (f : Station → Station) :
    s.takeBranch n word need target f = s.jumped n target f := by
  refine State.takeBranch_go ?_ word f
  unfold State.targetBound
  rw [ht, ← hb]
  exact h

/-- A taken branch without a reason whose target is in the parcel, once it issues. -/
theorem State.takeBranch_of_reasons {s : State} {n : Fin 24} {gs ps reasons : List Nat} {target : Nat} (hr : reasons = [])
    (ht : s.fetchCheck n target = none) (h : s.issues n { gs := gs, ps := ps }) (word : BitVec 64) (f : Station → Station) :
    s.takeBranch n word { gs := gs, ps := ps, reasons := reasons } target f = s.jumped n target f := by
  subst hr
  exact State.takeBranch_of_target ht rfl h word f

/-- What a BRC without a reason asks of issue: its p register where its condition is on one, its g register otherwise. -/
theorem brcNeed_eq {c r : Nat} {reasons : List Nat} (hc : c < 6) (hr : reasons = []) :
    ({ gs := if (4 ≤ c && c < 6) = true then [] else [r], ps := if (4 ≤ c && c < 6) = true then [r] else [],
       reasons := reasons } : Need) = if 4 ≤ c then { ps := [r] } else { gs := [r] } := by
  subst hr
  by_cases h4 : 4 ≤ c <;> simp [h4, hc]

/-- The reasons of a BRC whose fields are good. -/
theorem brcReasons_eq {t : Station} {x : BitVec 64} (hbody : t.lastOfBody = []) (hrd : rdOf x = 0) (hzero : field x 38 32 = 0)
    (hc : cCond x < 6) (hra : 4 ≤ cCond x → raOf x < 8) :
    reserved (rdOf x) ++ reserved (field x 38 32) ++ reasonIf (6 ≤ cCond x) 0x1A ++
      (if (4 ≤ cCond x && cCond x < 6) = true then regBelow (raOf x) 8 else []) ++ t.lastOfBody = [] := by
  rw [reserved_eq_nil hrd, reserved_eq_nil hzero, reasonIf_false (by simpa using hc), hbody]
  split
  case isTrue h =>
    rw [regBelow_of_lt (hra (by simp at h; exact h.1))]
    rfl
  case isFalse => rfl

/-- A BRC with good fields, once it issues, by its condition. -/
theorem exec_brc_go {n : Fin 24} {w : BitVec 52} {s : State} {x : BitVec 64} (hx : x = wordOf 8 0x02 w)
    (hbody : (s.station n).lastOfBody = []) (hrd : rdOf x = 0) (hzero : field x 38 32 = 0) (hc : cCond x < 6)
    (hra : 4 ≤ cCond x → raOf x < 8)
    (h : s.issues n (if 4 ≤ cCond x then { ps := [raOf x] } else { gs := [raOf x] })) :
    ((s.station n).cond x = true → s.fetchCheck n ((s.station n).relTarget x) = none →
      exec (.brc n w) s = .next (s.jumped n ((s.station n).relTarget x) id)) ∧
    ((s.station n).cond x = false → exec (.brc n w) s = .next (s.ran n id)) := by
  have hreasons := brcReasons_eq hbody hrd hzero hc hra
  have hneed := brcNeed_eq (r := raOf x) hc hreasons
  change (_ → _ → execBrc n w s = _) ∧ (_ → execBrc n w s = _)
  unfold execBrc
  dsimp only
  rw [← hx, hneed]
  constructor
  · intro hcond ht
    rw [hcond, if_pos rfl]
    exact congrArg _ (State.takeBranch_of_target ht (by split <;> rfl) h x id)
  · intro hcond
    rw [hcond, if_neg (by decide)]
    exact congrArg _ (State.issueScalar_go h x id)

/-- The reasons of a JR to a multiple of 8 below 2^32. -/
theorem jrTarget_good {a : BitVec 64} (h8 : a.toNat % 8 = 0) (hlt : a.toNat < 2 ^ 32) :
    reasonIf (field a 63 32 != 0 || field a 2 0 != 0) 0x14 = [] := by
  have hhigh : field a 63 32 = 0 := by rw [field_eq, Nat.div_eq_of_lt hlt]; rfl
  have hlow : field a 2 0 = 0 := by rw [field_eq, Nat.pow_zero, Nat.div_one]; exact h8
  exact reasonIf_false (by rw [hhigh, hlow]; rfl)

/-- When each condition of a BRC holds. -/
theorem Station.cond_iff (t : Station) (w : BitVec 64) :
    (cCond w = 0 → (t.cond w = true ↔ t.rg (raOf w) = 0)) ∧ (cCond w = 1 → (t.cond w = true ↔ t.rg (raOf w) ≠ 0)) ∧
    (cCond w = 2 → (t.cond w = true ↔ (t.rg (raOf w)).toInt < 0)) ∧
    (cCond w = 3 → (t.cond w = true ↔ 0 ≤ (t.rg (raOf w)).toInt)) ∧
    (cCond w = 4 → (t.cond w = true ↔ t.rp (raOf w) ≠ 0)) ∧
    (cCond w = 5 → (t.cond w = true ↔ t.rp (raOf w) = BitVec.allOnes 256)) := by
  have hsign : (t.rg (raOf w)).getLsbD 63 = decide ((t.rg (raOf w)).toInt < 0) := by
    rw [← BitVec.msb_eq_toInt, BitVec.msb_eq_getLsbD_last]
  refine ⟨fun h => ?_, fun h => ?_, fun h => ?_, fun h => ?_, fun h => ?_, fun h => ?_⟩
  all_goals
    unfold Station.cond
    simp only [h, hsign]
    simp

/-- Settles O7: without a reason and with its target in the parcel, a branch issues and jumps. -/
theorem branchResults : Obligations.BranchResults := by
  refine ⟨?_, Station.cond_iff⟩
  intro n w s t hbody
  have hlast : t.lastOfBody = [] := Station.lastOfBody_eq_nil hbody
  refine ⟨fun hzero ht h => ?_, fun hrd hzero hc hra h => exec_brc_go rfl hlast hrd hzero hc hra h, fun hzero ht h => ?_,
    fun hrd hzero h8 hlt ht h => ?_⟩
  · exact congrArg _ (State.takeBranch_of_reasons (by rw [reserved_eq_nil hzero, hlast]; rfl) ht h _ _)
  · exact congrArg _ (State.takeBranch_of_reasons (by rw [reserved_eq_nil hzero, hlast]; rfl) ht h _ _)
  · exact congrArg _ (State.takeBranch_of_reasons
      (by rw [reserved_eq_nil hrd, reserved_eq_nil hzero, jrTarget_good h8 hlt, hlast]; rfl) ht h _ _)

/-! ## LOOP and END (R112, R144) -/

/-- Two changes of a station that agree on what it holds. -/
theorem State.modStation_congr {s : State} {n : Fin 24} {f g : Station → Station} (h : f (s.station n) = g (s.station n)) :
    s.modStation n f = s.modStation n g := by
  unfold State.station at h
  simp only [State.modStation, State.modMain, upd, h]

/-- An instruction without a reason, once it issues. -/
theorem State.issue_of_reasons {s : State} {n : Fin 24} {gs ps reasons : List Nat} (hr : reasons = [])
    (h : s.issues n { gs := gs, ps := ps }) (word : BitVec 64) (go : State → State) :
    s.issue n word { gs := gs, ps := ps, reasons := reasons } go = go (s.modStation n fun t => { t with stalls := [] }) := by
  subst hr
  exact State.issue_go h word go

/-- The reasons of a LOOP within the body of the enclosing loop, with fewer than four loops active. -/
theorem loopReasons_eq {t : Station} {x : BitVec 64} (hbody : t.lastOfBody = []) (hrd : rdOf x = 0)
    (hzero : field x 41 32 = 0) (himm : 0 < cImm x)
    (hin : ∀ l ∈ t.loops.head?, t.pc.toNat + 8 * (cImm x).toNat ≤ l.last) (hfew : t.loops.length < 4) :
    reserved (rdOf x) ++ reserved (field x 41 32) ++ reasonIf (cImm x ≤ 0) 0x1A ++
      reasonIf (0 < cImm x && (match t.loops with | l :: _ => l.last < t.pc.toNat + 8 * (cImm x).toNat | [] => false)) 0x1B ++
      reasonIf (4 ≤ t.loops.length) 0x15 ++ t.lastOfBody = [] := by
  have hnest : (match t.loops with | l :: _ => decide (l.last < t.pc.toNat + 8 * (cImm x).toNat) | [] => false) = false := by
    split
    case h_1 l ls hl => simpa using hin l (by rw [hl]; rfl)
    case h_2 => rfl
  rw [reserved_eq_nil hrd, reserved_eq_nil hzero, reasonIf_false (by simpa using himm), hbody,
    reasonIf_false (by rw [hnest, Bool.and_false]), reasonIf_false (by simpa using hfew)]
  rfl

/-- A LOOP with good fields, once it issues. -/
theorem exec_loop_go {n : Fin 24} {w : BitVec 52} {s : State} {x : BitVec 64} (hx : x = wordOf 8 0x05 w)
    (hreasons : reserved (rdOf x) ++ reserved (field x 41 32) ++ reasonIf (cImm x ≤ 0) 0x1A ++
      reasonIf (0 < cImm x && (match (s.station n).loops with
        | l :: _ => l.last < (s.station n).pc.toNat + 8 * (cImm x).toNat | [] => false)) 0x1B ++
      reasonIf (4 ≤ (s.station n).loops.length) 0x15 ++ (s.station n).lastOfBody = [])
    (h : s.issues n { gs := [raOf x] }) :
    exec (.loop n w) s = .next ((s.modStation n fun t => { t with stalls := [] }.openLoop x).retire n) := by
  subst hx
  refine congrArg _ (Eq.trans (State.issue_of_reasons hreasons h _ _) ?_)
  rw [State.modStation_modStation]

/-- Settles O8: LOOP and END issue with their effect. -/
theorem loopAndEndResults : Obligations.LoopAndEndResults := by
  constructor
  · intro n w s t x last hrd hzero himm hin hfew hbody h
    have hreasons := loopReasons_eq (Station.lastOfBody_eq_nil hbody) hrd hzero himm hin hfew
    have hgo := exec_loop_go rfl hreasons h
    constructor
    · intro hcount
      rw [hgo]
      refine congrArg (fun v => Host.Outcome.next (State.retire v n)) (State.modStation_congr ?_)
      exact if_neg hcount
    · intro hcount
      rw [hgo]
      refine congrArg (fun v => Host.Outcome.next (State.retire v n)) (State.modStation_congr ?_)
      exact if_pos hcount
  · intro n s hbody h
    have hreasons : reserved (field (wordOf 8 0x06 0) 51 0) ++ (s.station n).lastOfBody = [] := by
      rw [Station.lastOfBody_eq_nil hbody]
      decide
    change execEndProg n 0 s = _
    unfold execEndProg
    dsimp only
    rw [State.issue_of_reasons hreasons h, State.modStation_modStation]

end Sys2Proof.Machine

namespace Sys2Proof.Machine

/-! ## The vector unit's queue (R132) -/

/-- A vector instruction, once it issues: it presents no range. -/
theorem State.issueVec_go {s : State} {n : Fin 24} {need plain : Need} (hneed : need = plain) (hrange : plain.range = none)
    (h : s.issues n (s.inQueue n .vector plain)) (w : BitVec 64) :
    s.issueVec n w need = s.queued n .vector none { word := w, gval := (s.station n).rg (raOf w) } := by
  rw [State.issueVec, hneed, State.issueEngine_go h, hrange]

section
variable {w : BitVec 64} (himm : immOf w = 0) (htype : etypeOf w < 3)
include himm htype

theorem laneReasons_eq_nil : laneReasons w = [] := by
  rw [laneReasons, himm, reasonIf_false (by simpa using Nat.ne_of_lt htype)]
  rfl

theorem vecNeed3_eq (hd : rdOf w < 16) (ha : raOf w < 16) (hb : rbOf w < 16) : vecNeed3 w = { ps := [prOf w] } := by
  rw [vecNeed3, laneReasons_eq_nil himm htype, regBelow_of_lt hd, regBelow_of_lt ha, regBelow_of_lt hb]
  rfl

theorem vecNeedCmp_eq (hd : rdOf w < 8) (ha : raOf w < 16) (hb : rbOf w < 16) :
    vecNeedCmp w = { ps := [prOf w, rdOf w] } := by
  rw [vecNeedCmp, laneReasons_eq_nil himm htype, regBelow_of_lt hd, regBelow_of_lt ha, regBelow_of_lt hb]
  rfl

theorem vecNeedRed_eq (ha : raOf w < 16) (hb : rbOf w = 0) : vecNeedRed w = { gs := [rdOf w], ps := [prOf w] } := by
  rw [vecNeedRed, laneReasons_eq_nil himm htype, regBelow_of_lt ha, reserved_eq_nil hb]
  rfl

theorem vecNeedBcast_eq (hd : rdOf w < 16) (hb : rbOf w = 0) : vecNeedBcast w = { gs := [raOf w], ps := [prOf w] } := by
  rw [vecNeedBcast, laneReasons_eq_nil himm htype, regBelow_of_lt hd, reserved_eq_nil hb]
  rfl

end

theorem vecNeedMem_eq {w : BitVec 64} {size : Nat} (hzero : field w 46 32 = 0) (hd : rdOf w < 16)
    (hmod : (immOf w).toNat % 256 = 0) (hlt : (immOf w).toNat < size) : vecNeedMem w size = {} := by
  rw [vecNeedMem, reserved_eq_nil hzero, regBelow_of_lt hd, reasonIf_false (by simp [vecImm, hmod, Nat.not_le.mpr hlt])]
  rfl

/-- Settles O9: without a reason each vector instruction enters the queue. -/
theorem vectorInstructionsQueue : Obligations.VectorInstructionsQueue := by
  intro n w s
  have three (x) (himm : immOf x = 0) (htype : etypeOf x < 3) (hd : rdOf x < 16) (ha : raOf x < 16) (hb : rbOf x < 16) h :=
    next_of_eq (State.issueVec_go (s := s) (n := n) (vecNeed3_eq himm htype hd ha hb) rfl h x)
  have compare (x) (himm : immOf x = 0) (htype : etypeOf x < 3) (hd : rdOf x < 8) (ha : raOf x < 16) (hb : rbOf x < 16) h :=
    next_of_eq (State.issueVec_go (s := s) (n := n) (vecNeedCmp_eq himm htype hd ha hb) rfl h x)
  have reduce (x) (himm : immOf x = 0) (htype : etypeOf x < 3) (ha : raOf x < 16) (hb : rbOf x = 0) h :=
    next_of_eq (State.issueVec_go (s := s) (n := n) (vecNeedRed_eq himm htype ha hb) rfl h x)
  have broadcast (x) (himm : immOf x = 0) (htype : etypeOf x < 3) (hd : rdOf x < 16) (hb : rbOf x = 0) h :=
    next_of_eq (State.issueVec_go (s := s) (n := n) (vecNeedBcast_eq himm htype hd hb) rfl h x)
  have memory (x size) (hzero : field x 46 32 = 0) (hd : rdOf x < 16) (hmod : (immOf x).toNat % 256 = 0)
      (hlt : (immOf x).toNat < size) h :=
    next_of_eq (State.issueVec_go (s := s) (n := n) (vecNeedMem_eq hzero hd hmod hlt) rfl h x)
  simp only [List.forall_mem_cons, List.not_mem_nil, false_implies, implies_true, and_true]
  exact ⟨⟨three _, three _, three _, three _, three _, three _⟩, broadcast _, ⟨compare _, compare _⟩, ⟨reduce _, reduce _⟩,
    memory _ _, memory _ _, memory _ _⟩

/-! ## Transfers (R133 to R135) -/

/-- The last byte of a transfer, from the start of its space. -/
theorem add_xferLast (base off : Nat) (d : BitVec 128) :
    base + xferLast d off = base + off + (dLength d - 1) * dStride d + 2 ^ dEsize d - 1 := by
  have hpos : 0 < 2 ^ dEsize d := Nat.two_pow_pos _
  unfold xferLast
  omega

/-- A transfer, once it issues, with its range and its memory side. -/
theorem State.issueXfer_go {s : State} {n : Fin 24} {w : BitVec 64} {store acc : Bool}
    (h : s.issues n (s.inQueue n (bufEngine (mBuf w)) (s.xferNeed n w store acc))) :
    let d := (s.station n).rd (mD w)
    let p := s.parcelOfD n d
    let start := p.base.toNat + (s.station n).xferOff w
    s.issueXfer n w store acc = s.queued n (bufEngine (mBuf w))
      (some ⟨p.spaceFor n, start / 64, (start + (dLength d - 1) * dStride d + 2 ^ dEsize d - 1) / 64,
        if acc then .acc (BitVec.ofNat 2 (mAccop w)) else if store then .write else .read⟩)
      { word := w, xfer := some { space := p.spaceFor n, start := start, length := dLength d, esize := 2 ^ dEsize d,
                                  stride := dStride d } } := by
  dsimp only
  rw [State.issueXfer, State.issueEngine_go h, ← add_xferLast]
  rfl

/-- Settles O10: a transfer that passes every check enters its engine's queue. -/
theorem transfersQueue : Obligations.TransfersQueue := by
  unfold Obligations.TransfersQueue
  simp only [List.forall_mem_cons, List.not_mem_nil, false_implies, implies_true, and_true]
  exact ⟨fun n w s h => next_of_eq (State.issueXfer_go h), fun n w s h => next_of_eq (State.issueXfer_go h),
    fun n w s h => next_of_eq (State.issueXfer_go h)⟩

/-! ## The DMU, the arrays and the quantiser (R137 to R141) -/

/-- An instruction of an engine that presents no range, once it issues. -/
theorem State.issueEngine_of_need {s : State} {n : Fin 24} {e : Engine} {need plain : Need} {i : Issued}
    (hneed : need = plain) (hrange : plain.range = none) (h : s.issues n (s.inQueue n e plain)) :
    s.issueEngine n e need i = s.queued n e none i := by
  rw [hneed, State.issueEngine_go h, hrange]

/-- Whether MASK names an array. -/
theorem mem_maskArrays {m : BitVec 32} {a : Fin 32} : a ∈ maskArrays m ↔ m.getLsbD a.val = true := by
  simp [maskArrays, setBits]

/-- An ACONV of WRITTEN arrays has no reason and asks for no other array. -/
theorem State.aconvNeed_eq {s : State} {n : Fin 24} {x : BitVec 64} (hzero : field x 8 0 = 0) (hmask : aMask x ≠ 0)
    (hwritten : ∀ a : Fin 32, (aMask x).getLsbD a.val = true → (s.arrayNv n a).state = 1) : s.aconvNeed n x = {} := by
  have hfind : (maskArrays (aMask x)).find? (fun a => (s.arrayNv n a).state != 1) = none := by
    rw [List.find?_eq_none]
    intro a ha
    rw [hwritten a (mem_maskArrays.mp ha)]
    decide
  rw [State.aconvNeed, reserved_eq_nil hzero, reasonIf_false (by simpa using hmask), hfind]
  rfl

theorem maaNeed_eq {x : BitVec 64} (hzero : field x 18 0 = 0) (hmask : aMask x ≠ 0) : maaNeed x = {} := by
  rw [maaNeed, reserved_eq_nil hzero, reasonIf_false (by simpa using hmask)]
  rfl

/-- Settles O11: each instruction enters the queue of its engine, and none presents a range. -/
theorem matrixArrayQuantiserQueue : Obligations.MatrixArrayQuantiserQueue := by
  intro n w s
  have plain e need i (hrange : need.range = none) h := next_of_eq (State.issueEngine_of_need (s := s) (n := n) (e := e)
    (i := i) (rfl : need = need) hrange h)
  simp only [List.forall_mem_cons, List.not_mem_nil, false_implies, implies_true, and_true]
  refine ⟨⟨plain _ _ _ rfl, plain _ _ _ rfl, plain _ _ _ rfl⟩, ?_, ?_, plain _ _ _ rfl, plain _ _ _ rfl, plain _ _ _ rfl⟩
  · exact fun hzero hmask hwritten h =>
      next_of_eq (State.issueEngine_of_need (State.aconvNeed_eq hzero hmask hwritten) rfl h)
  · exact fun hzero hmask h => next_of_eq (State.issueEngine_of_need (maaNeed_eq hzero hmask) rfl h)

end Sys2Proof.Machine

namespace Sys2Proof.Machine

/-! ## The head of an engine's queue (R105, R108) -/

/-- An instruction that nothing holds back and that has started every array can retire. -/
theorem Station.canRetire_eq_true {t : Station} {e : Engine} {i : Issued} {switching : Bool} (hheld : t.heldBack e i = false)
    (htodo : i.todo = 0) (hmaa : majorOf i.word = 4 → minorOf i.word = 2 → switching = false) :
    t.canRetire e i switching = true := by
  have hswitch : (switching && majorOf i.word == 4 && minorOf i.word == 2) = false := by
    by_cases h4 : majorOf i.word = 4
    · by_cases h2 : minorOf i.word = 2
      · rw [hmaa h4 h2]; rfl
      · simp [h2]
    · simp [h4]
  rw [Station.canRetire, hheld, hswitch, htodo]
  rfl

/-- An instruction without conversions retires. -/
theorem exec_instructionRetire_go {n : Fin 24} {e : Engine} {i : Issued} {rest : List Issued} {s : State}
    (hq : (s.station n).queueOf e = i :: rest) (hon : s.stationsOn = true)
    (hcan : (s.station n).canRetire e i s.main.pwr.switching = true) (hconvs : i.convs = []) :
    exec (.instructionRetire n e) s =
      .next (((s.engineEffect n i).modStation n fun t => t.dequeue e i).retire n |>.settle n) := by
  change execInstructionRetire n e s = _
  unfold execInstructionRetire
  simp only [hq, hon, hcan, hconvs]
  rfl

/-! ## The start of a conversion (R139, R157) -/

/-- The first array that a mask names is the lowest. -/
theorem maskArrays_eq_cons {m : BitVec 32} {a : Fin 32} (ha : m.getLsbD a.val = true)
    (hlow : ∀ b : Fin 32, b < a → m.getLsbD b.val = false) : ∃ rest, maskArrays m = a :: rest := by
  have hmem : a ∈ maskArrays m := mem_maskArrays.mpr ha
  have hsorted : (maskArrays m).Pairwise (· < ·) := by
    unfold maskArrays setBits
    exact (List.pairwise_lt_finRange 32).filter _
  cases hm : maskArrays m with
  | nil => rw [hm] at hmem; cases hmem
  | cons b rest =>
    rw [hm] at hmem hsorted
    refine ⟨rest, ?_⟩
    obtain rfl | hrest := List.mem_cons.mp hmem
    · rfl
    · have hlt : b < a := (List.pairwise_cons.mp hsorted).1 a hrest
      have hb : m.getLsbD b.val = true := mem_maskArrays.mp (hm ▸ List.mem_cons_self)
      rw [hlow b hlt] at hb
      cases hb

/-- Writes of tables change the arrays' records only. -/
theorem Station.foldl_applyWrite (ws : List HeldWrite) (t : Station) :
    ws.foldl Station.applyWrite t = { t with arrays := (ws.foldl Station.applyWrite t).arrays } := by
  induction ws generalizing t with
  | nil => rfl
  | cons w ws ih =>
    rw [List.foldl_cons, ih (t.applyWrite w)]
    rfl

/-- Writes of tables of one array leave the records of the others. -/
theorem Station.foldl_applyWrite_ne {a b : Fin 32} (hb : b ≠ a) (ws : List HeldWrite) (hws : ∀ w ∈ ws, w.array = a)
    (t : Station) : (ws.foldl Station.applyWrite t).arrays[b] = t.arrays[b] := by
  induction ws generalizing t with
  | nil => rfl
  | cons w ws ih =>
    rw [List.forall_mem_cons] at hws
    rw [List.foldl_cons, ih hws.2]
    exact upd_get_ne _ _ (by rw [hws.1]; exact hb.symm)

/-- The release of an array's held writes changes the held writes and the arrays' records only. -/
theorem Station.releaseArray_eq (t : Station) (a : Fin 32) : t.releaseArray a =
    { t with heldWrites := t.heldWrites.filter fun h => h.array != a, arrays := (t.releaseArray a).arrays } :=
  Station.foldl_applyWrite _ _

/-- It leaves the record of every other array. -/
theorem Station.releaseArray_ne (t : Station) {a b : Fin 32} (hb : b ≠ a) : (t.releaseArray a).arrays[b] = t.arrays[b] :=
  Station.foldl_applyWrite_ne hb _ (fun w hw => by simpa using (List.mem_filter.mp hw).2) _

/-- Without a held write of the array it leaves them all. -/
theorem Station.releaseArray_none (t : Station) {a : Fin 32} (h : ∀ w ∈ t.heldWrites, w.array ≠ a) :
    (t.releaseArray a).arrays = t.arrays := by
  have hnone : (t.heldWrites.filter fun w => w.array == a) = [] := by simpa using h
  unfold Station.releaseArray
  rw [hnone]
  rfl

/-- With a slot free, the lowest array to start of the oldest ACONV starts. -/
theorem exec_conversionStart_go {n : Fin 24} {i : Issued} {a : Fin 32} {rest : List (Fin 32)} {s : State}
    (hi : nextConv (s.station n).arrQ = some i) (ha : maskArrays i.todo = a :: rest) (hon : s.stationsOn = true)
    (hswitch : s.main.pwr.switching = false) (hheld : (s.station n).heldBack .arrays i = false)
    (hslot : (s.station n).converting < 2) (hfree : (s.station n).arrayBusy a = false) :
    exec (.conversionStart n) s = .next (s.startConv n i a) := by
  change execConversionStart n s = _
  unfold execConversionStart
  simp only [hi, ha, hon, hswitch, hheld, Bool.not_false, Bool.and_true, State.when_true, if_neg (Nat.not_le.mpr hslot)]
  rw [hfree]
  rfl

/-- Settles O12: the head of a queue retires, and the next array starts behind the writes that were held for it. -/
theorem instructionRetires : Obligations.InstructionRetires := by
  constructor
  · intro n e i rest s hon hq hheld htodo hconvs hmaa
    exact exec_instructionRetire_go hq hon (Station.canRetire_eq_true hheld htodo hmaa) hconvs
  · intro n i a s t hi ha hlow hon hswitch hheld hslot hfree free
    obtain ⟨rest, hmask⟩ := maskArrays_eq_cons ha hlow
    refine ⟨?_, fun b hb => Station.releaseArray_ne t hb, Station.releaseArray_none t⟩
    rw [exec_conversionStart_go hi hmask hon hswitch hheld hslot hfree]
    refine congrArg (fun v => Host.Outcome.next (State.nextStamp v)) (State.modStation_congr ?_)
    rw [Station.releaseArray_eq]

end Sys2Proof.Machine

namespace Sys2Proof.Machine

/-! ## Lanes of a v register (R132) -/

/-- A digit of a number put together from digits, the lowest first. -/
theorem foldr_lanes_digit {b : Nat} (xs : List Nat) (hxs : ∀ x ∈ xs, x < 2 ^ b) (i : Nat) :
    xs.foldr (fun x a => x + a * 2 ^ b) 0 / 2 ^ (b * i) % 2 ^ b = xs.getD i 0 := by
  induction xs generalizing i with
  | nil => simp
  | cons x xs ih =>
    rw [List.forall_mem_cons] at hxs
    obtain ⟨hx, hxs⟩ := hxs
    have hshift : (x + xs.foldr (fun x a => x + a * 2 ^ b) 0 * 2 ^ b) / 2 ^ b = xs.foldr (fun x a => x + a * 2 ^ b) 0 := by
      rw [Nat.add_mul_div_right _ _ (Nat.two_pow_pos b), Nat.div_eq_of_lt hx, Nat.zero_add]
    cases i with
    | zero => simp [Nat.mod_eq_of_lt hx]
    | succ i =>
      rw [List.foldr_cons, Nat.mul_succ, Nat.add_comm (b * i), Nat.pow_add, ← Nat.div_div_eq_div_mul, hshift, ih hxs]
      rfl

/-- A lane of a register put together from lanes. -/
theorem laneAt_joinLanes {b : Nat} {xs : List Nat} (hxs : ∀ x ∈ xs, x < 2 ^ b) {i : Nat} (hi : b * i + b ≤ 2048) :
    laneAt b (joinLanes 2048 b xs) i = xs.getD i 0 := by
  rw [← foldr_lanes_digit xs hxs i]
  unfold laneAt joinLanes
  apply Nat.eq_of_testBit_eq
  intro k
  simp only [BitVec.extractLsb'_toNat, BitVec.toNat_ofNat, Nat.shiftRight_eq_div_pow, Nat.testBit_mod_two_pow,
    Nat.testBit_div_two_pow]
  by_cases hk : k < b
  · simp [hk, show k + b * i < 2048 by omega]
  · simp [hk]

theorem laneAt_lt (b : Nat) (v : BitVec 2048) (i : Nat) : laneAt b v i < 2 ^ b := BitVec.isLt _

/-- An encoding takes its format's width. -/
theorem FpFmt.encode_lt {f : FpFmt} {i : Nat} (hinf : f.inf = some i) (hw : 0 < f.width) (hi : i < 2 ^ (f.width - 1))
    (htop : f.top < 2 ^ (f.width - 1)) (hnan : f.nan < 2 ^ f.width) (x : Fl) : f.encode x < 2 ^ f.width := by
  have hdouble : 2 ^ f.width = 2 ^ (f.width - 1) + 2 ^ (f.width - 1) := by
    rw [← Nat.two_mul, ← Nat.pow_succ', Nat.succ_eq_add_one, Nat.sub_add_cancel hw]
  have hjoin : ∀ (s : Bool) (m : Nat), m < 2 ^ (f.width - 1) → f.join s m < 2 ^ f.width := by
    intro s m hm
    cases s <;> simp only [FpFmt.join, if_true, Bool.false_eq_true, if_false] <;> omega
  cases x with
  | nan => exact hnan
  | inf s => exact hjoin s _ (by rw [hinf]; exact hi)
  | fin s m e =>
    refine hjoin s _ ?_
    rw [hinf]
    split
    case isTrue => exact hi
    case isFalse h => exact lt_of_le_of_lt (Nat.le_of_not_lt h) htop

/-- The result of an operation on a lane fits the lane. -/
theorem laneOp_lt {etype : Nat} (htype : etype < 3) (ff : Fl → Fl → Fl → Fl) (fi : Int → Int → Int → Int) (d a b : Nat) :
    laneOp etype ff fi d a b < 2 ^ laneBits etype := by
  unfold laneOp
  obtain rfl | rfl | rfl : etype = 0 ∨ etype = 1 ∨ etype = 2 := by omega
  · exact FpFmt.encode_lt (f := fp32) rfl (by decide) (by decide) (by decide) (by decide) _
  · exact FpFmt.encode_lt (f := bf16) rfl (by decide) (by decide) (by decide) (by decide) _
  · have hpos : (0 : Int) < (2 ^ 32 : Nat) := by decide
    rw [if_pos rfl, Int.toNat_lt (Int.emod_nonneg _ (ne_of_gt hpos))]
    exact Int.emod_lt_of_pos _ hpos

/-- Every lane lies within the register. -/
theorem lane_in_register {etype i : Nat} (hi : i < laneCount etype) : laneBits etype * i + laneBits etype ≤ 2048 := by
  unfold laneCount at hi
  unfold laneBits
  by_cases h : etype = 1
  · rw [if_pos h] at hi ⊢
    omega
  · rw [if_neg h] at hi ⊢
    omega

/-! ## Registers after a write of one -/

theorem Station.rv_wv_same {t : Station} {r : Nat} (hr : r < 16) (v : BitVec 2048) : (t.wv r v).rv r = v := by
  simp [Station.rv, Station.wv, Vector.getD, hr]

theorem Station.rv_wv_ne {t : Station} {r k : Nat} (hk : k < 16) (hne : k ≠ r) (v : BitVec 2048) :
    (t.wv r v).rv k = t.rv k := by
  simp [Station.rv, Station.wv, Vector.getD, hk, hne.symm]

/-- A lane of v[RD] after a lane-wise operation. -/
theorem Station.laneAt_vecMap {t : Station} {w : BitVec 64} (htype : etypeOf w < 3) (hd : rdOf w < 16)
    (ff : Fl → Fl → Fl → Fl) (fi : Int → Int → Int → Int) {i : Nat} (hi : i < laneCount (etypeOf w)) :
    let b := laneBits (etypeOf w)
    laneAt b ((t.vecMap w ff fi).rv (rdOf w)) i =
      if (t.rp (prOf w)).getLsbD (b / 8 * i)
      then laneOp (etypeOf w) ff fi (laneAt b (t.rv (rdOf w)) i) (laneAt b (t.rv (raOf w)) i) (laneAt b (t.rv (rbOf w)) i)
      else laneAt b (t.rv (rdOf w)) i := by
  dsimp only
  unfold Station.vecMap
  dsimp only
  rw [Station.rv_wv_same hd, laneAt_joinLanes _ (lane_in_register hi), List.getD_eq_getElem _ _ (by simpa using hi),
    List.getElem_map, List.getElem_range]
  · rfl
  · intro x hx
    obtain ⟨k, -, rfl⟩ := List.mem_map.mp hx
    split
    · exact laneOp_lt htype ff fi _ _ _
    · exact laneAt_lt _ _ _

/-- Settles O13: each of the six instructions is a lane-wise operation on v[RD]. -/
theorem vectorLaneResults : Obligations.VectorLaneResults := by
  intro k ff fi hrow t w g hminor htype hd b u
  have hu : u = t.vecMap w ff fi := by
    change t.vectorEffect w g = _
    unfold Station.vectorEffect
    rw [hminor]
    simp only [List.mem_cons, Prod.mk.injEq, List.not_mem_nil, or_false] at hrow
    obtain ⟨rfl, rfl, rfl⟩ | ⟨rfl, rfl, rfl⟩ | ⟨rfl, rfl, rfl⟩ | ⟨rfl, rfl, rfl⟩ | ⟨rfl, rfl, rfl⟩ | ⟨rfl, rfl, rfl⟩ := hrow
    all_goals rfl
  rw [hu]
  exact ⟨fun i hi => Station.laneAt_vecMap htype hd ff fi hi, fun r hr hne => Station.rv_wv_ne hr hne _, rfl⟩

end Sys2Proof.Machine

namespace Sys2Proof.Machine

/-! ## Several writes of one memory -/

/-- Bytes written at several addresses, one after the other. -/
def Memory.writeAll (m : Memory) (ps : List (Nat × List Byte)) : Memory := ps.foldl (fun m p => m.writeBytes p.1 p.2) m

/-- The writes leave every address outside their bytes. -/
theorem Memory.read_writeAll_out {m : Memory} (hw : m.wf = true) {x : Nat} {ps : List (Nat × List Byte)}
    (hx : ∀ p ∈ ps, x < p.1 ∨ p.1 + p.2.length ≤ x) : (m.writeAll ps).read x = m.read x := by
  induction ps generalizing m with
  | nil => rfl
  | cons p ps ih =>
    rw [List.forall_mem_cons] at hx
    obtain ⟨hp, hps⟩ := hx
    calc (m.writeAll (p :: ps)).read x
      _ = (m.writeBytes p.1 p.2).read x := ih (Memory.wf_writeBytes hw _ _) hps
      _ = m.read x := Memory.read_writeBytes_out hw hp

/-- Each of several writes at rising addresses that do not overlap reads back. -/
theorem Memory.read_writeAll_in {m : Memory} (hw : m.wf = true) {ps : List (Nat × List Byte)}
    (hrise : ps.Pairwise fun p q => p.1 + p.2.length ≤ q.1) {p : Nat × List Byte} (hp : p ∈ ps) {i : Nat}
    (hi : i < p.2.length) : (m.writeAll ps).read (p.1 + i) = p.2[i] := by
  induction ps generalizing m with
  | nil => cases hp
  | cons q ps ih =>
    obtain ⟨hq, hps⟩ := List.pairwise_cons.mp hrise
    obtain rfl | hp := List.mem_cons.mp hp
    · calc (m.writeAll (p :: ps)).read (p.1 + i)
        _ = (m.writeBytes p.1 p.2).read (p.1 + i) :=
          Memory.read_writeAll_out (Memory.wf_writeBytes hw _ _) fun r hr => by have := hq r hr; omega
        _ = p.2[i] := Memory.read_writeBytes_in hw hi
    · exact ih (Memory.wf_writeBytes hw _ _) hps hp

/-- Bytes read where every byte is as it was. -/
theorem Memory.readBytes_congr {m m' : Memory} {a n : Nat} (h : ∀ x, a ≤ x → x < a + n → m.read x = m'.read x) :
    m.readBytes a n = m'.readBytes a n := by
  refine List.map_congr_left fun i hi => h _ (Nat.le_add_right a i) ?_
  have := List.mem_range.mp hi
  omega

/-! ## Rows of a tile (R134, R137) -/

/-- The bytes of a row of elements. -/
def rowBytes (xs : List (BitVec 32)) : List Byte := xs.flatMap fun x => toBytes x 4

@[simp] theorem length_rowBytes (xs : List (BitVec 32)) : (rowBytes xs).length = 4 * xs.length := by
  simp [rowBytes, List.length_flatMap, Nat.mul_comm]

/-- A byte of a row belongs to one element. -/
theorem getElem_rowBytes (xs : List (BitVec 32)) {c k : Nat} (hc : c < xs.length) (hk : k < 4)
    (h : 4 * c + k < (rowBytes xs).length) : (rowBytes xs)[4 * c + k] = byteOf xs[c] k := by
  induction xs generalizing c with
  | nil => cases hc
  | cons x xs ih =>
    cases c with
    | zero =>
      have hrow : rowBytes (x :: xs) = toBytes x 4 ++ rowBytes xs := rfl
      simp [hrow, hk]
    | succ c =>
      have hrow : rowBytes (x :: xs) = toBytes x 4 ++ rowBytes xs := rfl
      have hle : ¬ 4 * (c + 1) + k < 4 := by omega
      have hsub : 4 * (c + 1) + k - 4 = 4 * c + k := by omega
      simp only [hrow, List.getElem_append, length_toBytes, hle, dite_false, hsub, List.getElem_cons_succ]
      exact ih (by simpa using hc) (by simp at hc ⊢; omega)

/-- The writes of a tile: each row at the address of its first element. -/
def tileWrites (w : BitVec 64) (rows : List (List (BitVec 32))) : List (Nat × List Byte) :=
  rows.mapIdx fun r xs => (accAddr w r 0, rowBytes xs)

/-- The accumulator after a tile was written. -/
theorem Station.putTile_acc (t : Station) (w : BitVec 64) (rows : List (List (BitVec 32))) :
    (t.putTile w rows).acc = t.acc.writeAll (tileWrites w rows) := by
  have hfold : ∀ (ps : List (Nat × List (BitVec 32))) (t : Station),
      (ps.foldl (fun t p => t.wbuf 2 (accAddr w p.1 0) (p.2.flatMap fun x => toBytes x 4)) t).acc =
        t.acc.writeAll (ps.map fun p => (accAddr w p.1 0, rowBytes p.2)) := by
    intro ps
    induction ps with
    | nil => exact fun t => rfl
    | cons p ps ih => exact fun t => ih _
  rw [Station.putTile, hfold]
  exact congrArg _ (List.ext_getElem (by simp [tileWrites]) fun i _ _ => by simp [tileWrites])

section
variable {t : Station} {w : BitVec 64} {rows : List (List (BitVec 32))} (hw : t.acc.wf = true)
  (hcols : 16 * xCoff w + xN w ≤ 256) (hrows : ∀ xs ∈ rows, xs.length = xN w)
include hw hcols hrows

omit hw in
/-- The rows of a tile do not overlap. -/
theorem tileWrites_rise : (tileWrites w rows).Pairwise fun p q => p.1 + p.2.length ≤ q.1 := by
  rw [List.pairwise_iff_getElem]
  intro i j hi hj hij
  have hxs : (rows[i]'(by simpa [tileWrites] using hi)).length = xN w := hrows _ (List.getElem_mem _)
  simp only [tileWrites, List.getElem_mapIdx, length_rowBytes, hxs, accAddr]
  omega

/-- An element of the tile after it was written. -/
theorem Station.putTile_in {r c : Nat} (hr : r < rows.length) (hlo : 16 * xCoff w ≤ c)
    (hc : c - 16 * xCoff w < rows[r].length) :
    (t.putTile w rows).acc.readBytes ((256 * r + c) * 4) 4 = toBytes rows[r][c - 16 * xCoff w] 4 := by
  have hmem : (accAddr w r 0, rowBytes rows[r]) ∈ tileWrites w rows :=
    List.mem_iff_getElem.mpr ⟨r, by simpa [tileWrites] using hr, by simp [tileWrites]⟩
  rw [Station.putTile_acc]
  refine List.map_congr_left fun k hk => ?_
  have hk : k < 4 := List.mem_range.mp hk
  have hlt : 4 * (c - 16 * xCoff w) + k < (rowBytes rows[r]).length := by rw [length_rowBytes]; omega
  have haddr : (256 * r + c) * 4 + k = accAddr w r 0 + (4 * (c - 16 * xCoff w) + k) := by
    unfold accAddr
    omega
  rw [haddr, Memory.read_writeAll_in hw (tileWrites_rise hcols hrows) hmem hlt]
  exact getElem_rowBytes _ hc hk hlt

/-- Every element outside the tile keeps its bytes. -/
theorem Station.putTile_out {r c : Nat} (hlt : c < 256)
    (hout : ¬ (r < rows.length ∧ 16 * xCoff w ≤ c ∧ c < 16 * xCoff w + xN w)) :
    (t.putTile w rows).acc.readBytes ((256 * r + c) * 4) 4 = t.acc.readBytes ((256 * r + c) * 4) 4 := by
  rw [Station.putTile_acc]
  refine Memory.readBytes_congr fun x hx hx' => Memory.read_writeAll_out hw fun p hp => ?_
  obtain ⟨i, hi, rfl⟩ := List.mem_iff_getElem.mp hp
  have hi' : i < rows.length := by simpa [tileWrites] using hi
  have hxs : rows[i].length = xN w := hrows _ (List.getElem_mem _)
  simp only [tileWrites, List.getElem_mapIdx, length_rowBytes, hxs, accAddr]
  omega

end

/-! ## The effect of an X instruction (R137) -/

/-- An effect that needs no entry, on flags of a station, leaves the accumulators. -/
theorem State.defer_qntFlags_acc (s : State) (c : Fin 8) (tag : Option (BitVec 16)) (n : Fin 24) (f : BitVec 7) :
    ((s.defer c tag (.qntFlags n f)).station n).acc = (s.station n).acc := by
  have happly : ((s.applyDeferred (.qntFlags n f)).station n).acc = (s.station n).acc := by
    unfold State.applyDeferred
    rw [State.modStation_station_same]
  unfold State.defer
  split
  · exact happly
  · split
    · rfl
    · exact happly
    · rfl

/-- The rows that an X instruction writes. -/
def Station.matrixRows (t : Station) (w : BitVec 64) : List (List (BitVec 32)) :=
  if minorOf w = 3 then List.replicate (xM w) (List.replicate (xN w) 0) else (t.tile w (minorOf w == 2)).1

/-- The accumulator after an X instruction. -/
theorem State.matrixEffect_acc (s : State) (n : Fin 24) (i : Issued) :
    ((s.matrixEffect n i).station n).acc = ((s.station n).putTile i.word ((s.station n).matrixRows i.word)).acc := by
  unfold State.matrixEffect Station.matrixRows
  dsimp only
  split
  · rw [State.modStation_station_same]
  · split
    · rw [State.modStation_station_same]
    · rw [State.defer_qntFlags_acc, State.modStation_station_same]

theorem Station.length_matrixRows (t : Station) (w : BitVec 64) : (t.matrixRows w).length = xM w := by
  unfold Station.matrixRows Station.tile
  split <;> simp

theorem Station.length_of_mem_matrixRows {t : Station} {w : BitVec 64} {xs : List (BitVec 32)}
    (h : xs ∈ t.matrixRows w) : xs.length = xN w := by
  unfold Station.matrixRows Station.tile at h
  split at h
  · rw [List.eq_of_mem_replicate h, List.length_replicate]
  · obtain ⟨r, -, rfl⟩ := List.mem_map.mp h
    simp

/-- A row of ACLR is zero. -/
theorem Station.matrixRows_aclr {t : Station} {w : BitVec 64} (hm : minorOf w = 3) {r c : Nat}
    (hr : r < (t.matrixRows w).length) (hc : c < ((t.matrixRows w)[r]).length) : (t.matrixRows w)[r][c] = 0 := by
  simp only [Station.matrixRows, hm, if_true, List.getElem_replicate]

/-- An element of MMA and MMAZ: the sum of its row and column onto its old value, or onto +0. -/
theorem Station.matrixRows_mma {t : Station} {w : BitVec 64} (hm : minorOf w ≠ 3) {r c : Nat}
    (hr : r < (t.matrixRows w).length) (hc : c < ((t.matrixRows w)[r]).length) :
    (t.matrixRows w)[r][c] = dmuSum (if (minorOf w == 2) = true then 0 else BitVec.ofNat 32 (t.acc.readLE (accAddr w r c) 4))
      (aRow w (t.bufA.readBytes (64 * xAoff w) (xABytes w)) r)
      ((bColumn w (t.bufB.readBytes (64 * xBoff w) (xCodeBytes w))
        ((if xSsel w then t.bufA else t.bufB).readBytes (64 * xSoff w) (xScaleBytes w)) c).map Prod.fst) := by
  simp only [Station.matrixRows, if_neg hm, Station.tile, List.getElem_map, List.getElem_mapIdx, List.getElem_range]

/-! ## The accumulate operations (R97) -/

/-- The INT32 sum saturates. -/
theorem accumulate_int_toInt (a b : BitVec 32) :
    (accumulate 2 a b).1.toInt = max (-2 ^ 31) (min (2 ^ 31 - 1) (a.toInt + b.toInt)) := by
  unfold accumulate
  rw [if_pos rfl]
  dsimp only
  split
  case isTrue h =>
    rw [show (0x80000000 : BitVec 32).toInt = -2147483648 by decide]
    omega
  case isFalse h =>
    split
    case isTrue h' =>
      rw [show (0x7FFFFFFF : BitVec 32).toInt = 2147483647 by decide]
      omega
    case isFalse h' =>
      rw [BitVec.toInt_ofInt, Int.bmod_eq_of_le (by omega) (by omega)]
      omega

/-- It reports the saturation. -/
theorem accumulate_int_flag (a b : BitVec 32) : (accumulate 2 a b).2 =
    if a.toInt + b.toInt < -2 ^ 31 ∨ 2 ^ 31 - 1 < a.toInt + b.toInt then flagIntSat else 0 := by
  unfold accumulate
  rw [if_pos rfl]
  dsimp only
  split
  case isTrue h => rw [if_pos (.inl (by omega))]; rfl
  case isFalse h =>
    split
    case isTrue h' => rw [if_pos (.inr (by omega))]; rfl
    case isFalse h' => rw [if_neg (by omega)]

theorem Fl.nan_add (x : Fl) : Fl.nan.add x = .nan := by cases x <;> rfl

theorem Fl.add_nan (x : Fl) : x.add .nan = .nan := by cases x <;> rfl

/-- The FP32 sum of a NaN is the canonical NaN. -/
theorem add32_nan {a b : BitVec 32} (h : dec32 a = .nan ∨ dec32 b = .nan) : add32 a b = 0x7FC00000 := by
  unfold add32
  obtain h | h := h
  · rw [h, Fl.nan_add]; rfl
  · rw [h, Fl.add_nan]; rfl

/-- So is the FP32 maximum. -/
theorem max32_nan {a b : BitVec 32} (h : dec32 a = .nan ∨ dec32 b = .nan) : max32 a b = 0x7FC00000 := by
  unfold max32 Fl.max
  rw [if_pos h]
  rfl

/-- A canonical NaN is reported. -/
theorem accumulate_nan {op : Nat} {a b : BitVec 32} (hop : op = 1 ∨ op = 3)
    (h : dec32 a = .nan ∨ dec32 b = .nan) : accumulate op a b = (0x7FC00000, flagFpNan) := by
  obtain rfl | rfl := hop
  · unfold accumulate
    rw [if_neg (by decide), if_pos rfl, add32_nan h]
    rfl
  · unfold accumulate
    rw [if_neg (by decide), if_neg (by decide), max32_nan h]
    rfl

/-- The sum of opposite infinities is a NaN. -/
theorem accumulate_inf_sub {a b : BitVec 32} (ha : dec32 a = .inf false) (hb : dec32 b = .inf true) :
    accumulate 1 a b = (0x7FC00000, flagFpNan) := by
  unfold accumulate
  rw [if_neg (by decide), if_pos rfl, add32, ha, hb]
  rfl

/-- Settles O16: the rows that an X instruction writes are the tile's, and they do not overlap. -/
theorem matrixResults : Obligations.MatrixResults := by
  refine ⟨?_, fun a b => ⟨accumulate_int_toInt a b, accumulate_int_flag a b, fun op hop h => accumulate_nan hop h,
    accumulate_inf_sub, by decide, by decide⟩⟩
  intro n i s hs _ hcols w t u inTile scales col row
  have hacc : t.acc.wf = true := by
    obtain ⟨-, -, -, hst, -⟩ := s.memWf_iff.mp hs
    have hn := hst n
    rw [Station.memWf_eq, List.all_eq_true] at hn
    exact hn _ (by simp [Station.mems, t])
  have hu : (u.station n).acc = (t.putTile w (t.matrixRows w)).acc := State.matrixEffect_acc s n i
  have hlen := Station.length_matrixRows t w
  have hrows : ∀ xs ∈ t.matrixRows w, xs.length = xN w := fun xs hxs => Station.length_of_mem_matrixRows hxs
  have elem : ∀ r c, inTile r c → ∃ (hr : r < (t.matrixRows w).length) (hc : c - 16 * xCoff w < ((t.matrixRows w)[r]).length),
      (u.station n).acc.readBytes ((256 * r + c) * 4) 4 = toBytes (t.matrixRows w)[r][c - 16 * xCoff w] 4 := by
    rintro r c ⟨hr, hlo, hc⟩
    have hr' : r < (t.matrixRows w).length := by rw [hlen]; exact hr
    have hc' : c - 16 * xCoff w < ((t.matrixRows w)[r]).length := by rw [hrows _ (List.getElem_mem _)]; omega
    exact ⟨hr', hc', by rw [hu]; exact Station.putTile_in hacc hcols hrows hr' hlo hc'⟩
  have haddr : ∀ r c, inTile r c → accAddr w r (c - 16 * xCoff w) = (256 * r + c) * 4 := by
    rintro r c ⟨-, hlo, -⟩
    unfold accAddr
    omega
  refine ⟨?_, ?_, ?_, ?_⟩
  · intro r c hout hlt
    rw [hu]
    exact Station.putTile_out hacc hcols hrows hlt (by rw [hlen]; exact hout)
  · intro hm r c hin
    obtain ⟨hr, hc, helem⟩ := elem r c hin
    rw [helem, Station.matrixRows_aclr hm]
    rfl
  · intro hm r c hin
    obtain ⟨hr, hc, helem⟩ := elem r c hin
    rw [helem, Station.matrixRows_mma (by rw [hm]; decide), hm, haddr r c hin]
    rfl
  · intro hm r c hin
    obtain ⟨hr, hc, helem⟩ := elem r c hin
    rw [helem, Station.matrixRows_mma (by rw [hm]; decide), hm]
    rfl

end Sys2Proof.Machine

namespace Sys2Proof.Machine

/-! ## Stations after a retirement (R108) -/

/-- The count of retirements is all that a retirement changes of the stations. -/
theorem State.retire_station (s : State) (n : Fin 24) :
    (s.retire n).station = (s.modStation n fun t => { t with retired := t.retired + 1 }).station := by
  unfold State.retire
  dsimp only
  split <;> rfl

theorem State.retire_station_same (s : State) (n : Fin 24) :
    (s.retire n).station n = { s.station n with retired := (s.station n).retired + 1 } := by
  rw [State.retire_station, State.modStation_station_same]

theorem State.retire_station_ne (s : State) {n m : Fin 24} (h : m ≠ n) : (s.retire n).station m = s.station m := by
  rw [State.retire_station, State.modStation_station_ne h]

/-- A station after it ran one instruction. -/
theorem State.ran_station_same (s : State) (n : Fin 24) (f : Station → Station) :
    (s.ran n f).station n = { (f { s.station n with stalls := [] }).advance with
      retired := (f { s.station n with stalls := [] }).advance.retired + 1 } := by
  rw [State.ran, State.retire_station_same, State.modStation_station_same]

/-! ## Marks (R96, R115) -/

/-- The note of a station's waits leaves its registers. -/
theorem Station.rg_stalls (t : Station) (l : List Stall) (r : Nat) : { t with stalls := l }.rg r = t.rg r := rfl

/-- An MSIG that issues without an epoch: its signal waits behind the station's writes. -/
theorem State.issueSignal_of_no_epoch {s : State} {n : Fin 24} (htag : s.tagOf n = none) (w : BitVec 64) :
    (s.modStation n fun t => { t with stalls := [] }).issueSignal n w = (s.ran n id).modStation n fun u =>
      { u with signals := u.signals ++ [{ mark := sMark w, value := (s.station n).rg (sRb w), seq := (s.station n).issueSeq }] } := by
  unfold State.issueSignal
  simp only [State.tagOf_stalls, htag, State.modStation_modStation, State.modStation_station_same, Station.rg_stalls]
  change (s.ran n id).modStation n _ = _
  refine State.modStation_congr ?_
  rw [State.ran_station_same]
  rfl

/-- Under an epoch its signal is held in the closure buffer. -/
theorem State.issueSignal_of_epoch {s : State} {n : Fin 24} {e : BitVec 16} (htag : s.tagOf n = some e) (w : BitVec 64) :
    (s.modStation n fun t => { t with stalls := [] }).issueSignal n w = (s.ran n id).modCtx (s.station n).ctx fun c =>
      { c with held := c.held ++ [⟨e, .msig n (sMark w) ((s.station n).rg (sRb w)) (s.station n).issueSeq⟩] } := by
  unfold State.issueSignal
  simp only [State.tagOf_stalls, htag, State.modStation_modStation, State.modStation_station_same, Station.rg_stalls,
    State.ran, id]

/-- An MSIG with good fields, once it issues. -/
theorem exec_msig_go {n : Fin 24} {w : BitVec 52} {s : State} (hzero : field (wordOf 7 0x01 w) 40 0 = 0)
    (h : s.issues n { gs := [sRb (wordOf 7 0x01 w)], held := (s.tagOf n).isSome }) :
    exec (.msig n w) s =
      .next ((s.modStation n fun t => { t with stalls := [] }).issueSignal n (wordOf 7 0x01 w)) := by
  change execMsig n w s = _
  unfold execMsig
  dsimp only
  rw [reserved_eq_nil hzero, State.issue_go h]

/-- An MWAIT with good fields, once it issues: it retires where its mark has reached the threshold, and waits otherwise. -/
theorem exec_mwait_go {n : Fin 24} {w : BitVec 52} {s : State} {x : BitVec 64} (hx : x = wordOf 7 0x02 w)
    (hzero : field x 40 0 = 0) (h : s.issues n { gs := [sRb x] }) :
    exec (.mwait n w) s = .next (if (s.station n).rg (sRb x) ≤ s.main.marks[sMark x] then s.ran n id
      else s.modStation n fun u => { u with stalls := [], markWait := some (sMark x, (s.station n).rg (sRb x)) }) := by
  subst hx
  change execMwait n w s = _
  unfold execMwait
  dsimp only
  rw [State.issue_of_reasons (reserved_eq_nil hzero) h, State.modStation_modStation, State.modStation_modStation,
    State.modStation_station_same]
  rfl

/-- A station's oldest signal takes effect behind the writes that it follows. -/
theorem exec_markSignalVisible_go {n : Fin 24} {g : Signal} {rest : List Signal} {s : State}
    (hsig : (s.station n).signals = g :: rest) (hon : s.serving = true) (hwrites : (s.station n).writesBefore g.seq = true) :
    exec (.markSignalVisible n) s = .next (((s.addMark g.mark g.value).modStation n fun u =>
      { u with signals := rest }).settle n) := by
  change execMarkSignalVisible n s = _
  unfold execMarkSignalVisible
  rw [hsig]
  dsimp only
  rw [hon, hwrites]
  rfl

/-- The wait of an MWAIT ends where its mark has reached the threshold. -/
theorem exec_markWaitEnd_go {n : Fin 24} {m : Fin 64} {v : BitVec 64} {s : State}
    (hwait : (s.station n).markWait = some (m, v)) (hon : s.stationsOn = true) (hv : v ≤ s.main.marks[m]) :
    exec (.markWaitEnd n) s = .next ((s.modStation n fun u => { u.advance with markWait := none }).retire n) := by
  change execMarkWaitEnd n s = _
  unfold execMarkWaitEnd
  rw [hwait]
  dsimp only
  rw [hon, decide_eq_true hv]
  rfl

/-- Settles O17: MSIG and MWAIT issue with their effect, and both waits end with theirs. -/
theorem markInstructions : Obligations.MarkInstructions := by
  intro n w s t
  refine ⟨fun hzero => ⟨fun htag h => ?_, fun e htag h => ?_⟩, fun hzero h => ⟨fun hv => ?_, fun hv => ?_⟩, ?_, ?_⟩
  · rw [exec_msig_go hzero (by rw [htag]; exact h), State.issueSignal_of_no_epoch htag]
  · rw [exec_msig_go hzero (by rw [htag]; exact h), State.issueSignal_of_epoch htag]
  · rw [exec_mwait_go rfl hzero h, if_pos (BitVec.le_def.mpr hv)]
  · rw [exec_mwait_go rfl hzero h, if_neg fun hle => absurd (BitVec.le_def.mp hle) (Nat.not_le.mpr hv)]
  · exact fun g rest hsig hon hwrites => exec_markSignalVisible_go hsig hon hwrites
  · exact fun m v hwait hon hv => exec_markWaitEnd_go hwait hon (BitVec.le_def.mpr hv)

end Sys2Proof.Machine

namespace Sys2Proof.Machine

/-! ## Who has arrived at a barrier (R113, R114) -/

/-- A station waits at a barrier of a job where it is in the job, does not stop, and has arrived. -/
theorem Station.waitsAt_eq_some {t : Station} {q : Fin 16} {order : Nat} {g : BarWait} :
    t.waitsAt q order = some g ↔ t.inJob q order = true ∧ t.stopping = false ∧ t.barWait = some g := by
  unfold Station.waitsAt
  cases t.inJob q order <;> cases t.stopping <;> simp

/-- The stations that have arrived under a barrier number, with their words. -/
theorem State.mem_arrived {s : State} {q : Fin 16} {order : Nat} {b : Fin 4} {n : Fin 24} {word : BitVec 64} :
    (n, word) ∈ s.arrived q order b ↔ ∃ g, (s.station n).waitsAt q order = some g ∧ g.bar = b ∧ g.word = word := by
  simp only [State.arrived, List.mem_filterMap, List.mem_finRange, true_and, Option.bind_eq_some_iff]
  constructor
  · rintro ⟨m, g, hg, hword⟩
    split at hword
    case isTrue hb =>
      cases hword
      exact ⟨g, hg, hb, rfl⟩
    case isFalse => cases hword
  · rintro ⟨g, hg, hb, rfl⟩
    exact ⟨n, g, hg, by rw [if_pos hb]⟩

/-- A key finds its pair in a list that has at most one for each key. -/
theorem find?_key_eq_some {β : Type} {l : List (Fin 24 × β)} (huniq : ∀ a b c, (a, b) ∈ l → (a, c) ∈ l → b = c) {a : Fin 24}
    {p : Fin 24 × β} : l.find? (fun p => p.1 == a) = some p ↔ p.1 = a ∧ p ∈ l := by
  constructor
  · intro h
    exact ⟨by simpa using List.find?_some h, List.mem_of_find?_eq_some h⟩
  · rintro ⟨rfl, hp⟩
    cases hf : l.find? fun r => r.1 == p.1 with
    | none => exact absurd (List.find?_eq_none.mp hf p hp) (by simp)
    | some r =>
      have hkey : r.1 = p.1 := by simpa using List.find?_some hf
      have hr : (p.1, r.2) ∈ l := by rw [← hkey]; exact List.mem_of_find?_eq_some hf
      rw [Option.some_inj]
      exact Prod.ext hkey (huniq _ _ _ hr hp)

/-- The pair of a station among those that have arrived. -/
theorem State.find?_arrived {s : State} {q : Fin 16} {order : Nat} {b : Fin 4} {n : Fin 24} {p : Fin 24 × BitVec 64} :
    (s.arrived q order b).find? (fun p => p.1 == n) = some p ↔ p.1 = n ∧ p ∈ s.arrived q order b := by
  refine find?_key_eq_some fun a w w' hw hw' => ?_
  obtain ⟨g, hg, -, rfl⟩ := State.mem_arrived.mp hw
  obtain ⟨g', hg', -, rfl⟩ := State.mem_arrived.mp hw'
  rw [hg, Option.some_inj] at hg'
  rw [hg']

/-- The stations that a bad mask faults. -/
theorem State.mem_barBad {s : State} {n m : Fin 24} {b : Fin 4} {word k : BitVec 64} :
    (m, k) ∈ s.barBad n b word ↔
      (m = n ∧ k = word) ∨ (m ≠ n ∧ (m, k) ∈ s.arrived (s.station n).queue (s.station n).order b) := by
  simp only [State.barBad, List.mem_filterMap, List.mem_finRange, true_and]
  constructor
  · rintro ⟨j, hj⟩
    split at hj
    case isTrue =>
      cases hj
      exact .inl ⟨rfl, rfl⟩
    case isFalse hne =>
      obtain ⟨rfl, hmem⟩ := State.find?_arrived.mp hj
      exact .inr ⟨hne, hmem⟩
  · rintro (⟨rfl, rfl⟩ | ⟨hne, hmem⟩)
    · exact ⟨m, if_pos rfl⟩
    · exact ⟨m, by rw [if_neg hne]; exact State.find?_arrived.mpr ⟨rfl, hmem⟩⟩

/-- They come in ascending order. -/
theorem State.barBad_pairwise (s : State) (n : Fin 24) (b : Fin 4) (word : BitVec 64) :
    (s.barBad n b word).Pairwise fun p r => p.1 < r.1 := by
  have hkey : ∀ (k : Fin 24) (p : Fin 24 × BitVec 64), (if k = n then some (n, word)
      else (s.arrived (s.station n).queue (s.station n).order b).find? fun p => p.1 == k) = some p → p.1 = k := by
    intro k p hp
    split at hp
    case isTrue hk =>
      cases hp
      exact hk.symm
    case isFalse => exact (State.find?_arrived.mp hp).1
  unfold State.barBad
  rw [List.pairwise_filterMap]
  refine (List.pairwise_lt_finRange 24).imp fun {j k} hjk p hp r hr => ?_
  rw [hkey j p hp, hkey k r hr]
  exact hjk

/-! ## BAR (R113, R114, R142) -/

/-- Whether a BAR's mask is refused: it has bits above the stations, names a station outside the job, or leaves out its own. -/
def barRefused (v : BitVec 64) (all mask : BitVec 24) (n : Fin 24) : Bool :=
  field v 63 24 != 0 || mask &&& ~~~all != 0 || !mask.getLsbD n.val

theorem barRefused_eq_false {v : BitVec 64} {all mask : BitVec 24} {n : Fin 24} :
    barRefused v all mask n = false ↔ v.toNat < 2 ^ 24 ∧ mask &&& ~~~all = 0 ∧ mask.getLsbD n.val = true := by
  have hlt := v.isLt
  have hfield : field v 63 24 = 0 ↔ v.toNat < 2 ^ 24 := by
    rw [field_eq]
    omega
  simp [barRefused, hfield, and_assoc]

section
variable {n : Fin 24} {w : BitVec 52} {s : State} {x : BitVec 64} {mask : BitVec 24} (hx : x = wordOf 7 0x03 w)
  (hmask : mask = if (s.station n).rg (sRb x) = 0 then s.jobStations (s.station n).queue (s.station n).order
    else ((s.station n).rg (sRb x)).setWidth 24)
  (hhi : field x 51 46 = 0) (hlo : field x 38 0 = 0) (h : s.issues n { gs := [sRb x] })
include hx hmask hhi hlo h

/-- A BAR with good fields on a station that can issue it, by its mask and the station's earlier writes. -/
theorem exec_bar_go : exec (.bar n w) s = .next
    (let refused := barRefused ((s.station n).rg (sRb x)) (s.jobStations (s.station n).queue (s.station n).order) mask n
     let v := s.modStation n fun t => { t with stalls := [] }
     if !refused && !(s.station n).writesBefore (s.station n).issueSeq then s
     else if refused then (v.barFaults 0x05 (v.barBad n (sBar x) x)).settleAll
     else ((v.modStation n fun t => { t with barWait := some ⟨sBar x, mask, x⟩ }).barCheck (s.station n).queue
       (s.station n).order (sBar x)).settleAll) := by
  obtain ⟨hcan, hfetch, -⟩ := id h
  change execBar n w s = _
  unfold execBar
  dsimp only
  rw [← hx, ← hmask, reserved_eq_nil hhi, reserved_eq_nil hlo, hcan, hfetch, List.append_nil,
    State.issue_of_reasons rfl h]
  rfl

end

/-! ## A full barrier (R113) -/

/-- The stations that wait under a barrier number. -/
theorem State.mem_barGroup {s : State} {q : Fin 16} {order : Nat} {b : Fin 4} {n : Fin 24} :
    n ∈ s.barGroup q order b ↔ ∃ g, (s.station n).waitsAt q order = some g ∧ g.bar = b := by
  simp only [State.barGroup, List.mem_filter, List.mem_finRange, true_and, Option.any_eq_true, beq_iff_eq]

/-- Two stations that wait under one number with different masks fault every station that has arrived. -/
theorem State.barCheck_of_masks {s : State} {q : Fin 16} {order : Nat} {b : Fin 4} {n m : Fin 24} {g h : BarWait}
    (hn : (s.station n).waitsAt q order = some g) (hm : (s.station m).waitsAt q order = some h) (hgb : g.bar = b)
    (hhb : h.bar = b) (hne : g.mask ≠ h.mask) : s.barCheck q order b = s.barFaults 0x06 (s.arrived q order b) := by
  have hng : n ∈ s.barGroup q order b := State.mem_barGroup.mpr ⟨g, hn, hgb⟩
  have hmg : m ∈ s.barGroup q order b := State.mem_barGroup.mpr ⟨h, hm, hhb⟩
  obtain ⟨-, -, hbn⟩ := Station.waitsAt_eq_some.mp hn
  obtain ⟨-, -, hbm⟩ := Station.waitsAt_eq_some.mp hm
  unfold State.barCheck
  dsimp only
  refine if_pos ?_
  rw [List.any_eq_true]
  refine ⟨n, hng, ?_⟩
  rw [List.any_eq_true]
  refine ⟨m, hmg, ?_⟩
  rw [hbn, hbm]
  exact bne_iff_ne.mpr hne.symm

/-- A station that went on from a barrier. -/
def Station.released (t : Station) : Station := { t.advance with barWait := none, retired := t.retired + 1 }

/-- A station goes on from a barrier. -/
def State.releaseBarrier (s : State) (n : Fin 24) : State :=
  (s.modStation n fun t => { t.advance with barWait := none }).retire n

theorem State.releaseBarrier_station (s : State) (n k : Fin 24) : (s.releaseBarrier n).station k =
    if k = n then (s.station k).released else s.station k := by
  by_cases hk : k = n
  · subst hk
    rw [if_pos rfl, State.releaseBarrier, State.retire_station_same, State.modStation_station_same]
    rfl
  · rw [if_neg hk, State.releaseBarrier, State.retire_station_ne _ hk, State.modStation_station_ne hk]

/-- Several stations, each once, go on from a barrier. -/
theorem State.foldl_releaseBarrier_station {l : List (Fin 24)} (hl : l.Nodup) (s : State) (k : Fin 24) :
    (l.foldl State.releaseBarrier s).station k =
      if k ∈ l then (s.station k).released else s.station k := by
  induction l generalizing s with
  | nil => rfl
  | cons n l ih =>
    obtain ⟨hn, hl⟩ := List.nodup_cons.mp hl
    rw [List.foldl_cons, ih hl, State.releaseBarrier_station]
    by_cases hk : k = n
    · subst hk
      rw [if_neg hn, if_pos rfl, if_pos List.mem_cons_self]
    · have hmem : k ∈ n :: l ↔ k ∈ l := by simp [hk]
      simp only [if_neg hk, hmem]

/-- A full barrier releases the stations of its mask. -/
theorem exec_barrierRelease_go {q : Fin 16} {b : Fin 4} {j : Job} {m : BitVec 24} {s : State} (hj : s.job q = some j)
    (hm : s.barComplete q j.order b = some m) (hon : s.stationsOn = true) :
    exec (.barrierRelease q b) s = .next ((setBits 24 m).foldl State.releaseBarrier s) := by
  change execBarrierRelease q b s = _
  unfold execBarrierRelease
  rw [hj]
  dsimp only
  rw [hm]
  dsimp only
  rw [hon, State.when_true]
  rfl

theorem mem_setBits {w n : Nat} {x : BitVec w} {k : Fin n} : k ∈ setBits n x ↔ x.getLsbD k.val = true := by simp [setBits]

theorem setBits_nodup {w : Nat} (n : Nat) (x : BitVec w) : (setBits n x).Nodup := (List.nodup_finRange n).filter _

/-! ## FENCE (R142) -/

/-- No range of a station is outstanding and no engine's queue holds an instruction. -/
def Station.workless (t : Station) : Bool :=
  t.board.isEmpty && t.dmuQ.isEmpty && t.vecQ.isEmpty && t.qntQ.isEmpty && t.arrQ.isEmpty

theorem Station.workless_iff {t : Station} :
    t.workless = true ↔ t.board = [] ∧ t.dmuQ = [] ∧ t.vecQ = [] ∧ t.qntQ = [] ∧ t.arrQ = [] := by
  simp [Station.workless, and_assoc]

/-- A FENCE that can issue goes on where no work of its station is outstanding, and otherwise waits. -/
theorem exec_sFence_go {n : Fin 24} {s : State} (h : s.issues n {}) : 
    exec (.sFence n 0) s = .next (if !(s.station n).workless then s else s.ran n id) := by
  obtain ⟨hcan, hfetch, -⟩ := id h
  have hzero : reserved (field (wordOf 7 0x04 0) 51 0) = [] := by decide
  change execSFence n 0 s = _
  unfold execSFence
  dsimp only
  rw [hzero, hcan, hfetch, State.issueScalar_of_reasons rfl h]
  rfl

/-- Settles O18: the mask and the earlier writes decide a BAR; a full barrier and an idle station go on. -/
theorem barrierAndFenceResults : Obligations.BarrierAndFenceResults := by
  refine ⟨?_, ?_, ?_, ?_⟩
  · intro n w s x t all v mask legal hhi hlo h
    have hgo := exec_bar_go (x := x) (mask := mask) rfl rfl hhi hlo h
    have hlegal : barRefused v all mask n = false ↔ legal := barRefused_eq_false
    refine ⟨fun hl hw => ?_, fun hl hw => ?_, fun hl => ?_⟩
    · rw [hgo, hlegal.mpr hl]
      dsimp only
      rw [hw, State.modStation_modStation]
      rfl
    · rw [hgo, hlegal.mpr hl]
      dsimp only
      rw [hw]
      rfl
    · have hrefused : barRefused v all mask n = true := by simpa using mt hlegal.mp hl
      refine ⟨?_, State.barBad_pairwise _ _ _ _, fun m k => ?_⟩
      · rw [hgo, hrefused]
        rfl
      · rw [State.mem_barBad, State.modStation_station_same]
        refine or_congr_right (and_congr_right fun hm => ?_)
        rw [State.mem_arrived, State.modStation_station_ne hm]
        simp only [Station.waitsAt_eq_some, and_assoc]
        exact ⟨fun ⟨g, hjob, hstop, hg⟩ => ⟨hjob, hstop, g, hg⟩, fun ⟨hjob, hstop, g, hg⟩ => ⟨g, hjob, hstop, hg⟩⟩
  · exact fun q order b n m g h s hn hm hgb hhb hne => State.barCheck_of_masks hn hm hgb hhb hne
  · intro q b j m s hj hm hon
    have hfold := State.foldl_releaseBarrier_station (setBits_nodup 24 m) s
    refine ⟨_, exec_barrierRelease_go hj hm hon, fun k hk => ?_, fun k hk => ?_⟩
    · rw [hfold, if_pos (mem_setBits.mpr hk)]
      rfl
    · rw [hfold, if_neg (by rw [mem_setBits, hk]; decide)]
  · intro n s h t idle
    rw [exec_sFence_go h]
    refine ⟨fun hi => ?_, fun hi => ?_⟩
    · rw [Station.workless_iff.mpr hi]
      rfl
    · rw [Bool.eq_false_iff.mpr (mt Station.workless_iff.mp hi)]
      rfl

end Sys2Proof.Machine

namespace Sys2Proof.Machine

/-! ## Contexts and stations -/

theorem State.modCtx_ctx (s : State) (c k : Fin 8) (f : Ctx → Ctx) :
    (s.modCtx c f).ctx k = if c = k then f (s.ctx k) else s.ctx k := upd_get _ _ _ _

/-- Two changes of a context that agree on what it holds. -/
theorem State.modCtx_congr {s : State} {c : Fin 8} {f g : Ctx → Ctx} (h : f (s.ctx c) = g (s.ctx c)) :
    s.modCtx c f = s.modCtx c g := by
  unfold State.ctx at h
  simp only [State.modCtx, State.modMain, upd, h]

/-- Changes of a station and of a context commute. -/
theorem State.modStation_modCtx (s : State) (n : Fin 24) (f : Station → Station) (c : Fin 8) (g : Ctx → Ctx) :
    (s.modStation n f).modCtx c g = (s.modCtx c g).modStation n f := rfl

/-- A change of a context that leaves its epochs. -/
theorem State.modCtx_epochs (s : State) (c k : Fin 8) {f : Ctx → Ctx} (hf : ∀ x, (f x).epochs = x.epochs) :
    ((s.modCtx c f).ctx k).epochs = (s.ctx k).epochs := by
  rw [State.modCtx_ctx]
  split
  · exact hf _
  · rfl

/-- A retirement leaves the open epochs. -/
theorem State.retire_epochs (s : State) (n : Fin 24) (k : Fin 8) : ((s.retire n).ctx k).epochs = (s.ctx k).epochs := by
  have hresidue : (((s.modStation n fun t => { t with retired := t.retired + 1 }).modCtx (s.station n).ctx fun x =>
      { x with residue := x.residue + 1 }).ctx k).epochs = (s.ctx k).epochs := State.modCtx_epochs _ _ _ fun _ => by rfl
  unfold State.retire
  dsimp only
  split
  · rw [State.progress, State.modCtx_epochs _ _ _ fun _ => by rfl, hresidue]
  · exact hresidue

/-- So does an instruction of the sequencer. -/
theorem State.ran_epochs (s : State) (n : Fin 24) (f : Station → Station) (k : Fin 8) :
    ((s.ran n f).ctx k).epochs = (s.ctx k).epochs := State.retire_epochs _ _ _

/-! ## Instructions that wait until their station's work has ended (R190) -/

section
variable {s : State} {n : Fin 24} {gs : List Nat} (h : s.issues n { gs := gs }) (word : BitVec 64) {pre post : Need}
  (hpre : pre.reasons = []) (go : State → State)
include h hpre

/-- Before that nothing happens. -/
theorem State.issueClosed_of_working (hwork : s.workEnded n = false) : s.issueClosed n word pre post go = s := by
  obtain ⟨hcan, hfetch, -⟩ := h
  rw [State.issueClosed, hcan, hfetch, hpre, hwork]
  rfl

omit h in
/-- Then the instruction is checked and issues. -/
theorem State.issueClosed_of_ended (hwork : s.workEnded n = true) :
    s.issueClosed n word pre post go = s.issue n word post go := by
  rw [State.issueClosed, hwork, hpre, Bool.not_true, Bool.and_false]
  rfl

end

/-- An instruction whose only reason is one that applies faults with it. -/
theorem State.issue_of_one_reason {s : State} {n : Fin 24} {gs reasons : List Nat} {r : Nat} (h : s.issues n { gs := gs })
    (hr : reasons = [r]) (word : BitVec 64) (go : State → State) :
    s.issue n word { gs := gs, reasons := reasons } go =
      s.issueFault n word stIllegalInstr (BitVec.ofNat 32 (r + 256 * n.val)) := by
  subst hr
  obtain ⟨hcan, hfetch, hgs, -⟩ := h
  exact State.issue_of_reason (need := { gs := gs, reasons := [r] }) hcan word go hfetch hgs (fun _ h => by cases h) rfl

/-! ## EOPEN and EFENCE (R145, R194) -/

/-- EOPEN with good fields and fewer than four epochs open. -/
theorem exec_eopen_go {n : Fin 24} {w : BitVec 52} {s : State} {x : BitVec 64} {c : Fin 8} (hx : x = wordOf 9 0x01 w)
    (hc : c = (s.station n).ctx) (hra : raOf x = 0) (hzero : field x 41 0 = 0) (h : s.issues n { gs := [rdOf x] })
    (hfew : (s.ctx c).epochs.length < 4) :
    exec (.eopen n w) s = .next ((s.modCtx c fun y =>
      { y with epochs := y.epochs ++ [y.nextEpoch], nextEpoch := y.nextEpoch + 1,
               closed := y.closed.filter fun p => p.1 != y.nextEpoch }).ran n fun t =>
        t.wg (rdOf x) ((s.ctx c).nextEpoch.setWidth 64)) := by
  have hreasons : reserved (raOf x) ++ reserved (field x 41 0) ++ reasonIf (4 ≤ (s.ctx c).epochs.length) 0x16 = [] := by
    rw [reserved_eq_nil hra, reserved_eq_nil hzero, reasonIf_false (decide_eq_false (Nat.not_le.mpr hfew))]
    rfl
  change execEopen n w s = _
  unfold execEopen
  dsimp only
  rw [← hx, ← hc, State.issue_of_reasons hreasons h]
  refine congrArg (fun v => Host.Outcome.next (State.retire v n)) ?_
  rw [State.modStation_modCtx, State.modStation_modStation]
  exact congrArg (fun v => State.modStation v n _) (State.modCtx_congr rfl)

/-- With four open it faults. -/
theorem exec_eopen_full {n : Fin 24} {w : BitVec 52} {s : State} {x : BitVec 64} (hx : x = wordOf 9 0x01 w)
    (hra : raOf x = 0) (hzero : field x 41 0 = 0) (h : s.issues n { gs := [rdOf x] })
    (hfull : 4 ≤ (s.ctx (s.station n).ctx).epochs.length) :
    exec (.eopen n w) s = .next (s.issueFault n x stIllegalInstr (BitVec.ofNat 32 (0x16 + 256 * n.val))) := by
  have hreasons : reserved (raOf x) ++ reserved (field x 41 0) ++
      reasonIf (4 ≤ (s.ctx (s.station n).ctx).epochs.length) 0x16 = [0x16] := by
    rw [reserved_eq_nil hra, reserved_eq_nil hzero, reasonIf_true (decide_eq_true hfull)]
    rfl
  change execEopen n w s = _
  unfold execEopen
  dsimp only
  rw [← hx, State.issue_of_one_reason h hreasons]

/-- EFENCE with good fields. -/
theorem exec_efence_go {n : Fin 24} {w : BitVec 52} {s : State} {x : BitVec 64} (hx : x = wordOf 9 0x03 w)
    (hra : raOf x = 0) (hzero : field x 41 0 = 0) (h : s.issues n { gs := [rdOf x] }) :
    exec (.efence n w) s = .next (if s.workEnded n = true
      then s.ran n fun t => t.wg (rdOf x) (s.specWord (s.station n).ctx (some n)) else s) := by
  have hreasons : reserved (raOf x) ++ reserved (field x 41 0) = [] := by
    rw [reserved_eq_nil hra, reserved_eq_nil hzero]
    rfl
  change execEfence n w s = _
  unfold execEfence
  dsimp only
  rw [← hx]
  cases hwork : s.workEnded n with
  | false => rw [State.issueClosed_of_working h x hreasons _ hwork, if_neg (by decide)]
  | true =>
    rw [State.issueClosed_of_ended x hreasons _ hwork, State.issue_of_reasons hreasons h, if_pos rfl,
      State.modStation_modStation]
    exact congrArg (fun v => Host.Outcome.next (State.retire v n)) (State.modStation_congr rfl)

/-! ## ECLOSE (R183, R190 to R192) -/

/-- g[RA] of an ECLOSE names an open epoch. -/
theorem ecloseNames_iff {v : BitVec 64} {epochs : List (BitVec 16)} :
    (field v 63 16 != 0 || !epochs.contains (v.setWidth 16)) = false ↔ v.toNat < 2 ^ 16 ∧ v.setWidth 16 ∈ epochs := by
  have hlt := v.isLt
  have hfield : field v 63 16 = 0 ↔ v.toNat < 2 ^ 16 := by
    rw [field_eq]
    omega
  simp [hfield]

section
variable {n : Fin 24} {s : State} {x : BitVec 64} (hrd : rdOf x = 0) (hzero : field x 40 0 = 0)
  (h : s.issues n { gs := [raOf x] }) (go : State → BitVec 16 → State)
include hrd hzero h

theorem State.eclose_of_working (hwork : s.workEnded n = false) : s.eclose n x go = s := by
  unfold State.eclose
  exact State.issueClosed_of_working h x (by simp [reserved_eq_nil hrd, reserved_eq_nil hzero]) _ hwork

theorem State.eclose_of_named (hwork : s.workEnded n = true)
    (hnamed : ((s.station n).rg (raOf x)).toNat < 2 ^ 16 ∧
      ((s.station n).rg (raOf x)).setWidth 16 ∈ (s.ctx (s.station n).ctx).epochs) :
    s.eclose n x go = go (s.ran n id) (((s.station n).rg (raOf x)).setWidth 16) := by
  unfold State.eclose
  dsimp only
  rw [State.issueClosed_of_ended x (by simp [reserved_eq_nil hrd, reserved_eq_nil hzero]) _ hwork,
    State.issue_of_reasons (reasonIf_false (ecloseNames_iff.mpr hnamed)) h, State.modStation_modStation]
  rfl

theorem State.eclose_of_not_named (hwork : s.workEnded n = true)
    (hnamed : ¬ (((s.station n).rg (raOf x)).toNat < 2 ^ 16 ∧
      ((s.station n).rg (raOf x)).setWidth 16 ∈ (s.ctx (s.station n).ctx).epochs)) :
    s.eclose n x go = s.issueFault n x stIllegalInstr (BitVec.ofNat 32 (0x17 + 256 * n.val)) := by
  unfold State.eclose
  dsimp only
  rw [State.issueClosed_of_ended x (by simp [reserved_eq_nil hrd, reserved_eq_nil hzero]) _ hwork]
  exact State.issue_of_one_reason h (reasonIf_true (Bool.ne_false_iff.mp (mt ecloseNames_iff.mp hnamed))) x _

end

/-- A station's context stays with an instruction of the sequencer. -/
theorem State.ran_ctx (s : State) (n : Fin 24) : ((s.ran n id).station n).ctx = (s.station n).ctx := by
  rw [State.ran_station_same]
  rfl

/-- Settles O19: the checks of each instruction in their order, and its effect. -/
theorem epochInstructions : Obligations.EpochInstructions := by
  constructor
  · intro n w s c
    refine ⟨fun hra hzero h => ⟨fun hfew => ?_, fun hfull => ?_⟩, fun hra hzero h => ⟨fun hwork => ?_, fun hwork => ?_⟩⟩
    · exact exec_eopen_go rfl rfl hra hzero h hfew
    · exact exec_eopen_full rfl hra hzero h hfull
    · rw [exec_efence_go rfl hra hzero h, if_pos hwork]
    · rw [exec_efence_go rfl hra hzero h, hwork, if_neg (by decide)]
  · intro n w cd s x c v e eclose named hrd hzero h
    cases cd with
    | false =>
      refine ⟨fun hwork => ?_, fun hwork hnamed => ?_, fun hwork hnamed => ?_⟩
      · exact next_of_eq (State.eclose_of_working hrd hzero h _ hwork)
      · refine next_of_eq ((State.eclose_of_named hrd hzero h _ hwork hnamed).trans ?_)
        rw [State.ran_ctx]
        rfl
      · exact next_of_eq (State.eclose_of_not_named hrd hzero h _ hwork hnamed)
    | true =>
      refine ⟨fun hwork => ?_, fun hwork hnamed => ?_, fun hwork hnamed => ?_⟩
      · exact next_of_eq (State.eclose_of_working hrd hzero h _ hwork)
      · refine next_of_eq ((State.eclose_of_named hrd hzero h _ hwork hnamed).trans ?_)
        dsimp only
        rw [State.ran_ctx, State.ran_epochs]
        rfl
      · exact next_of_eq (State.eclose_of_not_named hrd hzero h _ hwork hnamed)

end Sys2Proof.Machine

namespace Sys2Proof.Machine

/-! ## Searches in the numbers below a bound -/

/-- The first number of which something holds. -/
theorem find?_finRange_eq_some {n : Nat} {p : Fin n → Bool} {k : Fin n} :
    (List.finRange n).find? p = some k ↔ p k = true ∧ ∀ j : Fin n, j < k → p j = false := by
  rw [List.find?_eq_some_iff_getElem]
  constructor
  · rintro ⟨hk, i, hi, hik, hbefore⟩
    refine ⟨hk, fun j hj => ?_⟩
    rw [List.getElem_finRange] at hik
    have hval : i = k.val := by simp [← hik]
    have hj' := hbefore j.val (by rw [hval]; exact hj)
    rw [List.getElem_finRange] at hj'
    simpa using hj'
  · rintro ⟨hk, hbefore⟩
    refine ⟨hk, k.val, by simp, by simp, fun j hj => ?_⟩
    rw [List.getElem_finRange, hbefore _ (by simpa [Fin.lt_def] using hj)]
    rfl

/-! ## Programmers (R165) -/

theorem exec_programmerStart (s : State) : exec .programmerStart s =
    .next (s.when (s.stationsOn && !s.main.pwr.forcing) fun s =>
      match s.freeProg, s.nextWork with
      | some k, some w => (s.setProg k (some w)).modMain fun m => { m with progWait := m.progWait.erase w }
      | _, _ => s) := rfl

/-- A free programmer takes the next array. -/
theorem exec_programmerStart_go {s : State} {k : Fin 4} {w : ProgWork} (hon : s.stationsOn = true)
    (hforce : s.main.pwr.forcing = false) (hk : s.freeProg = some k) (hw : s.nextWork = some w) :
    exec .programmerStart s =
      .next (s.modMain fun m => { m with progs := m.progs.set k (some w), progWait := m.progWait.erase w }) := by
  rw [exec_programmerStart, hon, hforce, Bool.not_false, Bool.and_true, State.when_true, hk, hw]
  rfl

/-- In a forced Hold, with every programmer in use and with no array that waits, nothing happens. -/
theorem exec_programmerStart_stays {s : State}
    (h : s.main.pwr.forcing = true ∨ s.freeProg = none ∨ s.nextWork = none) : exec .programmerStart s = .next s := by
  rw [exec_programmerStart]
  refine congrArg _ ?_
  obtain hforce | hnone := h
  · rw [hforce, Bool.not_true, Bool.and_false, State.when_false]
  · refine State.when_cases (P := (· = s)) s _ _ (fun _ => rfl) ?_
    intro _
    obtain hk | hw := hnone
    · rw [hk]
    · rw [hw]
      split
      · contradiction
      · rfl

/-- The lowest free programmer. -/
theorem State.freeProg_eq_some {s : State} {k : Fin 4} :
    s.freeProg = some k ↔ s.main.progs[k] = none ∧ ∀ j : Fin 4, j < k → s.main.progs[j] ≠ none := by
  simp only [State.freeProg, find?_finRange_eq_some, Option.isNone_iff_eq_none, ← Bool.not_eq_true, ne_eq]

/-! ## The end of an array's programming (R165 step 6, R166) -/

/-- A record of an array after a change of one. -/
theorem State.modNv_arrayNv_same (s : State) (n : Fin 24) (a : Fin 32) (f : ArrayNv → ArrayNv) :
    (s.modNv n a f).arrayNv n a = f (s.arrayNv n a) := by
  simp [State.modNv, State.arrayNv]

/-- The record of another array. -/
theorem State.modNv_arrayNv_ne (s : State) {n m : Fin 24} {a b : Fin 32} (h : (m, b) ≠ (n, a)) (f : ArrayNv → ArrayNv) :
    (s.modNv n a f).arrayNv m b = s.arrayNv m b := by
  change (upd s.nv n fun v => upd v a f)[m][b] = s.nv[m][b]
  rw [upd_get]
  split
  case isTrue hnm =>
    subst hnm
    exact upd_get_ne _ _ fun hab => h (by rw [hab])
  case isFalse => rfl

/-- The check whether a job's array work is over leaves the arrays' records, the programmers and the stations. -/
theorem State.laDone_parts (s : State) (q : Fin 16) (order : Nat) : (s.laDone q order).nv = s.nv ∧
    (s.laDone q order).main.progs = s.main.progs ∧ (s.laDone q order).main.stations = s.main.stations := by
  unfold State.laDone
  split
  · exact ⟨rfl, rfl, rfl⟩
  · exact ⟨rfl, rfl, rfl⟩

/-- What the end of an array's programming leaves of the arrays' records, the programmers and the stations. -/
theorem State.endProgramming_parts (s : State) (k : Fin 4) (w : ProgWork) (cells : Fin 266241) (iter : Fin 17) :
    let u := s.endProgramming k w cells iter
    let f : BitVec 16 := if 0xFFFF < cells.val then 0xFFFF else BitVec.ofNat 16 cells.val
    u.nv = (s.modNv w.station w.array fun v =>
      { v with state := if cells.val ≤ w.failLimit.toNat then 1 else 0, failCells := f, degraded := f != 0,
               maxIter := BitVec.ofNat 8 (8 + iter.val), bench := benchLevels,
               digest := if cells.val ≤ w.failLimit.toNat then w.digest else 0,
               image := (Memory.undefined 0).writeBytes 0 w.image }).nv ∧
    u.main.progs = s.main.progs.set k none ∧ u.main.stations = s.main.stations := by
  unfold State.endProgramming
  dsimp only
  obtain ⟨hnv, hprogs, hstations⟩ := State.laDone_parts (if cells.val ≤ w.failLimit.toNat then _ else _) w.queue w.order
  rw [hnv, hprogs, hstations]
  split <;> exact ⟨rfl, rfl, rfl⟩

/-- The count of failing cells as the array holds it, and whether it is above zero. -/
theorem failCells_eq (cells : Fin 266241) :
    let f : BitVec 16 := if 0xFFFF < cells.val then 0xFFFF else BitVec.ofNat 16 cells.val
    f = BitVec.ofNat 16 (min cells.val 0xFFFF) ∧ (f != 0) = (cells.val != 0) := by
  dsimp only
  split
  case isTrue h =>
    rw [Nat.min_eq_right (Nat.le_of_lt h)]
    refine ⟨rfl, ?_⟩
    have : cells.val ≠ 0 := by omega
    simp [this]
  case isFalse h =>
    rw [Nat.min_eq_left (Nat.le_of_not_lt h)]
    refine ⟨rfl, ?_⟩
    have hzero : BitVec.ofNat 16 cells.val = 0 ↔ cells.val = 0 := by
      rw [← BitVec.toNat_inj, BitVec.toNat_ofNat]
      simp
      omega
    rw [Bool.eq_iff_iff, bne_iff_ne, bne_iff_ne, Ne, hzero]

/-- The programming of an array ends where none of its conversions is left. -/
theorem exec_arrayProgrammingEnd {k : Fin 4} {cells : Fin 266241} {iter : Fin 17} {w : ProgWork} {s : State}
    (hw : s.main.progs[k] = some w) (hs : s.serving = true) (hprog : w.programming = true) :
    exec (.arrayProgrammingEnd k cells iter) s =
      .next (s.when (!(s.station w.station).converts w.array) fun s => s.endProgramming k w cells iter) := by
  change execArrayProgrammingEnd k cells iter s = _
  unfold execArrayProgrammingEnd
  rw [hw]
  dsimp only
  rw [hs, hprog]
  rfl

/-- Settles O20: the lowest programmer and the next array, and the record that the end of a programming writes. -/
theorem arrayProgramming : Obligations.ArrayProgramming := by
  constructor
  · exact fun s => ⟨fun k w hon hforce hk hw => exec_programmerStart_go hon hforce hk hw, exec_programmerStart_stays,
      fun k => State.freeProg_eq_some⟩
  · intro k cells iter w s hw hs hprog
    have hend := exec_arrayProgrammingEnd (cells := cells) (iter := iter) hw hs hprog
    refine ⟨fun hconv => ?_, fun hconv => ⟨s.endProgramming k w cells iter, ?_, ?_⟩⟩
    · rw [hend, hconv]
      rfl
    · rw [hend, hconv]
      rfl
    · obtain ⟨hnv, hprogs, hstations⟩ := State.endProgramming_parts s k w cells iter
      obtain ⟨hcells, hdegraded⟩ := failCells_eq cells
      have harray : ∀ n a, (s.endProgramming k w cells iter).arrayNv n a = _ := fun n a => congrArg (fun v => v[n][a]) hnv
      refine ⟨?_, fun j hj => ?_, ?_, fun n a hna => ?_, hstations⟩
      · rw [hprogs]
        simp
      · rw [hprogs]
        exact Vector.getElem_set_ne _ _ fun h => hj (Fin.ext h).symm
      · rw [harray]
        refine (State.modNv_arrayNv_same s w.station w.array _).trans ?_
        rw [hdegraded, hcells]
        rfl
      · rw [harray]
        exact State.modNv_arrayNv_ne s hna _

end Sys2Proof.Machine

namespace Sys2Proof.Machine

/-! ## Writes of a station's block (R42, R44, R299) -/

theorem State.stnWrite_hold {s : State} (hs : s.serving = true) (hh : s.main.pwr.state = .hold) (n : Fin 24)
    (f : State → State) : s.stnWrite n f = s.powerEvent 0x10 := by
  rw [State.stnWrite, hs, hh]
  rfl

theorem State.stnWrite_go {s : State} {n : Fin 24} (hs : s.serving = true) (hh : s.main.pwr.state ≠ .hold)
    (hp : s.present n = true) (f : State → State) : s.stnWrite n f = f s := by
  rw [State.stnWrite, hs, hp, beq_eq_false_iff_ne.mpr hh]
  rfl

theorem State.stationsOn_of {s : State} (hs : s.serving = true) (hh : s.main.pwr.state ≠ .hold) : s.stationsOn = true := by
  rw [State.stationsOn, hs, Bool.true_and]
  exact bne_iff_ne.mpr hh

/-! ## The benchmark of an array (R162) -/

theorem exec_stnBenchCtrl (n : Fin 24) (a : Fin 32) (go : Bool) (s : State) : exec (.stnBenchCtrl n a go) s =
    .next (s.stnWrite n fun s =>
      if !go then s
      else if (s.arrayNv n a).state = 1 && !(s.station n).benchBusy then
        (s.modStation n fun t => { t with benchBusy := true, benchDone := false, benchArray := a }).modPwr fun p =>
          if p.state == .trim then { p with state := .run } else p
      else s.modStation n fun t => { t with benchRefused := true }) := rfl

/-- The end of Trim. -/
theorem endTrim_eq (p : Power) :
    (if p.state == .trim then { p with state := .run } else p) = { p with state := if p.state = .trim then .run else p.state } := by
  by_cases h : p.state = .trim <;> simp [h]

section
variable {n : Fin 24} {a : Fin 32} {s : State} (hs : s.serving = true) (hh : s.main.pwr.state ≠ .hold)
  (hp : s.present n = true)
include hs hh hp

/-- GO starts a measurement of a WRITTEN array where none is under way. -/
theorem exec_stnBenchCtrl_start (hw : (s.arrayNv n a).state = 1) (hbusy : (s.station n).benchBusy = false) :
    exec (.stnBenchCtrl n a true) s =
      .next ((s.modStation n fun t => { t with benchBusy := true, benchDone := false, benchArray := a }).modPwr fun p =>
        { p with state := if p.state = .trim then .run else p.state }) := by
  have hgo : (decide ((s.arrayNv n a).state = 1) && !(s.station n).benchBusy) = true := by rw [hw, hbusy]; rfl
  rw [exec_stnBenchCtrl, State.stnWrite_go hs hh hp, Bool.not_true, if_neg (by decide), if_pos hgo]
  exact congrArg (fun f => Host.Outcome.next (State.modPwr _ f)) (funext endTrim_eq)

/-- Otherwise it is refused. -/
theorem exec_stnBenchCtrl_refused (h : (s.arrayNv n a).state ≠ 1 ∨ (s.station n).benchBusy = true) :
    exec (.stnBenchCtrl n a true) s = .next (s.modStation n fun t => { t with benchRefused := true }) := by
  have hgo : (decide ((s.arrayNv n a).state = 1) && !(s.station n).benchBusy) = false := by
    obtain hw | hbusy := h
    · rw [decide_eq_false hw]; rfl
    · rw [hbusy, Bool.not_true, Bool.and_false]
  rw [exec_stnBenchCtrl, State.stnWrite_go hs hh hp, Bool.not_true, if_neg (by decide), hgo, if_neg (by decide)]

end

/-- Four words of 16 bits put together, and one of them. -/
theorem extract_of_four_words (x : Fin 4 → BitVec 16) (p : Fin 4) :
    ((List.finRange 4).foldl (fun y p => y ||| (x p).setWidth 64 <<< (16 * p.val)) (0 : BitVec 64)).extractLsb' (16 * p.val) 16 =
      x p := by
  have hfold : (List.finRange 4).foldl (fun y p => y ||| (x p).setWidth 64 <<< (16 * p.val)) (0 : BitVec 64) =
      0 ||| (x 0).setWidth 64 <<< 0 ||| (x 1).setWidth 64 <<< 16 ||| (x 2).setWidth 64 <<< 32 |||
        (x 3).setWidth 64 <<< 48 := rfl
  have hhigh : ∀ (q : Fin 4) (k : Nat), 16 ≤ k → (x q).getLsbD k = false := fun q k hk => BitVec.getLsbD_of_ge _ _ hk
  rw [hfold]
  ext i hi
  match p with
  | 0 => simp [hi, show i < 64 by omega, show i < 32 by omega, show i < 48 by omega]
  | 1 => simp [hi, show 16 + i < 64 by omega, show 16 + i < 32 by omega, show 16 + i < 48 by omega]
  | 2 => simp [hi, show 32 + i < 64 by omega, show 32 + i < 48 by omega,
      hhigh 0 (32 + i) (by omega), hhigh 1 (32 + i - 16) (by omega)]
  | 3 => simp [hi, show 48 + i < 64 by omega, hhigh 0 (48 + i) (by omega),
      hhigh 1 (48 + i - 16) (by omega), hhigh 2 (48 + i - 32) (by omega)]

/-- A measurement ends while it holds a conversion slot. -/
theorem exec_benchmarkMeasurementEnd_go {n : Fin 24} {codes : BenchCodes} {s : State} (hon : s.stationsOn = true)
    (hswitch : s.main.pwr.switching = false) (hruns : (s.station n).benchRuns = true) :
    exec (.benchmarkMeasurementEnd n codes) s =
      .next (s.modStation n fun t => { t with benchBusy := false, benchDone := true, benchRes := benchSums codes }) := by
  change execBenchmarkMeasurementEnd n codes s = _
  rw [execBenchmarkMeasurementEnd, hon, hswitch, hruns]
  rfl

/-- The first held write whose array no longer converts takes effect (R157). -/
theorem Station.releaseWrite_of_find {t : Station} {h : HeldWrite}
    (hf : t.heldWrites.find? (fun w => !t.arrayBusy w.array) = some h) :
    t.releaseWrite = { t.applyWrite h with heldWrites := t.heldWrites.erase h } := by
  rw [Station.releaseWrite, hf]

/-- Settles O21: the write reaches the block or is noted, and a measurement starts, is refused, or ends. -/
theorem benchmarkAndTables : Obligations.BenchmarkAndTables := by
  intro n a codes s hs t
  refine ⟨fun hh => ?_, fun hh hp => ⟨?_, ?_, ?_⟩, fun hh hswitch hbusy hslot hconv harray => ⟨?_, fun p => ?_⟩, fun hh h hf => ?_⟩
  · rw [exec_stnBenchCtrl, State.stnWrite_hold hs hh]
  · exact fun hw hbusy => exec_stnBenchCtrl_start hs hh hp hw hbusy
  · exact exec_stnBenchCtrl_refused hs hh hp
  · rw [exec_stnBenchCtrl, State.stnWrite_go hs hh hp]
    rfl
  · have hruns : t.benchRuns = true := by
      rw [Station.benchRuns, Station.convWaits, hbusy, decide_eq_true hslot, hconv, harray]
      rfl
    exact exec_benchmarkMeasurementEnd_go (State.stationsOn_of hs hh) hswitch hruns
  · exact extract_of_four_words _ p
  · change execHeldTableWrite n s = _
    rw [execHeldTableWrite, State.stationsOn_of hs hh, State.when_true]
    exact congrArg _ (State.modStation_congr (Station.releaseWrite_of_find hf))

end Sys2Proof.Machine

namespace Sys2Proof.Machine

/-! ## Doorbells (R53, R54, R76) -/

/-- The state in which a doorbell is looked at keeps OUT_OF_SERVICE. -/
theorem State.rung_outOfService (s : State) : s.rung.main.glb.outOfService = s.main.glb.outOfService := by
  unfold State.rung
  split
  case isTrue =>
    unfold State.cancelNotice
    split
    · rw [State.powerEvent_glb]
      rfl
    · rfl
  case isFalse => rfl

/-- A doorbell while READY is 1. -/
theorem State.doorbell_of_serving {s : State} (hs : s.serving = true) (f : State → State) : s.doorbell f = f s.rung := by
  rw [State.doorbell, hs, if_pos rfl]
  by_cases h : s.main.pwr.state = .hold ∧ s.main.pwr.forcing = false
  · simp [State.rung, h]
  · have hb : (s.main.pwr.state == .hold && !s.main.pwr.forcing) = false := by simpa using h
    dsimp only
    rw [State.rung, hb, if_neg h]
    rfl

/-- Before READY it is noted for the device. -/
theorem State.doorbell_of_running {s : State} (hs : s.serving = false) (hrun : s.running = true) (f : State → State) :
    s.doorbell f = s.modGlb fun g => { g with earlyDoorbell := true } := by
  rw [State.doorbell, hs, hrun]
  rfl

section
variable {s : State} {q : Fin 16} (f : State → State)

/-- During a reset of its context a queue's doorbell is discarded and noted. -/
theorem State.takeDoorbell_of_reset (h : (s.ctx (s.queue q).cfg.active.ctx).reset ≠ none) :
    s.takeDoorbell q f = s.modQueue q fun x => { x with dbInReset := true, badDoorbell := true } :=
  if_pos (Option.isSome_iff_ne_none.mpr h)

variable (h : (s.ctx (s.queue q).cfg.active.ctx).reset = none)
include h

/-- While OUT_OF_SERVICE, or where the queue is not enabled, it is discarded. -/
theorem State.takeDoorbell_of_off (hoff : s.main.glb.outOfService = true ∨ (s.queue q).cfg.active.enable = false) :
    s.takeDoorbell q f = s.badDoorbell q := by
  rw [State.takeDoorbell, State.queueResets, h, if_neg (by decide), if_pos (by simpa using hoff)]

/-- Otherwise the queue looks at it. -/
theorem State.takeDoorbell_go (hserve : s.main.glb.outOfService = false) (hen : (s.queue q).cfg.active.enable = true) :
    s.takeDoorbell q f = f s := by
  rw [State.takeDoorbell, State.queueResets, h, if_neg (by decide), hserve, hen]
  rfl

end

/-- SQ_TAIL as a queue takes it. -/
def State.takeSqTail (s : State) (q : Fin 16) (idx : BitVec 32) : State :=
  if (s.queue q).cfg.pending.isSome || ringSize (s.queue q).cfg.active.sqLog2 ≤ idx.toNat then s.badDoorbell q
  else s.modQueue q fun x => { x with sqTail := idx.setWidth 12 }

theorem State.takeSqTail_of_legal {s : State} {q : Fin 16} {idx : BitVec 32} (hpend : (s.queue q).cfg.pending = none)
    (hlt : idx.toNat < ringSize (s.queue q).cfg.active.sqLog2) :
    s.takeSqTail q idx = s.modQueue q fun x => { x with sqTail := idx.setWidth 12 } := by
  rw [State.takeSqTail, hpend, decide_eq_false (Nat.not_le.mpr hlt)]
  rfl

theorem State.takeSqTail_of_bad {s : State} {q : Fin 16} {idx : BitVec 32}
    (h : ringSize (s.queue q).cfg.active.sqLog2 ≤ idx.toNat ∨ (s.queue q).cfg.pending ≠ none) :
    s.takeSqTail q idx = s.badDoorbell q := by
  refine if_pos ?_
  rw [Bool.or_eq_true, decide_eq_true_iff, Option.isSome_iff_ne_none]
  exact h.symm

/-- CQ_HEAD as a queue takes it. -/
def State.takeCqHead (s : State) (q : Fin 16) (idx : BitVec 32) : State :=
  if (s.queue q).onTheWay idx.toNat then (s.modQueue q fun x => { x with cqHead := idx.setWidth 12 }).drainHeld q
  else s.badDoorbell q

theorem exec_sqTail (q : Fin 16) (idx : BitVec 32) (s : State) :
    exec (.sqTail q idx) s = .next (s.doorbell fun s => s.takeDoorbell q fun s => s.takeSqTail q idx) := rfl

theorem exec_cqHead (q : Fin 16) (idx : BitVec 32) (s : State) :
    exec (.cqHead q idx) s = .next (s.doorbell fun s => s.takeDoorbell q fun s => s.takeCqHead q idx) := rfl

/-- Whether a CQ_HEAD lies on the way forward to the write index. -/
theorem Queue.onTheWay_iff {x : Queue} {idx : Nat} : x.onTheWay idx = true ↔ idx < ringSize x.cfg.active.cqLog2 ∧
    (idx + ringSize x.cfg.active.cqLog2 - x.cqHead.toNat) % ringSize x.cfg.active.cqLog2 ≤ x.used := by
  simp [Queue.onTheWay]

/-- Settles O22: the states of the device and of the queue decide what a doorbell does. -/
theorem doorbellResults : Obligations.DoorbellResults := by
  intro q idx s v x c
  have hoos : v.main.glb.outOfService = s.main.glb.outOfService := State.rung_outOfService s
  refine ⟨fun hs hreset hserve hen => ?_, fun hs hreset hoff => ?_, fun hs hreset => ?_, fun hs hrun => ?_⟩
  · have htake : ∀ f, v.takeDoorbell q f = f v := fun f => State.takeDoorbell_go f hreset (hoos.trans hserve) hen
    rw [exec_sqTail, exec_cqHead, State.doorbell_of_serving hs, State.doorbell_of_serving hs, htake, htake]
    refine ⟨fun hlt hpend => ?_, fun hbad => ?_, fun hlt hway => ?_, fun hbad => ?_⟩
    · exact congrArg _ (State.takeSqTail_of_legal hpend hlt)
    · exact congrArg _ (State.takeSqTail_of_bad hbad)
    · exact congrArg _ (if_pos (Queue.onTheWay_iff.mpr ⟨hlt, hway⟩))
    · exact congrArg _ (if_neg fun hway => by
        obtain ⟨hlt, hused⟩ := Queue.onTheWay_iff.mp hway
        exact hbad.elim (Nat.not_le.mpr hlt) (Nat.not_lt.mpr hused))
  · rw [exec_sqTail, exec_cqHead, State.doorbell_of_serving hs, State.doorbell_of_serving hs,
      State.takeDoorbell_of_off _ hreset (hoos ▸ hoff), State.takeDoorbell_of_off _ hreset (hoos ▸ hoff)]
    exact ⟨rfl, rfl⟩
  · rw [exec_sqTail, exec_cqHead, State.doorbell_of_serving hs, State.doorbell_of_serving hs,
      State.takeDoorbell_of_reset _ hreset, State.takeDoorbell_of_reset _ hreset]
    exact ⟨rfl, rfl⟩
  · rw [exec_sqTail, exec_cqHead, State.doorbell_of_running hs hrun, State.doorbell_of_running hs hrun]
    exact ⟨rfl, rfl⟩

/-! ## Configurations and fetches (R10, R55, R57, R76) -/

theorem exec_queueConfigActivate (q : Fin 16) (s : State) : exec (.queueConfigActivate q) s =
    .next (s.when (s.serving && (s.queue q).cfg.pending.isSome && (s.queue q).atBoundary) fun s => s.modQueue q fun x =>
      { x with cfg := x.cfg.activate, sqHead := 0, sqTail := 0, cqHead := 0, cqWrite := 0, phase := true, halted := false,
               lastTime := none }) := rfl

/-- A queue is at the boundary of R76 where it has no job, an empty hold slot, and an empty or halted ring. -/
theorem Queue.atBoundary_iff {x : Queue} :
    x.atBoundary = true ↔ x.jobs = [] ∧ x.hold = [] ∧ (x.halted = true ∨ x.sqHead = x.sqTail) := by
  simp [Queue.atBoundary, and_assoc]

/-- Two changes of a queue that agree on what it holds. -/
theorem State.modQueue_congr {s : State} {q : Fin 16} {f g : Queue → Queue} (h : f (s.queue q) = g (s.queue q)) :
    s.modQueue q f = s.modQueue q g := by
  unfold State.queue at h
  simp only [State.modQueue, State.modMain, upd, h]

theorem exec_descriptorFetch_go {q : Fin 16} {s : State} (h : s.mayTake q = true) (reply : Option (BitVec 512)) :
    exec (.descriptorFetch q reply) s = .next (match reply with
      | some d => (s.modMain fun m => { m with jobOrder := m.jobOrder + 1 }).modQueue q fun x =>
          { x with sqHead := if x.sqHead.toNat + 1 = ringSize x.cfg.active.sqLog2 then 0 else x.sqHead + 1,
                   jobs := x.jobs ++ [s.newJob q d] }
      | none => (s.modQueue q fun x => { x with halted := true, fetchErr := true }).raise
          (ctxVector (s.queue q).cfg.active.ctx)) := by
  change execDescriptorFetch q reply s = _
  rw [execDescriptorFetch, h]
  rfl

/-- Settles O23: the boundary decides an activation, and a fetch makes a job or halts the queue. -/
theorem queueConfigurationAndFetches : Obligations.QueueConfigurationAndFetches := by
  constructor
  · intro q s hs x
    refine ⟨?_, fun p hp hjobs hhold hring => ?_, fun hno => ?_⟩
    · change execHqCommit q s = _
      rw [execHqCommit, hs]
      rfl
    · have hb : x.atBoundary = true := Queue.atBoundary_iff.mpr ⟨hjobs, hhold, hring⟩
      rw [exec_queueConfigActivate, hs, hp, hb]
      refine congrArg _ (State.modQueue_congr ?_)
      have hact : x.cfg.activate = { x.cfg with active := p, pending := none } := by rw [Staged.activate, hp]
      rw [hact]
    · have hcond : (s.serving && x.cfg.pending.isSome && x.atBoundary) = false := by
        rw [← Bool.not_eq_true, Bool.and_eq_true, Bool.and_eq_true, Queue.atBoundary_iff, Option.isSome_iff_ne_none]
        rintro ⟨⟨-, hp⟩, hjobs, hhold, hring⟩
        obtain h | h | h | ⟨h, h'⟩ := hno
        · exact hp h
        · exact h hjobs
        · exact h hhold
        · exact hring.elim (by rw [h]; decide) h'
      rw [exec_queueConfigActivate, hcond, State.when_false]
  · intro q d s h c
    constructor
    · rw [exec_descriptorFetch_go h]
      exact congrArg _ (State.modQueue_congr rfl)
    · rw [exec_descriptorFetch_go h]

end Sys2Proof.Machine

namespace Sys2Proof.Machine

/-! ## Marks and the host window (R7, R49, R72) -/

theorem exec_hqMark (m : Fin 64) (w : W64) (s : State) : exec (.hqMark m w) s = .next (s.when s.serving fun s =>
    match w with
    | .both v => s.setMark m v
    | _ => s) := rfl

theorem exec_glbHostwin (w : W64) (s : State) : exec (.glbHostwin w) s = .next (s.when s.running fun s =>
    if s.queuesIdle && !s.chansBusy then
      s.modGlb fun g => { g with hostwin := applyW64 g.hostwin w &&& 0xFFFFFFFFFFFFF000 }
    else s.modGlb fun g => { g with hostwinBusy := true }) := rfl

/-- What a mark's write sets. -/
theorem State.setMark_marks (s : State) (m k : Fin 64) (v : BitVec 64) :
    (s.setMark m v).main.marks[k] = if k = m then v else s.main.marks[k] := by
  change (s.main.marks.set m v)[k] = _
  by_cases h : k = m
  · subst h
    rw [if_pos rfl]
    exact Vector.getElem_set_self _
  · rw [if_neg h]
    exact Vector.getElem_set_ne _ _ fun hv => h (Fin.ext hv).symm

/-! ## Pending messages (R75) -/

theorem getLsbD_setBit_false {w : Nat} (x : BitVec w) (i j : Nat) (hj : j < w) :
    (setBit x i false).getLsbD j = (x.getLsbD j && !(decide (j = i))) := by
  simp [setBit, hj]

/-- Whether a vector's messages are sent. -/
def Msix.sends (x : Msix) (v : Fin 64) : Bool := x.enable && !x.functionMask && !x.mask.getLsbD v.val

/-- Whether a vector has a pending message that may be sent. -/
def Msix.ready (x : Msix) (v : Fin 64) : Bool := x.pba.getLsbD v.val && x.sends v

/-- The message of a vector in host memory. -/
def Msix.message (x : Msix) (m : Memory) (v : Fin 64) : Memory := m.writeBytes (x.addr[v]).toNat (toBytes x.data[v] 4)

/-- The pending bits of some vectors cleared. -/
def clearPending (l : List (Fin 64)) (pba : BitVec 64) : BitVec 64 := l.foldl (fun p v => setBit p v.val false) pba

theorem clearPending_getLsbD (l : List (Fin 64)) (pba : BitVec 64) (v : Fin 64) :
    (clearPending l pba).getLsbD v.val = (pba.getLsbD v.val && !(decide (v ∈ l))) := by
  induction l generalizing pba with
  | nil => simp [clearPending]
  | cons u l ih =>
    change (clearPending l (setBit pba u.val false)).getLsbD v.val = _
    rw [ih, getLsbD_setBit_false _ _ _ v.isLt, Bool.and_assoc, ← Bool.not_or, ← Bool.decide_or]
    simp only [Fin.ext_iff, List.mem_cons]

/-- The state after the messages of some vectors were sent. -/
def State.sent (s : State) (l : List (Fin 64)) : State :=
  { s with hostMem := l.foldl s.main.msix.message s.hostMem,
           main := { s.main with msix := { s.main.msix with pba := clearPending l s.main.msix.pba } } }

/-- One vector's pending message sent where it may be. -/
def State.sendOne (s : State) (v : Fin 64) : State :=
  if s.main.msix.pba.getLsbD v.val && s.main.msix.enable && !s.main.msix.functionMask && !s.main.msix.mask.getLsbD v.val then
    (s.modMsix fun x => { x with pba := setBit x.pba v.val false }).raise v
  else s

theorem State.sendOne_eq (s : State) (v : Fin 64) : s.sendOne v = if s.main.msix.ready v then s.sent [v] else s := by
  have hcond : (s.main.msix.pba.getLsbD v.val && s.main.msix.enable && !s.main.msix.functionMask &&
      !s.main.msix.mask.getLsbD v.val) = s.main.msix.ready v := by
    simp only [Msix.ready, Msix.sends, Bool.and_assoc]
  rw [State.sendOne, hcond]
  split
  case isTrue h =>
    have hsends : (s.main.msix.enable && !s.main.msix.functionMask && !s.main.msix.mask.getLsbD v.val) = true := by
      rw [Msix.ready, Bool.and_eq_true] at h
      exact h.2
    exact if_pos hsends
  case isFalse => rfl

/-- Several vectors, each once: those with a pending message that may be sent send it. -/
theorem State.foldl_sendOne {l : List (Fin 64)} (hl : l.Nodup) (s : State) :
    l.foldl State.sendOne s = s.sent (l.filter s.main.msix.ready) := by
  induction l generalizing s with
  | nil => rfl
  | cons v l ih =>
    obtain ⟨hv, hl⟩ := List.nodup_cons.mp hl
    rw [List.foldl_cons, ih hl, State.sendOne_eq]
    cases hready : s.main.msix.ready v with
    | false => rw [if_neg (by decide), List.filter_cons_of_neg (by rw [hready]; decide)]
    | true =>
      have hrest : l.filter (s.sent [v]).main.msix.ready = l.filter s.main.msix.ready := by
        refine List.filter_congr fun u hu => ?_
        have hne : ¬ u.val = v.val := fun h => hv (Fin.ext h ▸ hu)
        change ((setBit s.main.msix.pba v.val false).getLsbD u.val && s.main.msix.sends u) = _
        rw [getLsbD_setBit_false _ _ _ u.isLt, decide_eq_false hne, Bool.not_false, Bool.and_true]
        rfl
      rw [if_pos rfl, List.filter_cons_of_pos hready, hrest]
      rfl

theorem State.sendPending_eq (s : State) : s.sendPending = s.sent ((List.finRange 64).filter s.main.msix.ready) :=
  State.foldl_sendOne (List.nodup_finRange 64) s

/-- What a change of MSI-X by the host leaves. -/
theorem State.hostMsix_parts (s : State) (f : Msix → Msix) :
    let u := s.hostMsix f
    let x := u.main.msix
    x = { f s.main.msix with pba := x.pba } ∧
    (∀ v : Fin 64, x.pba.getLsbD v.val = ((f s.main.msix).pba.getLsbD v.val && !x.sends v)) ∧
    u.hostMem = ((List.finRange 64).filter fun v => (f s.main.msix).pba.getLsbD v.val && !x.pba.getLsbD v.val).foldl
      x.message s.hostMem ∧
    u = { s with hostMem := u.hostMem, main := { s.main with msix := x } } := by
  have hsent : s.hostMsix f = (s.modMsix f).sent ((List.finRange 64).filter (f s.main.msix).ready) :=
    State.sendPending_eq _
  have hpba : ∀ v : Fin 64, (s.hostMsix f).main.msix.pba.getLsbD v.val =
      ((f s.main.msix).pba.getLsbD v.val && !(f s.main.msix).sends v) := by
    intro v
    rw [hsent]
    change (clearPending _ (f s.main.msix).pba).getLsbD v.val = _
    rw [clearPending_getLsbD]
    simp only [List.mem_filter, List.mem_finRange, true_and, Msix.ready, Bool.decide_eq_true]
    cases (f s.main.msix).pba.getLsbD v.val <;> rfl
  have hready : ∀ v : Fin 64, (f s.main.msix).ready v =
      ((f s.main.msix).pba.getLsbD v.val && !(s.hostMsix f).main.msix.pba.getLsbD v.val) := by
    intro v
    rw [hpba, Msix.ready]
    cases (f s.main.msix).pba.getLsbD v.val <;> simp
  refine ⟨by rw [hsent]; rfl, fun v => ?_, ?_, by rw [hsent]; rfl⟩
  · rw [hpba, hsent]
    rfl
  · rw [← funext hready, hsent]
    rfl

/-- Settles O24: the state decides the first three writes; an unmask sends what has become ready. -/
theorem marksWindowAndUnmasking : Obligations.MarksWindowAndUnmasking := by
  constructor
  · intro m v w s
    refine ⟨fun hs => ⟨s.setMark m v, ?_, ?_, fun k hk => ?_, rfl⟩, fun hs h => ⟨?_, ?_⟩, fun hrun hidle hbusy => ?_,
      fun hrun hno => ?_⟩
    · rw [exec_hqMark, hs]
      rfl
    · rw [State.setMark_marks, if_pos rfl]
    · rw [State.setMark_marks, if_neg hk]
    · rw [exec_hqMark, hs]
      rfl
    · rw [exec_hqMark, hs]
      rfl
    · rw [exec_glbHostwin, hrun, State.when_true, hidle, hbusy]
      rfl
    · have hcond : (s.queuesIdle && !s.chansBusy) = false := by
        obtain h | h := hno
        · rw [h, Bool.false_and]
        · rw [h, Bool.not_true, Bool.and_false]
      rw [exec_glbHostwin, hrun, State.when_true, hcond]
      rfl
  · intro what s hrun
    have hexec : ∀ f, (.next (s.when s.running fun s => s.hostMsix f) : Host.Outcome State Fault Refusal) = .next (s.hostMsix f) :=
      fun f => by rw [hrun, State.when_true]
    cases what with
    | vector v a d =>
      obtain ⟨hx, hpba, hmem, hrest⟩ := State.hostMsix_parts s fun x => x.setEntry v a d false
      refine ⟨_, hexec _, hpba, ?_, hmem, hrest⟩
      rw [hx]
      exact ⟨rfl, rfl, rfl, rfl, rfl⟩
    | functionMask =>
      obtain ⟨hx, hpba, hmem, hrest⟩ := State.hostMsix_parts s fun x => { x with functionMask := false }
      exact ⟨_, hexec _, hpba, hx, hmem, hrest⟩
    | enable =>
      obtain ⟨hx, hpba, hmem, hrest⟩ := State.hostMsix_parts s fun x => { x with enable := true }
      exact ⟨_, hexec _, hpba, hx, hmem, hrest⟩

end Sys2Proof.Machine

namespace Sys2Proof.Machine

/-! ## Starting a job (R58, R59, R61, R71, R89) -/

/-- The first job of a queue after a change of it. -/
theorem State.modJob_job {s : State} {q : Fin 16} {j : Job} (hj : s.job q = some j) (f : Job → Job) :
    (s.modJob q f).job q = some (f j) := by
  unfold State.modJob State.job State.queue
  rw [State.modQueue_main]
  dsimp only
  rw [upd_get_same]
  cases hjobs : (s.main.queues[q]).jobs with
  | nil =>
    rw [State.job, State.queue, hjobs] at hj
    cases hj
  | cons k rest =>
    rw [State.job, State.queue, hjobs] at hj
    cases hj
    rfl

/-- What the start of a queue's next job does where the dispatcher may start one. -/
def State.startNext (s : State) (q : Fin 16) (j : Job) : State :=
  match j.headerBad with
  | some b => s.badDescriptor q b
  | none =>
    if !s.admissible q j || !s.markOk j then s
    else if j.cmd = 1 && (s.runBad j).isNone then
      if (setBits 24 j.stationMask).all (s.mayHave q j) then
        (s.claimStations q j).modJob q fun j => { j with phase := .started }
      else s
    else s.modJob q fun j => { j with phase := .started }

theorem exec_jobStart_go {q : Fin 16} {j : Job} {s : State} (hj : s.job q = some j) (hstart : s.mayStart = true)
    (hphase : j.phase = .taken) (hdoom : j.doomed = false) (hhold : (s.queue q).hold = []) :
    exec (.jobStart q) s = .next (s.startNext q j) := by
  change execJobStart q s = _
  unfold execJobStart
  rw [hj]
  dsimp only
  rw [hstart, hphase, hdoom, hhold]
  rfl

section
variable {q : Fin 16} {j : Job} {s : State} (hbad : j.headerBad = none)
include hbad

theorem State.startNext_waits (h : s.admissible q j = false ∨ s.markOk j = false) : s.startNext q j = s := by
  rw [State.startNext, hbad]
  refine if_pos ?_
  obtain h | h := h
  · rw [h]; rfl
  · rw [h, Bool.not_false, Bool.or_true]

variable (hadm : s.admissible q j = true) (hmark : s.markOk j = true)
include hadm hmark

theorem State.startNext_plain (h : ¬ (j.cmd = 1 ∧ s.runBad j = none)) :
    s.startNext q j = s.modJob q fun k => { k with phase := .started } := by
  have hprogram : (decide (j.cmd = 1) && (s.runBad j).isNone) = false := by
    rw [← Bool.not_eq_true, Bool.and_eq_true, decide_eq_true_iff, Option.isNone_iff_eq_none]
    exact h
  rw [State.startNext, hbad, hadm, hmark]
  dsimp only
  rw [hprogram]
  rfl

variable (hprogram : j.cmd = 1 ∧ s.runBad j = none)
include hprogram

theorem State.startNext_program : s.startNext q j = if (setBits 24 j.stationMask).all (s.mayHave q j) = true
    then (s.claimStations q j).modJob q fun j => { j with phase := .started } else s := by
  rw [State.startNext, hbad, hadm, hmark]
  dsimp only
  rw [hprogram.2, decide_eq_true hprogram.1]
  rfl

end

/-- A program that starts claims the stations of its mask, and no other. -/
theorem State.claimStations_station (s : State) (q : Fin 16) (j : Job) (n : Fin 24) : (s.claimStations q j).station n =
    if j.stationMask.getLsbD n.val then { s.station n with claim := some q, reserved := none } else s.station n := by
  unfold State.claimStations State.station
  dsimp only
  rw [State.modPwr_main, State.modMain_main]
  exact Vector.getElem_ofFn _

/-- Settles O25: the checks of the dispatcher in their order. -/
theorem jobStarts : Obligations.JobStarts := by
  intro q j s hj hstart hphase hdoom hhold program
  rw [exec_jobStart_go hj hstart hphase hdoom hhold]
  refine ⟨fun b hb => ?_, fun hbad => ⟨fun hwait => ?_, fun hadm hmark => ⟨fun hno => ?_, fun hprog hall => ?_,
    fun hprog hsome => ?_⟩⟩⟩
  · rw [State.startNext, hb]
    rfl
  · rw [State.startNext_waits hbad hwait]
  · rw [State.startNext_plain hbad hadm hmark hno]
  · have hmay : (setBits 24 j.stationMask).all (s.mayHave q j) = true := by
      rw [List.all_eq_true]
      exact fun n hn => hall n (mem_setBits.mp hn)
    refine ⟨_, rfl, ?_⟩
    rw [State.startNext_program hbad hadm hmark hprog, if_pos hmay]
    exact ⟨State.modJob_job hj _, rfl, State.claimStations_station s q j⟩
  · obtain ⟨n, hn, hmay⟩ := hsome
    have hall : ¬ (setBits 24 j.stationMask).all (s.mayHave q j) = true := by
      rw [List.all_eq_true]
      intro h
      have := h n (mem_setBits.mpr hn)
      rw [hmay] at this
      cases this
    rw [State.startNext_program hbad hadm hmark hprog, if_neg hall]

/-! ## A started job's command (R61, R387) -/

/-- A command on a job that has started with its code. -/
theorem State.onJob_go {s : State} {q : Fin 16} {cmd : Nat} {j : Job} (h : s.startedJob q cmd j) (f : Job → State) :
    s.onJob q cmd f = f j := by
  obtain ⟨hs, hj, hphase, hcmd, hdoom⟩ := h
  rw [State.onJob, hj]
  simp [hs, hphase, hcmd, hdoom]

/-! ## RUN_PROGRAM (R102, R110) -/

/-- The g registers at the start of a program. -/
theorem Station.rg_launch (t : Station) (j : Job) (q : Fin 16) (n : Fin 24) (stamp : Nat) {k : Nat} (hk : k < 32) :
    (t.launch j q n stamp).rg k = ([0, BitVec.ofNat 64 (j.le 32 8), BitVec.ofNat 64 (j.le 40 8), BitVec.ofNat 64 (j.le 48 8),
      BitVec.ofNat 64 (j.le 56 8), BitVec.ofNat 64 n.val, BitVec.ofNat 64 ((setBits 24 j.stationMask).countP fun k => k < n),
      BitVec.ofNat 64 (popCount j.stationMask), j.stationMask.setWidth 64] : List (BitVec 64)).getD k 0 := by
  unfold Station.rg
  split
  case isTrue h0 => rw [h0]; rfl
  case isFalse => simp [Station.launch, Vector.getD, hk]

/-- The other registers at the start of a program. -/
theorem Station.launch_registers (t : Station) (j : Job) (q : Fin 16) (n : Fin 24) (stamp : Nat) :
    (∀ k < 8, (t.launch j q n stamp).rd k = 0) ∧ (∀ k < 16, (t.launch j q n stamp).rv k = 0) ∧
    (∀ k, 1 ≤ k → k < 8 → (t.launch j q n stamp).rp k = 0) := by
  refine ⟨fun k hk => ?_, fun k hk => ?_, fun k h1 hk => ?_⟩
  · simp [Station.rd, Station.launch, Vector.getD, hk]
  · simp [Station.rv, Station.launch, Vector.getD, hk]
  · simp [Station.rp, Station.launch, Vector.getD, hk, Nat.ne_of_gt h1]

/-- The stations of a program's mask launched. -/
def State.launchStations (s : State) (q : Fin 16) (j : Job) : State :=
  let s := s.modMain fun m =>
    { m with stations := Vector.ofFn fun n =>
        if j.stationMask.getLsbD n.val then m.stations[n].launch j q n (s.stamp + 8 * n.val) else m.stations[n] }
  { s with stamp := s.stamp + 192 }

theorem State.launchStations_job (s : State) (q : Fin 16) (j : Job) : (s.launchStations q j).job q = s.job q := by
  simp only [State.launchStations, State.job, State.queue, State.modMain_main]

/-- The state after a RUN_PROGRAM with a good payload. -/
def State.launched (s : State) (q : Fin 16) (j : Job) : State :=
  (s.launchStations q j).modJob q fun j => { j with phase := .running, stations := j.stationMask }

/-- It launches the stations of the mask, and no other. -/
theorem State.launched_station (s : State) (q : Fin 16) (j : Job) (n : Fin 24) : (s.launched q j).station n =
    if j.stationMask.getLsbD n.val then (s.station n).launch j q n (s.stamp + 8 * n.val) else s.station n :=
  Vector.getElem_ofFn _

theorem exec_runProgram_go {q : Fin 16} {j : Job} {s : State} (h : s.startedJob q 1 j) :
    exec (.runProgram q) s = .next (s.checked q (s.runBad j) fun s => s.launched q j) := by
  change execRunProgram q s = _
  rw [execRunProgram, State.onJob_go h]
  rfl

/-- Settles O26: the payload decides; a station of the mask is launched with the registers of R102. -/
theorem programLaunch : Obligations.ProgramLaunch := by
  intro q j s h
  rw [exec_runProgram_go h]
  refine ⟨fun b hb => by rw [hb]; rfl, fun hbad => ?_⟩
  rw [hbad]
  refine ⟨s.launched q j, rfl, ?_, fun n => ⟨fun hn => ?_, fun hn => ?_⟩⟩
  · obtain ⟨-, hj, -⟩ := h
    exact State.modJob_job ((State.launchStations_job s q j).trans hj) _
  · rw [State.launched_station, hn]
    rfl
  · rw [State.launched_station, if_pos hn]
    obtain ⟨hrd, hrv, hrp⟩ := Station.launch_registers (s.station n) j q n (s.stamp + 8 * n.val)
    have hrg := fun k (hk : k < 32) => Station.rg_launch (s.station n) j q n (s.stamp + 8 * n.val) hk
    refine ⟨rfl, rfl, rfl, rfl, rfl, rfl, ⟨hrg 1 (by decide), hrg 2 (by decide), hrg 3 (by decide), hrg 4 (by decide)⟩,
      ⟨hrg 5 (by decide), hrg 7 (by decide), hrg 8 (by decide), hrg 6 (by decide)⟩, fun k h9 hk => ?_, hrd, hrv, hrp,
      rfl, rfl, rfl, rfl, rfl, rfl, rfl⟩
    rw [hrg k hk]
    exact List.getD_eq_default _ _ h9

end Sys2Proof.Machine

namespace Sys2Proof.Machine

/-! ## Payloads (R61) -/

/-- Bytes that are zero offend nowhere. -/
theorem Job.nonzero_eq_nil {j : Job} {lo hi : Nat} (h : j.zeroBytes lo hi) {l : List Nat}
    (hl : ∀ i ∈ l, lo ≤ i ∧ i < hi) : j.nonzero l = [] := by
  rw [Job.nonzero, List.filter_eq_nil_iff]
  intro i hi'
  obtain ⟨h1, h2⟩ := hl i hi'
  simp [h i h1 h2]

/-- A condition that does not hold offends nowhere. -/
theorem offIf_false {c : Bool} (h : c = false) (o : Nat) : offIf c o = [] := by rw [h]; rfl

/-! ## FENCE, MARK and TIMESTAMP (R63, R64, R392) -/

/-- A FENCE with a good payload: it ends once no job taken before it is left in its scope. -/
theorem exec_fence_go {q : Fin 16} {j : Job} {s : State} (h : s.startedJob q 5 j) (hscope : j.le 16 1 < 2)
    (hzero : j.zeroBytes 17 64) : exec (.fence q) s = .next
      (if ((List.finRange 16).any fun k => (s.queue k).jobs.any fun o =>
        o.order < j.order && (j.le 16 1 == 1 || o.ctx == j.ctx)) = true then s else s.setEnd q stOk 0) := by
  have hgood : minOpt (offIf (1 < j.le 16 1) 16 ++ j.nonzero ((List.range 47).map (17 + ·))) = none := by
    rw [offIf_false (decide_eq_false (by omega)), Job.nonzero_eq_nil hzero (by decide)]
    rfl
  change execFence q s = _
  rw [execFence, State.onJob_go h, hgood]
  rfl

/-- Whether a job that was taken before another is left in its scope. -/
theorem fenceWaits_iff {s : State} {j : Job} : ((List.finRange 16).any fun k => (s.queue k).jobs.any fun o =>
    o.order < j.order && (j.le 16 1 == 1 || o.ctx == j.ctx)) = true ↔
      ∃ k, ∃ o ∈ (s.queue k).jobs, o.order < j.order ∧ (j.le 16 1 = 1 ∨ o.ctx = j.ctx) := by
  simp only [List.any_eq_true, List.mem_finRange, true_and, Bool.and_eq_true, Bool.or_eq_true, decide_eq_true_iff, beq_iff_eq]

/-- A MARK with a good payload, in the command of its OP and in the other one. -/
theorem State.markOp_go {q : Fin 16} {j : Job} {s : State} (h : s.startedJob q 6 j) (hmark : j.le 16 1 < 64)
    (hlow : j.zeroBytes 18 24) (hhigh : j.zeroBytes 32 64) (hop : j.le 17 1 < 2) (op : Nat)
    (f : State → Fin 64 → BitVec 64 → State) : s.markOp q op f = if j.le 17 1 = op
      then (f s (Fin.ofNat 64 (j.le 16 1)) (BitVec.ofNat 64 (j.le 24 8))).setEnd q stOk 0 else s := by
  have hgood : minOpt (offIf (64 ≤ j.le 16 1) 16 ++ offIf (1 < j.le 17 1) 17 ++ j.nonzero [18, 19, 20, 21, 22, 23] ++
      j.nonzero ((List.range 32).map (32 + ·))) = none := by
    rw [offIf_false (decide_eq_false (by omega)), offIf_false (decide_eq_false (by omega)),
      Job.nonzero_eq_nil hlow (by decide), Job.nonzero_eq_nil hhigh (by decide)]
    rfl
  rw [State.markOp, State.onJob_go h, hgood]
  by_cases hcode : j.le 17 1 = op
  · rw [if_pos hcode, decide_eq_false (not_not.mpr hcode)]
    rfl
  · rw [if_neg hcode, decide_eq_true hcode, decide_eq_true hop]
    rfl

theorem exec_timestamp_go {q : Fin 16} {j : Job} {s : State} (h : s.startedJob q 7 j) (hzero : j.zeroBytes 16 64) :
    exec (.timestamp q) s = .next (s.setEnd q stOk 0) := by
  change execTimestamp q s = _
  rw [execTimestamp, State.onJob_go h, Job.nonzero_eq_nil hzero (by decide)]
  rfl

/-- Settles O27: each of the three jobs with a good payload, and the time of its record. -/
theorem fenceMarkTimestampJobs : Obligations.FenceMarkTimestampJobs := by
  intro q j s
  refine ⟨fun h hscope hzero => ⟨fun hno => ?_, fun hyes => ?_⟩,
    fun h hmark hlow hhigh => ⟨fun hop => ⟨?_, ?_⟩, fun hop => ⟨?_, ?_⟩⟩,
    fun h hzero => exec_timestamp_go h hzero, fun st d ph => rfl⟩
  · rw [exec_fence_go h hscope hzero, if_neg (mt fenceWaits_iff.mp hno)]
  · rw [exec_fence_go h hscope hzero, if_pos (fenceWaits_iff.mpr hyes)]
  · exact next_of_eq ((State.markOp_go h hmark hlow hhigh (by omega) 0 _).trans (if_pos hop))
  · exact next_of_eq ((State.markOp_go h hmark hlow hhigh (by omega) 1 _).trans (if_neg (by omega)))
  · exact next_of_eq ((State.markOp_go h hmark hlow hhigh (by omega) 1 _).trans (if_pos hop))
  · exact next_of_eq ((State.markOp_go h hmark hlow hhigh (by omega) 0 _).trans (if_neg (by omega)))

/-! ## LOAD_ARRAYS, SET_PARCELS, COPY and ATTEST (R62, R65, R164, R351) -/

/-- A payload without an offending byte. -/
theorem State.checked_none (s : State) (q : Fin 16) {bad : Option Nat} (h : bad = none) (f : State → State) :
    s.checked q bad f = f s := by rw [h]; rfl

/-- A range within its parcels. -/
theorem State.ranged_none (s : State) (q : Fin 16) {fault : Option (BitVec 32)} (h : fault = none) (f : State → State) :
    s.ranged q fault f = f s := by rw [h]; rfl

section
variable {q : Fin 16} {j : Job} {s : State}

theorem exec_loadArraysWeights_go (h : s.startedJob q 2 j) (hbad : s.laBad j = none) (hrange : s.laRange j = none)
    (hmode : j.laMode = 0) : exec (.loadArraysWeights q) s =
      .next ((s.setRunning q).modMain fun m => { m with progWait := m.progWait ++ j.laWorks q }) := by
  change execLoadArraysWeights q s = _
  rw [execLoadArraysWeights, State.onJob_go h, if_neg (by rw [hmode]; decide), State.checked_none s q hbad,
    State.ranged_none s q hrange]

theorem exec_loadArraysTables_go (h : s.startedJob q 2 j) (hbad : s.laBad j = none) (hrange : s.laRange j = none)
    (hmode : j.laMode = 1) : exec (.loadArraysTables q) s = .next (s.setRunning q) := by
  change execLoadArraysTables q s = _
  rw [execLoadArraysTables, State.onJob_go h, if_neg (fun hne => hne hmode), State.checked_none s q hbad,
    State.ranged_none s q hrange]

/-- The payload of a SET_PARCELS with FIRST and COUNT in range, and its source a multiple of 32. -/
theorem setParcels_good (hcount : 1 ≤ j.spCount) (hfirst : j.spFirst + j.spCount ≤ 32) (hlow : j.zeroBytes 18 24)
    (hsource : j.spSource % 32 = 0) (hhigh : j.zeroBytes 29 64) :
    let both := if j.spCount = 0 || 32 < j.spCount then 32 < j.spFirst else 32 < j.spFirst + j.spCount
    minOpt (offIf both 16 ++ offIf (both || j.spCount = 0 || 32 < j.spCount) 17 ++
      j.nonzero [18, 19, 20, 21, 22, 23, 29, 30, 31] ++ offIf (j.spSource % 32 ≠ 0) 24 ++
      j.nonzero ((List.range 32).map (32 + ·))) = none := by
  dsimp only
  have hcond : (decide (j.spCount = 0) || decide (32 < j.spCount)) = false := by
    rw [decide_eq_false (by omega), decide_eq_false (by omega)]
    rfl
  have hmid : j.nonzero [18, 19, 20, 21, 22, 23, 29, 30, 31] = [] := by
    have hsplit : j.nonzero [18, 19, 20, 21, 22, 23, 29, 30, 31] = j.nonzero [18, 19, 20, 21, 22, 23] ++ j.nonzero [29, 30, 31] :=
      List.filter_append [18, 19, 20, 21, 22, 23] [29, 30, 31]
    rw [hsplit, Job.nonzero_eq_nil hlow (by decide), Job.nonzero_eq_nil hhigh (by decide)]
    rfl
  have hboth : ¬ 32 < j.spFirst + j.spCount := by omega
  simp only [hcond, Bool.false_eq_true, if_false, hboth, decide_false, Bool.false_or, hsource, hmid,
    Job.nonzero_eq_nil hhigh (show ∀ i ∈ (List.range 32).map (32 + ·), 29 ≤ i ∧ i < 64 by decide)]
  rfl

theorem exec_setParcels_go (h : s.startedJob q 9 j) (hcount : 1 ≤ j.spCount) (hfirst : j.spFirst + j.spCount ≤ 32)
    (hlow : j.zeroBytes 18 24) (hsource : j.spSource % 32 = 0) (hhigh : j.zeroBytes 29 64)
    (hrange : s.rangeCheck (s.ctx j.ctx).table.active 0 j.spSource (32 * j.spCount) = none) :
    exec (.setParcels q) s = .next (s.setRunning q) := by
  change execSetParcels q s = _
  rw [execSetParcels, State.onJob_go h]
  refine congrArg _ ?_
  exact (State.checked_none s q (setParcels_good hcount hfirst hlow hsource hhigh) _).trans (State.ranged_none s q hrange _)

theorem exec_copy_go (h : s.startedJob q 4 j) (hbad : s.copyBad j = none)
    (hread : s.rangeCheck (s.ctx j.ctx).table.active 0 (j.le 16 5) (j.le 32 4) = none)
    (hwrite : s.rangeCheck (s.ctx j.ctx).table.active 1 (j.le 24 5) (j.le 32 4) = none) :
    exec (.copy q) s = .next ((s.nextStamp.setRunning q).modChan (Fin.ofNat 16 (j.le 37 1)) fun x =>
      { x with copyWaits := x.copyWaits ++ [(q, s.stamp)] }).chansSettle := by
  change execCopy q s = _
  rw [execCopy, State.onJob_go h, State.checked_none s q hbad]
  dsimp only
  rw [State.ranged_none s q hread, State.ranged_none s q hwrite]

theorem exec_attest_go (h : s.startedJob q 8 j) (halign : j.le 48 5 % 64 = 0) (hzero : j.zeroBytes 53 64)
    (hrange : s.rangeCheck (s.ctx j.ctx).table.active 1 (j.le 48 5) 24896 = none) :
    exec (.attest q) s = .next ((s.setRunning q).modIdk fun i => { i with sigQueue := i.sigQueue ++ [.attest q j.order] }) := by
  have hgood : minOpt (offIf (j.le 48 5 % 64 ≠ 0) 48 ++ j.nonzero [53, 54, 55] ++ j.nonzero ((List.range 8).map (56 + ·))) = none := by
    rw [offIf_false (by simp [halign]), Job.nonzero_eq_nil hzero (by decide), Job.nonzero_eq_nil hzero (by decide)]
    rfl
  change execAttest q s = _
  rw [execAttest, State.onJob_go h, State.checked_none s q hgood, State.ranged_none s q hrange]

end

/-- Settles O28: each job with a good payload and ranges that pass begins. -/
theorem engineJobsBegin : Obligations.EngineJobsBegin := by
  intro q j s table
  refine ⟨fun h hbad hrange => ⟨fun hmode => ?_, fun hmode => ?_⟩, ?_, ?_, ?_⟩
  · exact exec_loadArraysWeights_go h hbad hrange hmode
  · exact exec_loadArraysTables_go h hbad hrange hmode
  · exact fun h hcount hfirst hlow hsource hhigh hrange => exec_setParcels_go h hcount hfirst hlow hsource hhigh hrange
  · exact fun h hbad hread hwrite => exec_copy_go h hbad hread hwrite
  · exact fun h halign hzero hrange => exec_attest_go h halign hzero hrange

/-! ## NAND_IO (R200 to R202) -/

/-- The stream of a NAND_IO. -/
def Job.nandStream (j : Job) (kind : NandKind) (q : Fin 16) : NandStream :=
  if kind = .read ∨ kind = .program ∨ kind = .erase then
    j.nandReq.stream kind (.job q j.order) j.ctx j.gen none (BitVec.ofNat 40 (j.le 40 5))
  else targetStream j kind q

/-- A NAND_IO in the command of its operation. -/
theorem State.nandIo_go {q : Fin 16} {j : Job} {s : State} {kind : NandKind} (h : s.startedJob q 3 j)
    (hkind : nandKindOf (j.le 16 1) = some kind) : s.nandIo q kind =
      s.checked q (s.nandJobBad j) fun s => s.ranged q (s.nandRange j kind) fun s =>
        ((s.setRunning q).addStream (j.nandStream kind q)).pumpNand := by
  rw [State.nandIo, State.onJob_go h, hkind, bne_self_eq_false, Bool.false_and, if_neg (by decide)]
  cases kind
  all_goals rfl

/-- The command of an operation: it fails on a bad payload or range, and otherwise its stream joins behind the others. -/
theorem nandIo_begins {kind : NandKind} {command : Fin 16 → Instr}
    (hcommand : ∀ q s, exec (command q) s = .next (s.nandIo q kind)) {q : Fin 16} {j : Job} {s : State}
    (h : s.startedJob q 3 j) (hkind : nandKindOf (j.le 16 1) = some kind) :
    (∀ b, s.nandJobBad j = some b → exec (command q) s = .next (s.setEnd q stBadDescriptor (BitVec.ofNat 32 b))) ∧
    (s.nandJobBad j = none → ∀ d, s.nandRange j kind = some d → exec (command q) s = .next (s.setEnd q stBoundFault d)) ∧
    (s.nandJobBad j = none → s.nandRange j kind = none → exec (command q) s = .next (((s.setRunning q).modNfc fun n =>
      { n with seq := n.seq + 1, streams := n.streams ++ [{ j.nandStream kind q with seq := n.seq }] }).pumpNand)) := by
  rw [hcommand, State.nandIo_go h hkind]
  refine ⟨fun b hb => by rw [hb]; rfl, fun hgood d hd => ?_, fun hgood hrange => ?_⟩
  · rw [State.checked_none s q hgood, hd]
    rfl
  · rw [State.checked_none s q hgood, State.ranged_none s q hrange]
    rfl

/-- Settles O29: every operation's command checks and queues its stream in the same way. -/
theorem nandJobsBegin : Obligations.NandJobsBegin := by
  unfold Obligations.NandJobsBegin
  simp only [List.forall_mem_cons, List.not_mem_nil, false_implies, implies_true, and_true]
  refine ⟨fun q j s h hkind => nandIo_begins ?_ h hkind, fun q j s h hkind => nandIo_begins ?_ h hkind,
    fun q j s h hkind => nandIo_begins ?_ h hkind, fun q j s h hkind => nandIo_begins ?_ h hkind,
    fun q j s h hkind => nandIo_begins ?_ h hkind, fun q j s h hkind => nandIo_begins ?_ h hkind,
    fun q j s h hkind => nandIo_begins ?_ h hkind⟩
  all_goals exact fun _ _ => rfl

end Sys2Proof.Machine

namespace Sys2Proof.Machine

/-! ## The end of a job (R66, R69, R187, R188) -/

/-- A job that has come to its end does not reach it again. -/
theorem State.reachEnd_of_ended {s : State} {q : Fin 16} {j : Job} (hj : s.job q = some j) (hphase : j.phase = .ended) :
    s.reachEnd q = s := by
  rw [State.reachEnd, hj]
  dsimp only
  rw [hphase]
  rfl

/-- What the end of a job does, by the epoch under which its completion waits, if it does. -/
theorem exec_jobEnd_go {q : Fin 16} {j : Job} {s : State} (hs : s.serving = true) (hj : s.job q = some j)
    (hphase : j.phase = .ended) (hdoom : j.doomed = false) (htables : s.tablesHeld j = false) :
    exec (.jobEnd q) s = .next (match j.endTag with
      | none => if (s.ctx j.ctx).room then s.complete q j else s.modJob q fun k => { k with endTag := (s.ctx j.ctx).newest }
      | some e =>
        match (s.ctx j.ctx).verdict e with
        | .isOpen => if (s.ctx j.ctx).room then s.completeUnder q j (some e) else s
        | .committed => s.completeUnder q j none
        | .discarded => (s.countEnd q j (s.formRec q j)).modCtx j.ctx fun x => { x with dropped := x.dropped + 1 }) := by
  change execJobEnd q s = _
  rw [execJobEnd, hs, State.when_true, State.jobEnd, State.reachEnd_of_ended hj hphase, hj]
  dsimp only
  rw [hphase, hdoom, htables]
  rfl

/-- Whether the closure buffer takes another entry. -/
theorem Ctx.room_iff {x : Ctx} : x.room = true ↔ x.epochs = [] ∨ x.held.length < 64 := by
  simp [Ctx.room]

/-- The verdict on an open epoch. -/
theorem Ctx.verdict_isOpen {x : Ctx} {e : BitVec 16} (h : e ∈ x.epochs) : x.verdict e = .isOpen :=
  if_pos (List.contains_iff_mem.mpr h)

/-- The verdict on a closed one, as it closed. -/
theorem Ctx.verdict_closed {x : Ctx} {e : BitVec 16} {committed : Bool} (h : e ∉ x.epochs)
    (hclosed : x.closed.find? (fun p => p.1 == e) = some (e, committed)) :
    x.verdict e = if committed then .committed else .discarded := by
  rw [Ctx.verdict, if_neg (mt List.contains_iff_mem.mp h), hclosed]
  cases committed <;> rfl

/-! ## Records (R66 to R68) -/

theorem Rec.length_bytes (r : Rec) (p : Bool) : (r.bytes p).length = 32 := by simp [Rec.bytes, zeros]

/-- A word reads back from enough bytes. -/
theorem fromBytes_toBytes_of_le {w n : Nat} (x : BitVec w) (h : 2 ^ w ≤ 256 ^ n) : fromBytes (toBytes x n) = x.toNat := by
  rw [fromBytes_toBytes, Nat.mod_eq_of_lt (lt_of_lt_of_le x.isLt h)]

/-- The fields of a record in its bytes. -/
theorem Rec.leAt_bytes (r : Rec) (p : Bool) :
    leAt (r.bytes p) 0 2 = r.status.toNat ∧ leAt (r.bytes p) 2 2 = r.tag.toNat ∧
    leAt (r.bytes p) 4 1 = r.gen.toNat ∧ leAt (r.bytes p) 5 1 = r.ctx.val + 16 * r.queue.val ∧
    leAt (r.bytes p) 6 1 = (if p then 1 else 0) ∧ leAt (r.bytes p) 7 1 = 0 ∧ leAt (r.bytes p) 8 4 = r.cycles.toNat ∧
    leAt (r.bytes p) 12 4 = r.detail.toNat ∧ leAt (r.bytes p) 16 4 = r.crc.toNat ∧ leAt (r.bytes p) 20 8 = r.time.toNat ∧
    leAt (r.bytes p) 28 4 = 0 :=
  ⟨fromBytes_toBytes_of_le r.status (n := 2) (by decide), fromBytes_toBytes_of_le r.tag (n := 2) (by decide), rfl,
    toNat_ofNat_byte (by omega), by cases p <;> rfl, rfl, fromBytes_toBytes_of_le r.cycles (n := 4) (by decide),
    fromBytes_toBytes_of_le r.detail (n := 4) (by decide), fromBytes_toBytes_of_le r.crc (n := 4) (by decide),
    fromBytes_toBytes_of_le r.time (n := 8) (by decide), rfl⟩

/-- A record that finds room is written, and one that does not is held. -/
theorem State.deliver_eq (s : State) (q : Fin 16) (r : Rec) : s.deliver q r =
    if (s.queue q).hold = [] ∧ (s.queue q).used + 1 < ringSize (s.queue q).cfg.active.cqLog2 ∧ s.main.pwr.d3hot = false
    then s.writeRec q r else s.modQueue q fun x => { x with hold := x.hold ++ [r] } := by
  have hcond : ((s.queue q).hold.isEmpty && (s.queue q).room && !s.main.pwr.d3hot) = true ↔
      (s.queue q).hold = [] ∧ (s.queue q).used + 1 < ringSize (s.queue q).cfg.active.cqLog2 ∧ s.main.pwr.d3hot = false := by
    simp [Queue.room, and_assoc]
  unfold State.deliver
  dsimp only
  exact if_congr hcond rfl rfl

/-- Settles O30: the epoch under which a completion falls, and room in the ring, decide. -/
theorem jobsCompleteAndRecords : Obligations.JobsCompleteAndRecords := by
  constructor
  · intro q j s hs hj hphase hdoom htables r left sent heldBy room
    rw [exec_jobEnd_go hs hj hphase hdoom htables]
    refine ⟨fun htag => ?_, fun e htag => ?_⟩
    · rw [htag]
      refine ⟨fun hnone => ?_, fun e he hroom => ?_, fun e he hfull => ?_⟩
      · have hnew : (s.ctx j.ctx).newest = none := by rw [Ctx.newest, hnone]; rfl
        dsimp only
        rw [if_pos (Ctx.room_iff.mpr (.inl hnone)), State.complete, hnew]
        rfl
      · dsimp only
        rw [if_pos (Ctx.room_iff.mpr hroom), State.complete, Ctx.newest, he]
        rfl
      · dsimp only
        rw [if_neg (mt Ctx.room_iff.mp hfull), Ctx.newest, he]
    · rw [htag]
      dsimp only
      refine ⟨fun hopen hroom => ?_, fun hopen hfull => ?_, fun hclosed hverdict => ?_, fun hclosed hverdict => ?_⟩
      · rw [Ctx.verdict_isOpen hopen]
        exact congrArg _ (if_pos (Ctx.room_iff.mpr hroom))
      · rw [Ctx.verdict_isOpen hopen]
        exact congrArg _ (if_neg (mt Ctx.room_iff.mp hfull))
      · rw [Ctx.verdict_closed hclosed hverdict]
        rfl
      · rw [Ctx.verdict_closed hclosed hverdict]
        rfl
  · intro q r s hs x at0 wraps
    refine ⟨fun hhold hroom hd3 hirq => ?_, fun hno => ?_, fun p => ⟨r.length_bytes p, r.leAt_bytes p⟩⟩
    · have hmem : s.hostMem.wf = true := (s.memWf_iff.mp hs).2.1
      have hwrite : s.deliver q r = s.writeRec q r := by rw [State.deliver_eq, if_pos ⟨hhold, hroom, hd3⟩]
      have hu : (s.writeRec q r).hostMem = s.hostMem.writeBytes at0 (r.bytes x.phase) := by
        rw [State.writeRec, hirq]
        rfl
      refine ⟨_, hwrite, ?_, fun a ha => ?_, ?_⟩
      · rw [hu, ← r.length_bytes x.phase]
        exact Memory.readBytes_writeBytes hmem _ _
      · rw [hu]
        exact Memory.read_writeBytes_out hmem (by rw [r.length_bytes]; exact ha)
      · rw [State.writeRec, hirq]
        rfl
    · rw [State.deliver_eq, if_neg]
      rintro ⟨hhold, hroom, hd3⟩
      obtain h | h | h := hno
      · exact h hhold
      · exact absurd hroom (Nat.not_lt.mpr h)
      · rw [hd3] at h
        cases h

end Sys2Proof.Machine

namespace Sys2Proof.Machine

/-! ## What a beat of the traverse engine depends on (R88, R244) -/

/-- Two states agree on what makes a beat ready: the channels, the parcel tables in force, and what responds. -/
structure SameBeats (s t : State) : Prop where
  otp : t.otp = s.otp
  glb : t.main.glb = s.main.glb
  split : t.main.shm.split = s.main.shm.split
  chans : t.main.chans = s.main.chans
  tables : ∀ c, (t.ctx c).table = (s.ctx c).table

section
variable {s t : State} (h : SameBeats s t)
include h

theorem SameBeats.chan_eq (ch : Fin 16) : t.chan ch = s.chan ch := by
  unfold State.chan
  rw [h.chans]

theorem SameBeats.parcelCheck_eq (p : Parcel) (n : Fin 24) (own : Bool) (k : Access) (first last : Nat) :
    t.parcelCheck p n own k first last = s.parcelCheck p n own k first last := by
  unfold State.parcelCheck State.present
  rw [h.otp, h.split]

theorem SameBeats.operandBound_eq (ch : Fin 16) (st : Nat) (v : BitVec 48) (k : Access) (first last : Nat) :
    t.operandBound ch st v k first last = s.operandBound ch st v k first last := by
  unfold State.operandBound State.ownerParcel
  rw [h.chan_eq, h.tables]
  simp only [h.parcelCheck_eq]

theorem SameBeats.elemBad_eq (ch : Fin 16) (a : Active) (u : Nat) : t.elemBad ch a u = s.elemBad ch a u := by
  unfold State.elemBad
  rw [h.chan_eq]
  simp only [h.operandBound_eq]

theorem SameBeats.readReady_eq (ch : Fin 16) : t.readReady ch = s.readReady ch := by
  unfold State.readReady
  rw [h.chan_eq]
  simp only [h.elemBad_eq]

theorem SameBeats.place_eq (a n : Nat) : t.place a n = s.place a n := by
  unfold State.place State.present State.shmPresent
  rw [h.otp, h.glb]

theorem SameBeats.writeReady_eq (ch : Fin 16) : t.writeReady ch = s.writeReady ch := by
  unfold State.writeReady State.responds
  rw [h.chan_eq]
  simp only [h.place_eq]

end

/-! ## Fabric clocks without a beat (R244) -/

/-- No channel has a beat ready. -/
def State.beatless (s : State) : Prop := ∀ ch, s.readReady ch = false ∧ s.writeReady ch = false

/-- The sides of the engine after a clock without a beat: each ends its hold. -/
def State.endHolds (s : State) : State :=
  s.modMain fun m => { m with rdSide := { m.rdSide with run := 16 }, wrSide := { m.wrSide with run := 16 } }

theorem Side.pick_nil (sd : Side) (prio : ChanNo → BitVec 2) : sd.pick prio [] = none := by
  unfold Side.pick
  dsimp only
  split
  · rfl
  · rfl

theorem State.fabricTick_of_beatless {s : State} (h : s.beatless) : s.fabricTick = s.endHolds := by
  have hread : (List.finRange 16).filter s.readReady = [] := List.filter_eq_nil_iff.mpr fun ch _ => by simp [(h ch).1]
  have hwrite : (List.finRange 16).filter s.writeReady = [] := List.filter_eq_nil_iff.mpr fun ch _ => by simp [(h ch).2]
  have hclock : s.fabricClock = none := by
    unfold State.fabricClock
    dsimp only
    rw [hread, hwrite, Side.pick_nil, Side.pick_nil]
    rfl
  rw [State.fabricTick, hclock]
  rfl

theorem State.endHolds_beatless {s : State} (h : s.beatless) : s.endHolds.beatless := by
  have hsame : SameBeats s s.endHolds := ⟨rfl, rfl, rfl, rfl, fun _ => rfl⟩
  exact fun ch => by rw [hsame.readReady_eq, hsame.writeReady_eq]; exact h ch

theorem State.fabricTicks_of_beatless {s : State} (h : s.beatless) : s.fabricTicks = s.endHolds := by
  have twice : s.endHolds.fabricTick = s.endHolds := State.fabricTick_of_beatless (State.endHolds_beatless h)
  rw [State.fabricTicks, State.fabricTick_of_beatless h, twice, twice, twice, twice, twice]

/-! ## The banks (R79, R82) -/

/-- The clocks of the banks change a station's ports and the counters of its banks only. -/
theorem Station.bankClocks_eq (t : Station) (trv : Bool) (k : Nat) (want : Nat → Fin 5 → Option (BitVec 19)) :
    t.bankClocks trv k want =
      { t with ports := (t.bankClocks trv k want).ports, conflicts := (t.bankClocks trv k want).conflicts } := by
  have hfold : ∀ (l : List Nat) (t : Station), l.foldl (fun t i => t.bankClock trv (want i)) t =
      { t with ports := (l.foldl (fun t i => t.bankClock trv (want i)) t).ports,
               conflicts := (l.foldl (fun t i => t.bankClock trv (want i)) t).conflicts } := by
    intro l
    induction l with
    | nil => exact fun t => rfl
    | cons i l ih =>
      intro t
      rw [List.foldl_cons, ih]
      rfl
  unfold Station.bankClocks
  split
  · exact hfold _ t
  · rfl

/-- The clocks of the banks of shared memory within one peripheral clock. -/
def Shm.bankClocks (m : Shm) (active : Fin 29 → Bool) (want : Nat → Fin 29 → Option (BitVec 28)) (l : List Nat) : Shm :=
  l.foldl (fun m i => m.bankClock active (want i)) m

/-- A clock of the banks leaves the mode and the memory. -/
theorem Shm.bankClock_other (m : Shm) (active : Fin 29 → Bool) (want : Fin 29 → Option (BitVec 28)) :
    (m.bankClock active want).split = m.split ∧ (m.bankClock active want).modeBusy = m.modeBusy ∧
    (m.bankClock active want).mem = m.mem := by
  unfold Shm.bankClock
  exact ⟨rfl, rfl, rfl⟩

theorem Shm.bankClocks_cons (m : Shm) (active : Fin 29 → Bool) (want : Nat → Fin 29 → Option (BitVec 28)) (i : Nat)
    (l : List Nat) : m.bankClocks active want (i :: l) = (m.bankClock active (want i)).bankClocks active want l := by
  rw [Shm.bankClocks, List.foldl_cons, Shm.bankClocks]

theorem Shm.bankClocks_other (m : Shm) (active : Fin 29 → Bool) (want : Nat → Fin 29 → Option (BitVec 28)) (l : List Nat) :
    (m.bankClocks active want l).split = m.split ∧ (m.bankClocks active want l).modeBusy = m.modeBusy ∧
    (m.bankClocks active want l).mem = m.mem := by
  induction l generalizing m with
  | nil => simp only [Shm.bankClocks, List.foldl_nil, and_self]
  | cons i l ih =>
    obtain ⟨hsplit, hbusy, hmem⟩ := ih (m.bankClock active (want i))
    obtain ⟨hsplit', hbusy', hmem'⟩ := m.bankClock_other active (want i)
    rw [Shm.bankClocks_cons]
    exact ⟨hsplit.trans hsplit', hbusy.trans hbusy', hmem.trans hmem'⟩

/-- The banks' clocks change what waits there, the rotation and the counters only. -/
theorem Shm.bankClocks_eq (m : Shm) (active : Fin 29 → Bool) (want : Nat → Fin 29 → Option (BitVec 28)) (l : List Nat) :
    m.bankClocks active want l =
      { m with waits := (m.bankClocks active want l).waits, granted := (m.bankClocks active want l).granted,
               conflicts := (m.bankClocks active want l).conflicts } := by
  obtain ⟨hsplit, hbusy, hmem⟩ := m.bankClocks_other active want l
  rw [← hsplit, ← hbusy, ← hmem]

theorem State.shmBanks_eq (s : State) : ∃ waits granted conflicts, s.shmBanks = s.modShm fun m =>
    { m with waits := waits, granted := granted, conflicts := conflicts } := by
  unfold State.shmBanks State.when
  split
  case isTrue =>
    refine ⟨_, _, _, congrArg (fun m => State.modShm s fun _ => m) (Shm.bankClocks_eq s.main.shm s.shmActive
      (fun i r => Config.shmRequest s.stamp s.main.time.toNat i r.val) (List.range 6))⟩
  case isFalse => exact ⟨s.main.shm.waits, s.main.shm.granted, s.main.shm.conflicts, rfl⟩

/-! ## A LIN header (R334) -/

/-- A clock of a header changes the state and the clocks of the frame only. -/
theorem Lin.headerClock_eq (l : Lin) (c : SerCfg) (moves : Bool) : l.headerClock c moves =
    { l with state := (l.headerClock c moves).state, clocks := (l.headerClock c moves).clocks } := by
  unfold Lin.headerClock
  dsimp only
  split
  · rfl
  · split
    · rfl
    · split <;> rfl

/-- Outside a header it changes nothing. -/
theorem Lin.headerClock_outside {l : Lin} (h : l.state = 0 ∨ l.state = 5 ∨ l.state = 6) (c : SerCfg) (moves : Bool) :
    l.headerClock c moves = l := by
  unfold Lin.headerClock
  obtain h | h | h := h
  all_goals
    rw [h]
    rfl

/-! ## One peripheral clock (R27, R28, R292) -/

/-- The time of one peripheral clock passes, and a LIN header goes on. -/
def State.headerTick (s : State) : State :=
  let s := s.modMain fun m => { m with time := m.time + 1 }
  s.when (s.stationsOn && s.lin.linEn && s.main.lin.inFrame) fun s =>
    s.modLin fun l => l.headerClock s.lin (Config.headerMoves s.stamp s.time.toNat)

/-- The station clocks of one peripheral clock pass in Run. -/
def State.runTick (s : State) : State :=
  s.when (s.serving && s.main.pwr.state == .run) fun v =>
    (v.modMain fun m => m.stationClocks (clocksPerTick s.main.pwr.effDiv)).stationBanks (clocksPerTick s.main.pwr.effDiv)

theorem State.clockTick_of_running {s : State} (h : s.running = true) : s.clockTick =
    s.headerTick.runTick.when (s.headerTick.runTick.serving && s.headerTick.runTick.main.pwr.state != .hold) fun s =>
      s.fabricTicks.shmBanks := by
  rw [State.clockTick, h]
  rfl

theorem State.headerTick_eq (s : State) : ∃ l : Lin,
    s.headerTick = { s with main := { s.main with time := s.main.time + 1, lin := l } } ∧
    l = { s.main.lin with state := l.state, clocks := l.clocks } ∧
    (s.main.lin.state = 0 ∨ s.main.lin.state = 5 ∨ s.main.lin.state = 6 → l = s.main.lin) := by
  unfold State.headerTick State.when
  dsimp only
  split
  case isTrue => exact ⟨_, rfl, Lin.headerClock_eq _ _ _, fun h => Lin.headerClock_outside h _ _⟩
  case isFalse => exact ⟨_, rfl, rfl, fun _ => rfl⟩

/-- A station after its clocks within one peripheral clock, and those of its banks. -/
def Station.tick (t : Station) (trv : Bool) (k : Nat) (want : Nat → Fin 5 → Option (BitVec 19)) : Station :=
  (t.clocks k).bankClocks trv k want

theorem Station.clocks_eq (t : Station) (k : Nat) : t.clocks k =
    let plus := fun (c : Bool) (x : BitVec 64) => if c && t.running then x + BitVec.ofNat 64 k else x
    { t with busy := plus true t.busy, syncWait := plus (t.markWait.isSome || t.barWait.isSome) t.syncWait,
             regWait := plus (t.stalls.contains .reg) t.regWait, sbWait := plus (t.stalls.contains .overlap) t.sbWait,
             sbFull := plus (t.stalls.contains .entries) t.sbFull, queueFull := plus (t.stalls.contains .queue) t.queueFull } := by
  unfold Station.clocks countIf
  cases hrun : t.running with
  | false =>
    cases t
    cases hrun
    simp
  | true =>
    cases t
    cases hrun
    simp

/-- What a tick changes of a station. -/
theorem Station.tick_eq (t : Station) (trv : Bool) (k : Nat) (want : Nat → Fin 5 → Option (BitVec 19)) :
    let u := t.tick trv k want
    let plus := fun (c : Bool) (x : BitVec 64) => if c && t.running then x + BitVec.ofNat 64 k else x
    u = { t with busy := plus true t.busy, syncWait := plus (t.markWait.isSome || t.barWait.isSome) t.syncWait,
                 regWait := plus (t.stalls.contains .reg) t.regWait, sbWait := plus (t.stalls.contains .overlap) t.sbWait,
                 sbFull := plus (t.stalls.contains .entries) t.sbFull, queueFull := plus (t.stalls.contains .queue) t.queueFull,
                 ports := u.ports, conflicts := u.conflicts } ∧
    (t.contends trv = false → u.ports = t.ports ∧ u.conflicts = t.conflicts) := by
  dsimp only
  refine ⟨?_, fun hcontends => ?_⟩
  · unfold Station.tick
    rw [Station.bankClocks_eq, Station.clocks_eq]
  · have hsame : (t.clocks k).contends trv = t.contends trv := by
      rw [Station.clocks_eq]
      rfl
    unfold Station.tick Station.bankClocks
    rw [hsame, hcontends, Station.clocks_eq]
    exact ⟨rfl, rfl⟩

theorem State.stationBanks_station (s : State) (k : Nat) (n : Fin 24) : (s.stationBanks k).main.stations[n] =
    (s.station n).bankClocks ((List.finRange 16).any fun ch => (s.chan ch).state == .running) k
      fun i e => Config.portRequest s.stamp s.main.time.toNat i n.val e.val := Vector.getElem_ofFn _

theorem State.stationClocks_station (s : State) (k : Nat) (n : Fin 24) :
    (s.modMain fun m => m.stationClocks k).station n = (s.station n).clocks k := Vector.getElem_ofFn _

/-- What the station clocks change. -/
theorem State.runTick_eq (s : State) : ∃ (stations : Vector Station 24) (queues : Vector Queue 16) (ctxs : Vector Ctx 8),
    s.runTick = (s.modMain fun m => { m with stations := stations, queues := queues, ctxs := ctxs }) ∧
    (∀ c : Fin 8, (ctxs[c]).table = (s.ctx c).table) ∧
    (s.main.pwr.state ≠ .run → stations = s.main.stations ∧ queues = s.main.queues ∧ ctxs = s.main.ctxs) ∧
    (s.serving = true → s.main.pwr.state = .run →
      (∀ c : Fin 8, ctxs[c] = { s.ctx c with
        cbFull := (s.ctx c).cbFull + BitVec.ofNat 64 (clocksPerTick s.main.pwr.effDiv * s.main.closureWaits c) }) ∧
      ∃ want : Fin 24 → Nat → Fin 5 → Option (BitVec 19), ∀ n : Fin 24, stations[n] =
        (s.station n).tick ((List.finRange 16).any fun ch => (s.chan ch).state == .running) (clocksPerTick s.main.pwr.effDiv)
          (want n)) := by
  cases hrun : s.serving && s.main.pwr.state == .run with
  | false =>
    have hstay : s.runTick = s := by
      rw [State.runTick, hrun]
      rfl
    refine ⟨s.main.stations, s.main.queues, s.main.ctxs, by rw [hstay]; rfl, fun _ => rfl, fun _ => ⟨rfl, rfl, rfl⟩,
      fun hs hr => ?_⟩
    rw [hs, hr] at hrun
    cases hrun
  | true =>
    rw [Bool.and_eq_true, beq_iff_eq] at hrun
    have hgo : s.runTick = (s.modMain fun m => m.stationClocks (clocksPerTick s.main.pwr.effDiv)).stationBanks
        (clocksPerTick s.main.pwr.effDiv) := by
      rw [State.runTick, hrun.1, hrun.2]
      rfl
    have hctx : ∀ c : Fin 8, s.runTick.main.ctxs[c] = { s.ctx c with
        cbFull := (s.ctx c).cbFull + BitVec.ofNat 64 (clocksPerTick s.main.pwr.effDiv * s.main.closureWaits c) } := by
      intro c
      rw [hgo]
      exact Vector.getElem_ofFn _
    refine ⟨s.runTick.main.stations, s.runTick.main.queues, s.runTick.main.ctxs, by rw [hgo]; rfl,
      fun c => by rw [hctx], fun hne => absurd hrun.2 hne, fun _ _ => ⟨hctx,
        fun n i e => Config.portRequest s.stamp s.main.time.toNat i n.val e.val, fun n => ?_⟩⟩
    rw [hgo, State.stationBanks_station, State.stationClocks_station]
    rfl

/-- The state after one peripheral clock outside boot and Hold, where no channel has a beat ready. -/
theorem State.clockTick_serving {s : State} (hs : s.serving = true) (hh : s.main.pwr.state ≠ .hold) (hbeat : s.beatless) :
    ∃ (l : Lin) (stations : Vector Station 24) (queues : Vector Queue 16) (ctxs : Vector Ctx 8)
      (waits : Vector (Option (BitVec 28)) 29) (granted : Vector (Fin 29) 64) (conflicts : Vector (BitVec 64) 64),
    s.clockTick = { s with main := { s.main with
      time := s.main.time + 1, stations := stations, queues := queues, ctxs := ctxs, lin := l,
      shm := { s.main.shm with waits := waits, granted := granted, conflicts := conflicts },
      rdSide := { s.main.rdSide with run := 16 }, wrSide := { s.main.wrSide with run := 16 } } } ∧
    l = { s.main.lin with state := l.state, clocks := l.clocks } ∧
    (s.main.lin.state = 0 ∨ s.main.lin.state = 5 ∨ s.main.lin.state = 6 → l = s.main.lin) ∧
    (s.main.pwr.state ≠ .run → stations = s.main.stations ∧ queues = s.main.queues ∧ ctxs = s.main.ctxs) ∧
    (s.main.pwr.state = .run →
      (∀ c : Fin 8, ctxs[c] = { s.ctx c with
        cbFull := (s.ctx c).cbFull + BitVec.ofNat 64 (clocksPerTick s.main.pwr.effDiv * s.main.closureWaits c) }) ∧
      ∃ want : Fin 24 → Nat → Fin 5 → Option (BitVec 19), ∀ n : Fin 24, stations[n] =
        (s.station n).tick ((List.finRange 16).any fun ch => (s.chan ch).state == .running) (clocksPerTick s.main.pwr.effDiv)
          (want n)) := by
  obtain ⟨l, hheader, hl, hstay⟩ := s.headerTick_eq
  obtain ⟨stations, queues, ctxs, hrun, htable, hgated, hgo⟩ := s.headerTick.runTick_eq
  have hbeat' : s.headerTick.runTick.beatless := by
    have hsame : SameBeats s s.headerTick.runTick := by
      rw [hrun, hheader]
      rw [hheader] at htable
      exact ⟨rfl, rfl, rfl, rfl, htable⟩
    exact fun ch => by rw [hsame.readReady_eq, hsame.writeReady_eq]; exact hbeat ch
  obtain ⟨waits, granted, conflicts, hshm⟩ := s.headerTick.runTick.endHolds.shmBanks_eq
  refine ⟨l, stations, queues, ctxs, waits, granted, conflicts, ?_, hl, hstay, ?_, ?_⟩
  · have hon : (s.headerTick.runTick.serving && s.headerTick.runTick.main.pwr.state != .hold) = true := by
      rw [hrun, hheader]
      exact State.stationsOn_of hs hh
    rw [State.clockTick_of_running (State.running_of_serving hs), hon, State.when_true,
      State.fabricTicks_of_beatless hbeat', hshm, hrun, hheader]
    rfl
  · rw [hheader] at hgated
    exact hgated
  · rw [hheader] at hgo
    exact hgo hs

/-- In boot and in Hold TCK_TIME alone counts. -/
theorem State.clockTick_gated {s : State} (hrun : s.running = true) (h : s.serving = false ∨ s.main.pwr.state = .hold) :
    s.clockTick = s.modMain fun m => { m with time := m.time + 1 } := by
  have hoff : s.stationsOn = false := by
    obtain h | h := h
    · rw [State.stationsOn, h]
      rfl
    · rw [State.stationsOn, h]
      exact Bool.and_false _
  have hgate : (s.serving && s.main.pwr.state == .run) = false := by
    obtain h | h := h
    · rw [h]
      rfl
    · rw [h]
      exact Bool.and_false _
  have hheader : s.headerTick = s.modMain fun m => { m with time := m.time + 1 } := by
    have hcond : ((s.modMain fun m => { m with time := m.time + 1 }).stationsOn &&
        (s.modMain fun m => { m with time := m.time + 1 }).lin.linEn && s.main.lin.inFrame) = false := by
      change (s.stationsOn && s.lin.linEn && s.main.lin.inFrame) = false
      rw [hoff]
      rfl
    exact if_neg (by rw [Bool.not_eq_true]; exact hcond)
  have hclocks : s.headerTick.runTick = s.modMain fun m => { m with time := m.time + 1 } := by
    rw [hheader]
    exact if_neg (by rw [Bool.not_eq_true]; exact hgate)
  rw [State.clockTick_of_running hrun, hclocks]
  exact if_neg (by rw [Bool.not_eq_true]; exact hoff)

/-- Station clocks in one peripheral clock, by the divider (R28). -/
theorem clocksPerTick_row {row : BitVec 2 × BitVec 64} {div : BitVec 2}
    (hrow : row ∈ [((0 : BitVec 2), (12 : BitVec 64)), (1, 8), (2, 6), (3, 3)]) (hdiv : div = row.1) :
    row.2 = BitVec.ofNat 64 (clocksPerTick div) := by
  simp only [List.mem_cons, List.not_mem_nil, or_false] at hrow
  subst hdiv
  obtain rfl | rfl | rfl | rfl := hrow
  · rfl
  · rfl
  · rfl
  · rfl

/-- Settles O34: what the clock does by itself, part by part. -/
theorem idleStepIsOneClock : Obligations.IdleStepIsOneClock := by
  intro s hpend
  have hstep : step s = .next s.clockTick := by
    rw [step, hpend]
  rw [hstep]
  refine ⟨fun hrun => ?_, fun hrun hgated => ?_, fun hs hh hbeat => ?_⟩
  · rw [State.clockTick, hrun]
    rfl
  · exact congrArg _ (State.clockTick_gated hrun hgated)
  · obtain ⟨l, stations, queues, ctxs, waits, granted, conflicts, hu, hl, hstay, hgated, hgo⟩ :=
      State.clockTick_serving hs hh hbeat
    refine ⟨s.clockTick, rfl, ?_, ?_, ?_, ?_, ?_⟩
    · rw [hu]
    · rw [hu]
      exact hl
    · rw [hu]
      exact hstay
    · rw [hu]
      exact hgated
    · intro hr row hrow hdiv
      obtain ⟨hctx, want, hstation⟩ := hgo hr
      have hclocks : row.2 = BitVec.ofNat 64 (clocksPerTick s.main.pwr.effDiv) := clocksPerTick_row hrow hdiv
      have hstation' : ∀ n : Fin 24, s.clockTick.station n =
          (s.station n).tick ((List.finRange 16).any fun ch => (s.chan ch).state == .running)
            (clocksPerTick s.main.pwr.effDiv) (want n) := by
        intro n
        rw [hu]
        exact hstation n
      refine ⟨fun c => ?_, fun n => ?_⟩
      · rw [hclocks, ← BitVec.ofNat_mul, hu]
        exact hctx c
      · rw [hclocks, hstation']
        exact Station.tick_eq _ _ _ _

end Sys2Proof.Machine

/-!
## What the traffic of the link leaves alone

A message that is queued, a flit that is sent, a port that falls and a context reset that starts change queues of the link,
interrupts and the ring of the field book. `LinkView` is what they all leave as it is.
-/

namespace Sys2Proof.Machine

/-- The parts of the machine that the link's own traffic does not touch. -/
structure LinkView where
  pwr : Power
  padHeld : Bool
  padFault : Bool
  marks : Vector (BitVec 64) 64
  shm : Shm
  nv : Vector (Vector ArrayNv 32) 24
  stations : Vector Station 24
  chans : Vector Chan 16
  portStates : Fin 2 → BitVec 2

/-- What the link's traffic leaves alone, of one state. -/
def State.linkView (s : State) : LinkView :=
  { pwr := s.main.pwr, padHeld := s.aon.padHeld, padFault := s.aon.padFault, marks := s.main.marks, shm := s.main.shm, nv := s.nv,
    stations := s.main.stations, chans := s.main.chans, portStates := fun k => (s.port k).state }

theorem State.modPort_linkView (s : State) (p : Fin 2) {f : Port → Port} (h : (f (s.port p)).state = (s.port p).state) :
    (s.modPort p f).linkView = s.linkView := by
  have hports : (fun k => ((s.modPort p f).port k).state) = fun k => (s.port k).state := by
    funext k
    change (upd s.main.link.ports p f)[k].state = _
    by_cases hk : k = p
    · rw [hk, upd_get_same]
      exact h
    · rw [upd_get_ne _ _ (Ne.symm hk)]
  exact congrArg (fun v => { s.linkView with portStates := v }) hports

theorem State.raise_linkView (s : State) (v : Fin 64) : (s.raise v).linkView = s.linkView := by
  unfold State.raise
  dsimp only
  split
  · rfl
  · rfl

theorem State.raiseIf_linkView (s : State) (c : Bool) (v : Fin 64) : (s.raiseIf c v).linkView = s.linkView := by
  unfold State.raiseIf
  split
  · exact s.raise_linkView v
  · rfl

theorem State.linkEvent_linkView (s : State) (bits : BitVec 5) : (s.linkEvent bits).linkView = s.linkView :=
  State.raiseIf_linkView _ _ _

theorem State.fbEntry_linkView (s : State) (source code : Nat) (data : BitVec 64) :
    (s.fbEntry source code data).linkView = s.linkView := rfl

/-! ### Flits and messages -/

theorem Port.returned_state (x : Port) : x.returned.state = x.state := by
  unfold Port.returned
  dsimp only
  split
  · rfl
  · split
    · rfl
    · rfl

theorem Port.sendFlit_state (x : Port) (vc : Nat) (f : OutFlit) : (x.sendFlit vc f).state = x.state := x.returned_state

theorem Port.idleFlit_state (x : Port) (nak : Bool) : (x.idleFlit nak).state = x.state := x.returned_state

theorem Port.sendVc_state (x : Port) (vc : Nat) : (x.sendVc vc).1.state = x.state := by
  unfold Port.sendVc
  split
  · split
    · exact Port.sendFlit_state _ _ _
    · rfl
  · split
    · exact Port.sendFlit_state _ _ _
    · rfl
  · split
    · exact Port.sendFlit_state _ _ _
    · rfl

theorem Port.freeSlots_state (x : Port) (vc n : Nat) : (x.freeSlots vc n).state = x.state := by
  unfold Port.freeSlots
  split
  · rfl
  · rfl
  · rfl

theorem Port.enqueue_state (x : Port) (vc : Nat) (m : OutMsg) : (x.enqueue vc m).state = x.state := by
  unfold Port.enqueue
  split
  · rfl
  · rfl
  · rfl

theorem Port.creditFlits_state (n : Nat) (x : Port) : (Port.creditFlits n x).state = x.state := by
  induction n generalizing x with
  | zero => rfl
  | succ n ih =>
    unfold Port.creditFlits
    split
    · rfl
    · rw [ih]
      exact x.idleFlit_state false

theorem Port.returnIdle_state (x : Port) : x.returnIdle.state = x.state := by
  unfold Port.returnIdle
  split
  · exact Port.creditFlits_state _ _
  · rfl

theorem State.pumpPort_linkView (n : Nat) (s : State) (p : Fin 2) : (State.pumpPort n s p).linkView = s.linkView := by
  induction n generalizing s with
  | zero => rfl
  | succ n ih =>
    rw [State.pumpPort]
    dsimp only
    split
    · rfl
    · split
      · rfl
      · rename_i vc _
        have hsent := s.modPort_linkView p (f := fun _ => ((s.port p).sendVc vc).1) (Port.sendVc_state _ _)
        rw [ih]
        split
        · rw [State.modPort_linkView _ _ (Port.freeSlots_state _ _ _), hsent]
        · exact hsent

theorem State.pumpAll_linkView (s : State) (p : Fin 2) : (s.pumpAll p).linkView = s.linkView := by
  unfold State.pumpAll
  rw [State.modPort_linkView _ _ (Port.returnIdle_state _), State.modPort_linkView _ _ (Port.returnIdle_state _),
    State.pumpPort_linkView]

theorem State.queueMsg_linkView (s : State) (p : Fin 2) (m : Msg) : (s.queueMsg p m).linkView = s.linkView := by
  unfold State.queueMsg
  rw [State.pumpAll_linkView, State.modPort_linkView _ _ (Port.enqueue_state _ _ _)]

theorem State.sendOn_linkView (s : State) (p : Fin 2) (m : Msg) : (s.sendOn p m).linkView = s.linkView := by
  unfold State.sendOn
  split
  · exact s.queueMsg_linkView p m
  · rfl

theorem State.sendMsg_linkView (s : State) (m : Msg) : (s.sendMsg m).linkView = s.linkView := by
  unfold State.sendMsg
  split
  · exact s.sendOn_linkView _ m
  · rfl

/-- A view is the same after a list of operations that each keep it. -/
theorem foldl_view {α β : Type} (view : State → β) {f : State → α → State} (h : ∀ s a, view (f s a) = view s) (l : List α) (s : State) :
    view (l.foldl f s) = view s := by
  induction l generalizing s with
  | nil => rfl
  | cons a l ih => rw [List.foldl_cons, ih, h]

theorem State.sendAbort_linkView (s : State) (job : BitVec 12) (ports : List (Fin 2)) :
    (s.sendAbort job ports).linkView = s.linkView := by
  unfold State.sendAbort
  dsimp only
  rw [foldl_view State.linkView (fun s p => State.sendOn_linkView s p _)]
  split
  · rfl
  · rfl

/-! ### Context resets that a port's fall starts -/

theorem State.doomJobs_linkView (s : State) (c : Fin 8) : (s.doomJobs c).linkView = s.linkView := by
  unfold State.doomJobs
  dsimp only
  rw [foldl_view State.linkView]
  · rfl
  · intro s p
    rfl

theorem State.modCtx_linkView (s : State) (c : Fin 8) (f : Ctx → Ctx) : (s.modCtx c f).linkView = s.linkView := rfl

theorem State.resetOrder_linkView (s : State) (f : Main → List (Fin 8)) :
    (s.modMain fun m => { m with resetOrder := f m }).linkView = s.linkView := rfl

theorem State.triggerReset_linkView (s : State) (c : Fin 8) (cause : BitVec 3) : (s.triggerReset c cause).linkView = s.linkView := by
  unfold State.triggerReset
  dsimp only
  split
  · rfl
  · refine (State.resetOrder_linkView _ fun m => m.resetOrder ++ [c]).trans ?_
    rw [State.modCtx_linkView, State.doomJobs_linkView]

theorem State.cutFrom_linkView (s : State) (p : Fin 2) : (s.cutFrom p).linkView = s.linkView :=
  s.modPort_linkView _ rfl

/-- A port that falls is down, and nothing else of the view changes (R258, R270). -/
theorem State.portDown_linkView (s : State) (p : Fin 2) (cause : BitVec 3) :
    (s.portDown p cause).linkView =
      { s.linkView with portStates := fun k => if k = p then 0 else (s.port k).state } := by
  have hdown : ∀ f : Port → Port, (f (s.port p)).state = 0 →
      (s.modPort p f).linkView = { s.linkView with portStates := fun k => if k = p then 0 else (s.port k).state } := by
    intro f hf
    refine congrArg (fun v => { s.linkView with portStates := v }) (funext fun k => ?_)
    change (upd s.main.link.ports p f)[k].state = _
    by_cases hk : k = p
    · rw [hk, upd_get_same, if_pos rfl]
      exact hf
    · rw [upd_get_ne _ _ (Ne.symm hk), if_neg hk]
  unfold State.portDown
  split
  · rename_i hzero
    refine congrArg (fun v => { s.linkView with portStates := v }) (funext fun k => ?_)
    by_cases hk : k = p
    · rw [hk, if_pos rfl]
      exact hzero
    · rw [if_neg hk]
  · dsimp only
    rw [foldl_view State.linkView, State.fbEntry_linkView, State.linkEvent_linkView, State.cutFrom_linkView]
    · exact hdown _ rfl
    · intro t c
      split
      · rw [State.triggerReset_linkView, State.sendAbort_linkView]
      · rfl

end Sys2Proof.Machine

/-!
## The engines do not touch the power block

Records that are written, NAND queues that fill, chains that begin, halt or send leave the registers of the power block as
they are: no effect of theirs ends a forced Hold or D3hot by itself.
-/

namespace Sys2Proof.Machine

/-- What leaves the view of the link leaves the power block. -/
theorem State.pwr_of_linkView {s t : State} (h : t.linkView = s.linkView) : t.main.pwr = s.main.pwr :=
  congrArg LinkView.pwr h

theorem State.raiseIf_pwr (s : State) (c : Bool) (v : Fin 64) : (s.raiseIf c v).main.pwr = s.main.pwr :=
  State.pwr_of_linkView (s.raiseIf_linkView c v)

theorem State.raise_pwr (s : State) (v : Fin 64) : (s.raise v).main.pwr = s.main.pwr :=
  State.pwr_of_linkView (s.raise_linkView v)

/-! ### Records -/

theorem State.writeRec_pwr (s : State) (q : Fin 16) (r : Rec) : (s.writeRec q r).main.pwr = s.main.pwr :=
  State.raiseIf_pwr _ _ _

theorem State.drainHold_pwr (n : Nat) (s : State) (q : Fin 16) : (State.drainHold n s q).main.pwr = s.main.pwr := by
  induction n generalizing s with
  | zero => rfl
  | succ n ih =>
    unfold State.drainHold
    split
    · split
      · rw [ih, State.writeRec_pwr]
        rfl
      · rfl
    · rfl

theorem State.drainHeld_pwr (s : State) (q : Fin 16) : (s.drainHeld q).main.pwr = s.main.pwr := State.drainHold_pwr _ _ _

/-! ### NAND queues -/

theorem State.endStreams_pwr (s : State) : s.endStreams.main.pwr = s.main.pwr := by
  unfold State.endStreams
  dsimp only
  rw [foldl_view (fun v : State => v.main.pwr)]
  · rfl
  · intro v t
    split
    · rfl
    · rfl

theorem State.queueOne_pwr {s t : State} {x : NandStream} (h : s.queueOne x = some t) : t.main.pwr = s.main.pwr := by
  unfold State.queueOne at h
  dsimp only at h
  split at h
  · cases h
  · split at h
    · cases h
      rfl
    · split at h
      · cases h
        rfl
      · cases h

theorem State.pumpStream_pwr (n : Nat) (s : State) (k : Nat) : (State.pumpStream n s k).main.pwr = s.main.pwr := by
  induction n generalizing s with
  | zero => rfl
  | succ n ih =>
    unfold State.pumpStream
    split
    · split
      · rename_i h
        rw [ih, State.queueOne_pwr h]
      · rfl
    · rfl

theorem State.pumpNand_pwr (s : State) : s.pumpNand.main.pwr = s.main.pwr := by
  unfold State.pumpNand
  dsimp only
  rw [State.endStreams_pwr, foldl_view (fun v : State => v.main.pwr)]
  · rfl
  · exact fun v t => State.pumpStream_pwr _ v _

/-! ### Faults of stations -/

theorem State.settle_pwr (s : State) (n : Fin 24) : (s.settle n).main.pwr = s.main.pwr := by
  unfold State.settle
  dsimp only
  split
  · rfl
  · rfl

theorem State.settleAll_pwr (s : State) : s.settleAll.main.pwr = s.main.pwr := by
  unfold State.settleAll
  exact foldl_view (fun v : State => v.main.pwr) State.settle_pwr _ s

theorem State.reportFault_pwr (s : State) (n : Fin 24) (q : Fin 16) (order : Nat) (status : BitVec 16) (detail : BitVec 32)
    (pc : BitVec 37) (instr : BitVec 64) (spec : Bool) :
    (s.reportFault n q order status detail pc instr spec).main.pwr = s.main.pwr := by
  unfold State.reportFault
  dsimp only
  split
  · rfl
  · rfl

theorem State.reportLatched_pwr (s : State) (c : Fin 8) (l : Latched) : (s.reportLatched c l).main.pwr = s.main.pwr := by
  unfold State.reportLatched
  exact s.reportFault_pwr l.station l.queue l.order l.status l.detail l.pc l.instr true

theorem State.latchFault_pwr (s : State) (c : Fin 8) (l : Latched) : (s.latchFault c l).main.pwr = s.main.pwr := by
  unfold State.latchFault
  split
  · rfl
  · exact (State.raise_pwr (s.reportLatched c l) (ctxVector c)).trans (s.reportLatched_pwr c l)
  · rfl

theorem State.stationFault_pwr (s : State) (n : Fin 24) (q : Fin 16) (order : Nat) (c : Fin 8) (tag : Option (BitVec 16))
    (status : BitVec 16) (detail : BitVec 32) (pc : BitVec 37) (instr : BitVec 64) :
    (s.stationFault n q order c tag status detail pc instr).main.pwr = s.main.pwr := by
  unfold State.stationFault
  split
  · exact State.latchFault_pwr _ _ _
  · exact State.reportFault_pwr _ _ _ _ _ _ _ _ _

theorem State.chainFault_pwr (s : State) (n : Fin 24) (q : Fin 16) (order : Nat) (c : Fin 8) (spec : Option (BitVec 16))
    (status : BitVec 16) (detail : BitVec 32) : (s.chainFault n q order c spec status detail).main.pwr = s.main.pwr := by
  unfold State.chainFault
  dsimp only
  rw [State.settleAll_pwr, State.stationFault_pwr]
  rfl

/-! ### Chains -/

theorem State.reportHalt_pwr (s : State) (ch : Fin 16) (x : Chan) (status : BitVec 16) (detail : BitVec 32) :
    (s.reportHalt ch x status detail).main.pwr = s.main.pwr := by
  unfold State.reportHalt
  split
  · exact State.raiseIf_pwr _ _ _
  · rfl
  · rw [State.chainFault_pwr]
    split
    · rfl
    · rfl

theorem State.chanHalt_pwr (s : State) (ch : Fin 16) (status : BitVec 16) (detail : BitVec 32) (addr : Option (BitVec 48)) :
    (s.chanHalt ch status detail addr).main.pwr = s.main.pwr :=
  State.reportHalt_pwr _ _ _ _ _

theorem State.chanStreams_pwr (s : State) : s.chanStreams.main.pwr = s.main.pwr := by
  unfold State.chanStreams
  rw [foldl_view (fun v : State => v.main.pwr)]
  intro v ch
  dsimp only
  split
  · rfl
  · split
    · exact State.chanHalt_pwr _ _ _ _ _
    · rfl
    · rfl

theorem State.peerFlush_pwr (s : State) (ch : Fin 16) (a : Active) (chip : Fin 8) (t : Fin 64) :
    (s.peerFlush ch a chip t).main.pwr = s.main.pwr := by
  unfold State.peerFlush
  dsimp only
  refine (State.pwr_of_linkView (State.sendMsg_linkView _ _)).trans ?_
  split
  · exact State.pwr_of_linkView (State.sendMsg_linkView _ _)
  · rfl

theorem State.sendRead_pwr (s : State) (ch : Fin 16) (chip : Fin 8) (r : TrvRead) (t : Fin 64) :
    (s.sendRead ch chip r t).main.pwr = s.main.pwr :=
  State.pwr_of_linkView (State.sendMsg_linkView _ _)

theorem State.peerRead_pwr {s t : State} {ch : Fin 16} {a : Active} {chip : Fin 8} {g : Fin 64}
    (h : s.peerRead ch a chip g = some t) : t.main.pwr = s.main.pwr := by
  unfold State.peerRead at h
  split at h
  · cases h
    exact State.sendRead_pwr _ _ _ _ _
  · split at h
    · cases h
      exact State.sendRead_pwr _ _ _ _ _
    · cases h

theorem State.peerNext_pwr {s t : State} {ch : Fin 16} (h : s.peerNext ch = some t) : t.main.pwr = s.main.pwr := by
  unfold State.peerNext at h
  dsimp only at h
  split at h
  · split at h
    · cases h
    · split at h
      · split at h
        · split at h
          · cases h
          · cases h
            exact State.peerFlush_pwr _ _ _ _ _
        · cases h
      · split at h
        · exact State.peerRead_pwr h
        · cases h
  · cases h

theorem State.peerStepN_pwr (n : Nat) (s : State) (ch : Fin 16) : (State.peerStepN n s ch).main.pwr = s.main.pwr := by
  induction n generalizing s with
  | zero => rfl
  | succ n ih =>
    unfold State.peerStepN
    split
    · rename_i h
      rw [ih, State.peerNext_pwr h]
    · rfl

theorem State.peerStep_pwr (s : State) (ch : Fin 16) : (s.peerStep ch).main.pwr = s.main.pwr := State.peerStepN_pwr _ _ _

theorem State.goDesc_pwr (s : State) (ch : Fin 16) : (s.goDesc ch).main.pwr = s.main.pwr := by
  unfold State.goDesc
  dsimp only
  split
  · rfl
  · split
    · rfl
    · split
      · rw [State.pumpNand_pwr]
        rfl
      · exact s.peerStep_pwr ch

theorem State.checkDesc_pwr (s : State) (ch : Fin 16) (d : BitVec 256) (f : Fmt) : (s.checkDesc ch d f).main.pwr = s.main.pwr := by
  unfold State.checkDesc
  dsimp only
  split
  · exact State.chanHalt_pwr _ _ _ _ _
  · split
    · exact State.chanHalt_pwr _ _ _ _ _
    · split
      · exact State.chanHalt_pwr _ _ _ _ _
      · rw [State.goDesc_pwr]
        rfl

theorem State.kickRun_pwr (s : State) (ch : Fin 16) (k : PendKick) : (s.kickRun ch k).main.pwr = s.main.pwr := by
  unfold State.kickRun
  dsimp only
  split
  · rw [State.checkDesc_pwr]
    rfl
  · split
    · rw [State.chanHalt_pwr]
      rfl
    · rfl

theorem State.copyStart_pwr (s : State) (ch q : Fin 16) : (s.copyStart ch q).main.pwr = s.main.pwr := by
  unfold State.copyStart
  split
  · rfl
  · rfl

theorem State.curEnds_pwr {s t : State} {ch : Fin 16} {a : Active} (h : s.curEnds ch a = some t) : t.main.pwr = s.main.pwr := by
  unfold State.curEnds at h
  dsimp only at h
  split at h
  · cases h
  · split at h
    · split at h
      · cases h
        exact State.chanHalt_pwr _ _ _ _ _
      · cases h
    · split at h
      · cases h
        rfl
      · split at h
        · obtain ⟨d, _, rfl⟩ := Option.map_eq_some_iff.mp h
          exact State.chanHalt_pwr _ _ _ _ _
        · cases h

theorem State.chanNext_pwr {s t : State} {ch : Fin 16} (h : s.chanNext ch = some t) : t.main.pwr = s.main.pwr := by
  unfold State.chanNext at h
  dsimp only at h
  split at h
  · split at h
    · cases h
      exact State.chanHalt_pwr _ _ _ _ _
    · split at h
      · split at h
        · cases h
        · exact State.curEnds_pwr h
      · cases h
  · split at h
    · cases h
    · cases h
      rfl
  · split at h
    · cases h
    · split at h
      · cases h
        rfl
      · split at h
        · cases h
          exact State.kickRun_pwr _ _ _
        · split at h
          · cases h
            exact State.kickRun_pwr _ _ _
          · obtain ⟨q, _, rfl⟩ := Option.map_eq_some_iff.mp h
            exact State.copyStart_pwr _ _ _
        · obtain ⟨q, _, rfl⟩ := Option.map_eq_some_iff.mp h
          exact State.copyStart_pwr _ _ _
        · cases h

theorem State.chanSettle_pwr (n : Nat) (s : State) (ch : Fin 16) : (State.chanSettle n s ch).main.pwr = s.main.pwr := by
  induction n generalizing s with
  | zero => rfl
  | succ n ih =>
    unfold State.chanSettle
    split
    · rename_i h
      rw [ih, State.chanNext_pwr h]
    · rfl

theorem State.chansSettle_pwr (s : State) : s.chansSettle.main.pwr = s.main.pwr := by
  unfold State.chansSettle
  exact foldl_view (fun v : State => v.main.pwr) (State.chanSettle_pwr 20) _ s

/-! ### The end of a forced Hold -/

theorem State.powerEvent_pwr (s : State) (bits : BitVec 5) :
    (s.powerEvent bits).main.pwr = { s.main.pwr with evt := s.main.pwr.evt ||| bits } :=
  State.raiseIf_pwr _ _ _

theorem State.cancelNotice_pwr (s : State) : s.cancelNotice.main.pwr =
    { s.main.pwr with notice := false, evt := s.main.pwr.evt ||| (if s.main.pwr.notice then 0x04 else 0) } := by
  unfold State.cancelNotice
  split
  · rw [State.powerEvent_pwr]
    rfl
  · rename_i h
    rw [Bool.not_eq_true] at h
    have hevt : s.main.pwr.evt ||| 0 = s.main.pwr.evt := by simp
    rw [hevt, ← h]

/-- What follows the end of a forced Hold changes neither of the two registers that force it. -/
theorem State.forceEnds_forcing (s : State) :
    s.forceEnds.main.pwr.force = s.main.pwr.force ∧ s.forceEnds.main.pwr.d3hot = s.main.pwr.d3hot := by
  unfold State.forceEnds
  split
  · exact ⟨rfl, rfl⟩
  · split
    · rw [State.cancelNotice_pwr]
      exact ⟨rfl, rfl⟩
    · rw [State.chansSettle_pwr, State.chanStreams_pwr, State.pumpNand_pwr]
      exact ⟨rfl, rfl⟩

end Sys2Proof.Machine

/-!
## Clocks and power states (chapters 2 and 14)

First the commands of the power states, each under its condition and otherwise; then what Hold and Dormant leave; then the
two obligations that they settle.
-/

namespace Sys2Proof.Machine

theorem State.when_of_true {s : State} {c : Bool} (f : State → State) (h : c = true) : s.when c f = f s := by
  rw [h, State.when_true]

theorem State.when_of_false {s : State} {c : Bool} (f : State → State) (h : c = false) : s.when c f = s := by
  rw [h, State.when_false]

/-! ### Trim and Hold -/

section
variable {s : State}

theorem exec_trimEntry (s : State) : exec .trimEntry s = .next (s.when
    (s.running && s.main.pwr.state == .run && s.trimIdle && s.main.pwr.idleTrim != 0) fun s =>
      s.modPwr fun p => { p with state := .trim }) := rfl

theorem exec_trimEntry_go (hs : s.serving = true) (hstate : s.main.pwr.state = .run) (hidle : s.trimIdle = true)
    (htimer : s.main.pwr.idleTrim ≠ 0) : exec .trimEntry s = .next (s.modPwr fun p => { p with state := .trim }) := by
  rw [exec_trimEntry, State.when_of_true]
  simp only [State.running_of_serving hs, hstate, hidle, bne_iff_ne.mpr htimer]
  rfl

theorem exec_holdEntry (s : State) : exec .holdEntry s = .next (s.when
    (s.main.pwr.state != .hold && s.holdIdle && s.main.pwr.idleHold != 0) State.enterHold) := rfl

theorem exec_holdEntry_go (hstate : s.main.pwr.state ≠ .hold) (hidle : s.holdIdle = true) (htimer : s.main.pwr.idleHold ≠ 0) :
    exec .holdEntry s = .next s.enterHold := by
  rw [exec_holdEntry, State.when_of_true]
  simp only [bne_iff_ne.mpr hstate, hidle, bne_iff_ne.mpr htimer, Bool.and_self]

theorem exec_holdWake (s : State) : exec .holdWake s = .next (s.when
    (s.serving && s.main.pwr.state == .hold && !s.main.pwr.forcing) State.wakeHold) := rfl

theorem Power.forcing_eq_false {p : Power} (hforce : p.force = false) (hd3 : p.d3hot = false) : p.forcing = false := by
  rw [Power.forcing, hforce, hd3]
  rfl

theorem Power.forcing_eq_true {p : Power} (h : p.force = true ∨ p.d3hot = true) : p.forcing = true := Bool.or_eq_true_iff.mpr h

theorem exec_holdWake_go (hs : s.serving = true) (hstate : s.main.pwr.state = .hold) (hforce : s.main.pwr.force = false)
    (hd3 : s.main.pwr.d3hot = false) : exec .holdWake s = .next s.wakeHold := by
  rw [exec_holdWake, State.when_of_true]
  simp only [hs, hstate, Power.forcing_eq_false hforce hd3]
  rfl

/-! ### Forced Hold and D3hot -/

theorem exec_d3hot_go (hs : s.serving = true) : exec .d3hot s = .next (s.modPwr fun p => { p with d3hot := true }) := by
  change execD3hot s = _
  rw [execD3hot, State.when_of_true _ (State.running_of_serving hs)]

theorem exec_returnToD0 (hs : s.serving = true) : exec .returnToD0 s = .next (s.when s.main.pwr.d3hot fun s =>
    ((List.finRange 16).foldl State.drainHeld (s.modPwr fun p => { p with d3hot := false })).forceEnds) := by
  change execReturnToD0 s = _
  rw [execReturnToD0, State.running_of_serving hs, Bool.true_and]

/-- The return to D0 clears what D3hot set. -/
theorem State.returnToD0_d3hot (s : State) :
    ((List.finRange 16).foldl State.drainHeld (s.modPwr fun p => { p with d3hot := false })).forceEnds.main.pwr.d3hot = false := by
  rw [(State.forceEnds_forcing _).2, foldl_view (fun v : State => v.main.pwr) State.drainHeld_pwr]
  rfl

theorem exec_pwrForceHoldSet (hs : s.serving = true) : exec .pwrForceHoldSet s = .next (s.writeForce true) := by
  change execPwrForceHoldSet s = _
  rw [execPwrForceHoldSet, State.when_of_true _ (State.running_of_serving hs)]

theorem exec_pwrForceHoldClear (hs : s.serving = true) : exec .pwrForceHoldClear s = .next (s.writeForce false) := by
  change execPwrForceHoldClear s = _
  rw [execPwrForceHoldClear, State.when_of_true _ (State.running_of_serving hs)]

theorem State.writeForce_of_outOfService (h : s.main.glb.outOfService = true) (hold : Bool) : s.writeForce hold = s :=
  if_pos (by rw [h]; rfl)

theorem State.writeForce_same {hold : Bool} (h : s.main.pwr.force = hold) : s.writeForce hold = s :=
  if_pos (by rw [decide_eq_true h, Bool.or_true])

theorem State.writeForce_change {hold : Bool} (hin : s.main.glb.outOfService = false) (h : s.main.pwr.force ≠ hold) :
    s.writeForce hold = (s.modPwr fun p => { p with force := hold }).forceEnds :=
  if_neg (by rw [hin, decide_eq_false h]; decide)

theorem State.forceEnds_forced (h : s.main.pwr.force = true ∨ s.main.pwr.d3hot = true) : s.forceEnds = s :=
  if_pos (Power.forcing_eq_true h)

theorem State.forceEnds_hold (hforce : s.main.pwr.force = false) (hd3 : s.main.pwr.d3hot = false)
    (hstate : s.main.pwr.state = .hold) :
    s.forceEnds = (s.modPwr fun p => { p with wakeCause := true }).cancelNotice := by
  rw [State.forceEnds, Power.forcing_eq_false hforce hd3, hstate]
  rfl

theorem State.forceEnds_begin (hforce : s.main.pwr.force = false) (hd3 : s.main.pwr.d3hot = false)
    (hstate : s.main.pwr.state ≠ .hold) : s.forceEnds = s.pumpNand.chanStreams.chansSettle := by
  rw [State.forceEnds, Power.forcing_eq_false hforce hd3]
  exact if_neg (fun h => hstate (eq_of_beq h))

theorem State.writeForce_true (hin : s.main.glb.outOfService = false) :
    s.writeForce true = s.modPwr fun p => { p with force := true } := by
  by_cases h : s.main.pwr.force = true
  · rw [State.writeForce_same h]
    change s = { s with main := { s.main with pwr := { s.main.pwr with force := true } } }
    rw [← h]
  · rw [State.writeForce_change hin h, State.forceEnds_forced (Or.inl rfl)]

theorem State.writeForce_false_force (hin : s.main.glb.outOfService = false) : (s.writeForce false).main.pwr.force = false := by
  by_cases h : s.main.pwr.force = false
  · rw [State.writeForce_same h, h]
  · rw [State.writeForce_change hin h, (State.forceEnds_forcing _).1]
    rfl

theorem exec_forcedHold (s : State) : exec .forcedHold s = .next (s.when s.mayDrain State.forcedHold) := rfl

theorem exec_drainAbort (s : State) : exec .drainAbort s = .next (s.when s.mayDrain State.drainAbort) := rfl

theorem State.mayDrain_of (hs : s.serving = true) (hforce : s.main.pwr.force = true ∨ s.main.pwr.d3hot = true)
    (hstate : s.main.pwr.state ≠ .hold) (horder : s.main.resetOrder = []) : s.mayDrain = true := by
  rw [State.mayDrain, hs, Power.forcing_eq_true hforce, bne_iff_ne.mpr hstate, horder]
  rfl

theorem State.mayDrain_eq_false
    (h : (s.main.pwr.force = false ∧ s.main.pwr.d3hot = false) ∨ s.main.pwr.state = .hold ∨ s.main.resetOrder ≠ []) :
    s.mayDrain = false := by
  rw [State.mayDrain]
  obtain ⟨hforce, hd3⟩ | hstate | horder := h
  · rw [Power.forcing_eq_false hforce hd3, Bool.and_false]
    rfl
  · rw [hstate]
    simp
  · rw [Bool.eq_false_iff.mpr fun h => horder (List.isEmpty_iff.mp h), Bool.and_false]

theorem exec_forcedHold_enters (h : s.mayDrain = true) (hwork : s.workLeft = false) (hrec : s.recordLeft = false) :
    exec .forcedHold s = .next s.enterHold := by
  rw [exec_forcedHold, State.when_of_true _ h, State.forcedHold, hwork, hrec]
  rfl

/-! ### Dormant, pads and WAKE_OUT_N -/

theorem exec_dormantNotice (s : State) : exec .dormantNotice s = .next (s.when
    (s.dormantIdle && s.main.pwr.state == .hold && s.main.pwr.idleDormant != 0 && !s.main.pwr.notice && !s.main.pwr.wakeCause)
      fun s => (s.modPwr fun p => { p with notice := true }).powerEvent 0x02) := rfl

theorem exec_dormantNotice_go (hidle : s.dormantIdle = true) (hstate : s.main.pwr.state = .hold)
    (htimer : s.main.pwr.idleDormant ≠ 0) (hnotice : s.main.pwr.notice = false) (hcause : s.main.pwr.wakeCause = false) :
    exec .dormantNotice s = .next ((s.modPwr fun p => { p with notice := true }).powerEvent 0x02) := by
  rw [exec_dormantNotice, State.when_of_true]
  simp only [hidle, hstate, bne_iff_ne.mpr htimer, hnotice, hcause]
  rfl

theorem exec_dormantNoticeCancel (hs : s.serving = true) : exec .dormantNoticeCancel s = .next s.noticeWrite := by
  change execDormantNoticeCancel s = _
  rw [execDormantNoticeCancel, State.when_of_true _ (State.running_of_serving hs)]

theorem State.noticeWrite_pwr (s : State) : s.noticeWrite.main.pwr = { s.main.pwr with
    notice := false
    evt := (s.main.pwr.evt &&& 0x1D) ||| (if s.main.pwr.notice then 0x04 else 0) } := by
  unfold State.noticeWrite
  exact State.cancelNotice_pwr _

theorem exec_dormantEntry (s : State) : exec .dormantEntry s = .next (s.when s.main.pwr.notice fun s =>
    if s.dormantIdle && !s.main.pwr.wakeCause then s.enterDormant else s.cancelNotice) := rfl

theorem exec_dormantEntry_go (hnotice : s.main.pwr.notice = true) (hidle : s.dormantIdle = true)
    (hcause : s.main.pwr.wakeCause = false) : exec .dormantEntry s = .next s.enterDormant := by
  rw [exec_dormantEntry, State.when_of_true _ hnotice, hidle, hcause]
  rfl

theorem exec_pwrPadRelease (hs : s.serving = true) :
    exec (.pwrPadRelease true) s = .next (s.modAon fun a => { a with padHeld := false, padZ := false }) := by
  change execPwrPadRelease true s = _
  rw [execPwrPadRelease, State.running_of_serving hs]
  rfl

theorem exec_pcieLinkL0 (s : State) : exec .pcieLinkL0 s = .next
    ((if s.main.pcie.link = .training then s.setLink .up else s).modAon fun a => { a with wakeOut := false }) := by
  by_cases h : s.main.pcie.link = .training
  · rw [if_pos h]
    change Host.Outcome.next ((s.when (s.main.pcie.link == .training) fun s => s.setLink .up).modAon _) = _
    rw [State.when_of_true _ (beq_iff_eq.mpr h)]
  · rw [if_neg h]
    change Host.Outcome.next ((s.when (s.main.pcie.link == .training) fun s => s.setLink .up).modAon _) = _
    rw [State.when_of_false _ (beq_eq_false_iff_ne.mpr h)]

theorem exec_wakeOutNTimeout (s : State) :
    exec .wakeOutNTimeout s = .next (s.modAon fun a => { a with wakeOut := false }) := rfl

end

/-! ### What the entry of Hold leaves (R292, R313) -/

theorem Aon.capture_padHeld (a : Aon) (k : Nat) : (a.capture k).padHeld = true := by
  unfold Aon.capture
  split
  · assumption
  · rfl

theorem Aon.capture_padFault (a : Aon) (k : Nat) : (a.capture k).padFault = if a.padHeld then a.padFault else a.faultN := by
  unfold Aon.capture
  split
  · rfl
  · rfl

/-- The parts of a state that its view shows. -/
theorem State.of_linkView {s : State} {v : LinkView} (h : s.linkView = v) :
    s.main.pwr = v.pwr ∧ s.aon.padHeld = v.padHeld ∧ s.aon.padFault = v.padFault ∧ s.main.marks = v.marks ∧
      s.main.shm = v.shm ∧ s.nv = v.nv ∧ s.main.stations = v.stations ∧ ∀ k, (s.port k).state = v.portStates k := by
  subst h
  exact ⟨rfl, rfl, rfl, rfl, rfl, rfl, rfl, fun _ => rfl⟩

/-- Once both ports have fallen, each is down. -/
theorem State.portsDown_linkView (s : State) (cause : BitVec 3) :
    ((s.portDown 0 cause).portDown 1 cause).linkView = { s.linkView with portStates := fun _ => 0 } := by
  have hzero : ((s.portDown 0 cause).port 0).state = 0 := by
    obtain ⟨-, -, -, -, -, -, -, hports⟩ := State.of_linkView (s.portDown_linkView 0 cause)
    exact hports 0
  rw [State.portDown_linkView, State.portDown_linkView]
  refine congrArg (fun v => { s.linkView with portStates := v }) (funext fun k => ?_)
  by_cases hk : k = 1
  · exact if_pos hk
  · have hk0 : k = 0 := by omega
    rw [if_neg hk, hk0]
    exact hzero

theorem State.modNfc_linkView (s : State) (f : Nfc → Nfc) : (s.modNfc f).linkView = s.linkView := rfl

theorem State.modLin_linkView (s : State) (f : Lin → Lin) : (s.modLin f).linkView = s.linkView := rfl

theorem State.modStations_linkView (s : State) (f : State → Vector Station 24) :
    (s.modMain fun m => { m with stations := f s }).linkView = { s.linkView with stations := f s } := rfl

theorem State.uarts_linkView (s : State) (f : Main → Vector Uart 2) :
    (s.modMain fun m => { m with uarts := f m }).linkView = s.linkView := rfl

theorem State.serialHold_linkView (s : State) : s.serialHold.linkView = s.linkView := by
  unfold State.serialHold
  rw [State.modLin_linkView]
  exact s.uarts_linkView fun m => Vector.ofFn fun u => (m.uarts[u]).hold (s.receives u && Config.receiving s.stamp u.val)

theorem State.serialHold_aon (s : State) : s.serialHold.aon = s.aon := by
  unfold State.serialHold
  rw [State.modLin_aon, State.modMain_aon]

theorem State.nandOff_linkView (s : State) : s.nandOff.linkView = s.linkView := by
  unfold State.nandOff
  exact s.modNfc_linkView _

theorem State.freshStations_linkView (s : State) : s.freshStations.linkView =
    { s.linkView with stations := Vector.ofFn fun n => Station.fresh (s.stamp + 9 * n.val) } := by
  unfold State.freshStations
  dsimp only
  exact State.modStations_linkView { s with stamp := s.stamp + 216 } fun _ => Vector.ofFn fun n => Station.fresh (s.stamp + 9 * n.val)

/-- The pads held and the power state, as Hold takes them. -/
def State.holdPads (s : State) (k : Nat) : State :=
  (s.modAon fun a => a.capture k).modPwr fun p => { p with state := .hold, notice := false, wakeCause := false }

theorem State.holdPads_linkView (s : State) (k : Nat) : (s.holdPads k).linkView = { s.linkView with
    pwr := { s.main.pwr with state := .hold, notice := false, wakeCause := false }
    padHeld := true
    padFault := if s.aon.padHeld then s.aon.padFault else s.aon.faultN } := by
  rw [← s.aon.capture_padFault k, ← s.aon.capture_padHeld k]
  rfl

theorem State.enterHold_eq (s : State) : s.enterHold =
    (((s.serialHold.holdPads s.stamp).freshStations.nandOff).portDown 0 0).portDown 1 0 := by
  rw [State.enterHold, State.holdPads]

theorem State.enterHold_linkView (s : State) : s.enterHold.linkView = { s.linkView with
    pwr := { s.main.pwr with state := .hold, notice := false, wakeCause := false }
    padHeld := true
    padFault := if s.aon.padHeld then s.aon.padFault else s.aon.faultN
    stations := Vector.ofFn fun n => Station.fresh ((s.serialHold.holdPads s.stamp).stamp + 9 * n.val)
    portStates := fun _ => 0 } := by
  have hpwr : s.serialHold.main.pwr = s.main.pwr := State.pwr_of_linkView s.serialHold_linkView
  rw [State.enterHold_eq, State.portsDown_linkView, State.nandOff_linkView, State.freshStations_linkView,
    State.holdPads_linkView, State.serialHold_linkView, State.serialHold_aon, hpwr]

theorem State.enterHold_leaves (s : State) :
    s.enterHold.main.pwr.state = .hold ∧ s.enterHold.aon.padHeld = true ∧
      s.enterHold.aon.padFault = (if s.aon.padHeld then s.aon.padFault else s.aon.faultN) ∧
      s.enterHold.main.marks = s.main.marks ∧ s.enterHold.main.shm = s.main.shm ∧ s.enterHold.nv = s.nv ∧
      (∀ k, (s.enterHold.port k).state = 0) ∧
      ∀ n, (s.enterHold.station n).mem.known = [] ∧ (s.enterHold.station n).running = false := by
  obtain ⟨hpwr, hheld, hfault, hmarks, hshm, hnv, hstations, hports⟩ := State.of_linkView s.enterHold_linkView
  refine ⟨?_, hheld, hfault, hmarks, hshm, hnv, hports, fun n => ?_⟩
  · rw [hpwr]
  · rw [State.station, hstations, Fin.getElem_fin, Vector.getElem_ofFn]
    exact ⟨rfl, rfl⟩

/-! ### What the entry of Dormant leaves (R296, R347) -/

/-- The state without the contents of the flash and the stamp of undefined values. -/
def State.sansFlash (s : State) : State := { s with nand := {}, stamp := 0 }

theorem State.scrambleNand_sansFlash (s : State) (key n : Nat) : (s.scrambleNand key n).sansFlash = s.sansFlash := rfl

theorem State.spoil_sansFlash (s : State) (u : Nat) (o : NandOp) : (s.spoil u o).sansFlash = s.sansFlash := by
  unfold State.spoil
  dsimp only
  split
  · exact s.scrambleNand_sansFlash _ _
  · split
    · exact s.scrambleNand_sansFlash _ _
    · rfl

/-- Arrays whose programming is cut off are unwritten (R347). -/
def State.cutNv (s : State) : State :=
  { s with nv := Vector.ofFn fun n => Vector.ofFn fun a =>
      let v := s.nv[n][a]
      if v.state = 2 then { v with state := 0 } else v }

/-- The cells of the operation that a LUN does not end are spoilt (R217). -/
def State.cutLun (s : State) (u : Fin 32) : State :=
  match (s.lun u).cur with
  | some c =>
    if !c.op.writes || c.ignored then s
    else (if c.ready && !c.fail then c.pair.toList else c.ops).foldl (fun s o => s.spoil u.val o) s
  | none => s

theorem State.cutCells_eq (s : State) : s.cutCells = (List.finRange 32).foldl State.cutLun s.cutNv := by
  rw [State.cutCells, State.cutNv]
  rfl

theorem State.cutLun_sansFlash (s : State) (u : Fin 32) : (s.cutLun u).sansFlash = s.sansFlash := by
  unfold State.cutLun
  split
  · split
    · rfl
    · exact foldl_view State.sansFlash (fun v o => v.spoil_sansFlash u.val o) _ s
  · rfl

/-- Beside the arrays, a cut changes the flash alone. -/
theorem State.cutCells_sansFlash (s : State) : s.cutCells.sansFlash = s.cutNv.sansFlash := by
  rw [State.cutCells_eq]
  exact foldl_view State.sansFlash State.cutLun_sansFlash _ _

/-- A LUN that has nothing to spoil: idle, reading, ignored, or with all of its work done. -/
def State.sparesCells (s : State) (u : Fin 32) : Prop :=
  ∀ c, (s.lun u).cur = some c → c.op.writes = false ∨ c.ignored = true ∨ (c.ready = true ∧ c.fail = false ∧ c.pair = none)

theorem State.cutLun_of_spares {s : State} {u : Fin 32} (h : s.sparesCells u) : s.cutLun u = s := by
  unfold State.cutLun
  split
  · rename_i c hc
    obtain hw | hi | ⟨hready, hfail, hpair⟩ := h c hc
    · rw [hw]
      rfl
    · rw [hi, Bool.or_true]
      rfl
    · rw [hready, hfail, hpair]
      split
      · rfl
      · rfl
  · rfl

theorem State.sparesCells_congr {s t : State} (hmain : t.main = s.main) {u : Fin 32} (h : s.sparesCells u) : t.sparesCells u := by
  unfold State.sparesCells State.lun
  rw [hmain]
  exact h

theorem State.cutCells_of_spares {s : State} (h : ∀ u, s.sparesCells u) : s.cutCells = s.cutNv := by
  have hmain : s.cutNv.main = s.main := by rw [State.cutNv]
  rw [State.cutCells_eq]
  exact List.foldl_fixed' (fun u => State.cutLun_of_spares (State.sparesCells_congr hmain (h u))) _

theorem State.nandBusy_cur {s : State} (h : s.nandBusy = false) (u : Fin 32) : (s.lun u).cur = none := by
  rw [State.nandBusy, Bool.or_eq_false_iff] at h
  have hu := List.any_eq_false.mp h.2 u (List.mem_finRange u)
  rw [Bool.not_eq_true, Bool.or_eq_false_iff] at hu
  exact Option.isNone_iff_eq_none.mp (Option.isSome_eq_false_iff.mp hu.1)

theorem State.nandBusy_of_dormantIdle {s : State} (h : s.dormantIdle = true) : s.nandBusy = false := by
  simp only [State.dormantIdle, State.holdIdle, Bool.and_eq_true, Bool.not_eq_true'] at h
  tauto

theorem State.cutBurn_rest (s : State) : s.cutBurn = { s with otp := s.cutBurn.otp } := by
  unfold State.cutBurn
  split
  · rfl
  · rfl

theorem Aon.capture_ring (a : Aon) (k : Nat) : (a.capture k).ring = a.ring := by
  unfold Aon.capture
  split
  · rfl
  · rfl

/-- The main domain off, its pads held (R296, R313). -/
def State.asleep (s : State) : State :=
  { s with aon := { (s.aon.capture s.stamp) with pwrEn := false }, phase := .dormant }.freshMain

theorem State.enterDormant_eq (s : State) : s.enterDormant = ((s.fbEntry 0 0x060 0).cutWork).asleep := by
  rw [State.enterDormant, State.asleep]

theorem State.asleep_leaves (s : State) : s.asleep.phase = .dormant ∧ s.asleep.aon.pwrEn = false ∧ s.asleep.aon.padHeld = true ∧
    s.asleep.main.time = 0 ∧ s.asleep.slots = s.slots ∧ s.asleep.aon.ring = s.aon.ring ∧ s.asleep.nand = s.nand :=
  ⟨rfl, rfl, Aon.capture_padHeld _ _, rfl, rfl, Aon.capture_ring _ _, rfl⟩

theorem State.enterDormant_leaves {s : State} (hs : s.serving = true) (hidle : s.dormantIdle = true) :
    s.enterDormant.phase = .dormant ∧ s.enterDormant.aon.pwrEn = false ∧ s.enterDormant.aon.padHeld = true ∧
      s.enterDormant.main.time = 0 ∧ s.enterDormant.slots = s.slots ∧
      s.enterDormant.aon.ring = s.aon.ring.set s.aon.fbHead (fbWord (s.time.setWidth 48) 0 0x060 0) ∧
      s.enterDormant.nand = s.nand := by
  have hspare : ∀ u, (s.fbEntry 0 0x060 0).sparesCells u := by
    intro u f hf
    rw [show (s.fbEntry 0 0x060 0).lun u = s.lun u from rfl,
      State.nandBusy_cur (State.nandBusy_of_dormantIdle hidle)] at hf
    cases hf
  have hcut : (s.fbEntry 0 0x060 0).cutWork.slots = s.slots ∧ (s.fbEntry 0 0x060 0).cutWork.aon = (s.fbEntry 0 0x060 0).aon ∧
      (s.fbEntry 0 0x060 0).cutWork.nand = s.nand := by
    rw [State.cutWork, State.cutBurn_rest, State.cutCells_of_spares hspare, State.cutNv]
    exact ⟨rfl, rfl, rfl⟩
  obtain ⟨hcutSlots, hcutAon, hcutNand⟩ := hcut
  have hring := State.fbEntry_ring_of_running (State.running_of_serving hs) 0 0x060 0
  obtain ⟨hphase, hpwrEn, hheld, htime, hslots, hsleep, hnand⟩ := State.asleep_leaves (s.fbEntry 0 0x060 0).cutWork
  rw [State.enterDormant_eq]
  exact ⟨hphase, hpwrEn, hheld, htime, hslots.trans hcutSlots, (hsleep.trans (congrArg Aon.ring hcutAon)).trans hring,
    hnand.trans hcutNand⟩

/-! ### The drain (R316) -/

theorem State.trimIdle_iff (s : State) : s.trimIdle = true ↔
    ∀ n, (s.station n).running = false ∧ (s.station n).claim = none ∧ (s.station n).benchBusy = false := by
  simp only [State.trimIdle, List.all_eq_true, List.mem_finRange, forall_const, Bool.and_eq_true, Bool.not_eq_true',
    Option.isNone_iff_eq_none, and_assoc]

theorem State.draining_iff (s : State) (j : Job) : s.draining j = true ↔
    (j.phase = .started ∨ j.phase = .running) ∧ (j.cmd = 1 ∨ j.cmd = 2 ∨ j.cmd = 3 ∨
      (j.cmd = 9 ∧ s.downAddr j.spSource = true) ∨ (j.cmd = 8 ∧ s.downAddr (j.le 48 5) = true)) := by
  simp only [State.draining, Bool.and_eq_true, Bool.or_eq_true, beq_iff_eq, or_assoc]

theorem State.downAddr_iff (s : State) (a : Nat) : s.downAddr a = true ↔
    if inHostWindow a = true then s.main.pwr.d3hot = true else 0x100000000 ≤ a := by
  unfold State.downAddr
  split
  · rfl
  · exact decide_eq_true_iff

section
variable {s : State} {q : Fin 16} {j : Job}

theorem State.abortJob_stays (hj : s.job q = some j) (h : s.draining j = false) : s.abortJob q = s := by
  rw [State.abortJob, hj]
  dsimp only
  rw [h]
  rfl

theorem State.abortJob_engine (hj : s.job q = some j) (hdoom : j.doomed = false) (h : s.draining j = true)
    (hcmd : j.cmd = 2 ∨ j.cmd = 8 ∨ j.cmd = 9) :
    s.abortJob q = (s.modIdk fun i => { i with
      sigQueue := i.sigQueue.filter fun w => w != .attest q j.order
      sigBusy := i.sigBusy.filter fun w => w != .attest q j.order }).setEnd q stPowerAbort 0 := by
  have h1 : j.cmd ≠ 1 := by obtain h | h | h := hcmd <;> simp [h]
  have h3 : j.cmd ≠ 3 := by obtain h | h | h := hcmd <;> simp [h]
  rw [State.abortJob, hj]
  dsimp only
  rw [h, hdoom, decide_eq_false h1, decide_eq_false h3, if_neg h1]
  rfl

theorem State.abortJob_program (hj : s.job q = some j) (hdoom : j.doomed = false) (hphase : j.phase = .running)
    (hcmd : j.cmd = 1) (hfault : j.faulted = false) :
    s.abortJob q = (s.modJob q fun j =>
      { j with status := stPowerAbort, detail := j.stations.setWidth 32, faulted := true }).stopJob q j.order := by
  have hdrain : s.draining j = true := (s.draining_iff j).mpr ⟨Or.inr hphase, Or.inl hcmd⟩
  rw [State.abortJob, hj]
  dsimp only
  rw [hdrain, hdoom, decide_eq_true hcmd, hphase, hfault]
  rfl

end

/-! ### The obligations -/

/-- Settles O43: each command by its equation above, and the entries of Hold and Dormant by what they leave. -/
theorem powerStates : Obligations.PowerStates := by
  intro s hs p
  have hrunning := State.running_of_serving hs
  refine ⟨s.trimIdle_iff, exec_trimEntry_go hs, fun h => ?_, exec_holdEntry_go, fun h => ?_, s.enterHold_leaves,
    fun hforce hstate horder => ?_, fun h => ?_, fun q j hj hdoom => ?_, s.downAddr_iff, fun hout => ?_, fun hin => ?_,
    exec_holdWake_go hs, fun h => ?_, exec_d3hot_go hs, fun h => ?_, fun h => ?_, exec_dormantNotice_go, fun h => ?_, fun h => ?_,
    ⟨s.noticeWrite, exec_dormantNoticeCancel hs, s.noticeWrite_pwr⟩, fun hnotice h => ?_, fun hnotice hidle hcause => ?_,
    exec_pwrPadRelease hs, ?_, exec_pcieLinkL0 s, exec_wakeOutNTimeout s⟩
  · rw [exec_trimEntry, State.when_of_false]
    obtain h | h | h := h
    · simp [show s.main.pwr.state ≠ .run from h]
    · simp [h]
    · simp [show s.main.pwr.idleTrim = 0 from h]
  · rw [exec_holdEntry, State.when_of_false]
    obtain h | h | h := h
    · simp [show s.main.pwr.state = .hold from h]
    · simp [h]
    · simp [show s.main.pwr.idleHold = 0 from h]
  · have hmay := State.mayDrain_of hs hforce hstate horder
    refine ⟨exec_forcedHold_enters hmay, fun h => ?_, ?_⟩
    · rw [exec_forcedHold, State.when_of_true _ hmay, State.forcedHold, if_pos (Bool.or_eq_true_iff.mpr h)]
    · rw [exec_drainAbort, State.when_of_true _ hmay]
  · have hmay := State.mayDrain_eq_false h
    rw [exec_forcedHold, exec_drainAbort, State.when_of_false _ hmay, State.when_of_false _ hmay]
    exact ⟨rfl, rfl⟩
  · exact ⟨s.draining_iff j, State.abortJob_stays hj, State.abortJob_engine hj hdoom, State.abortJob_program hj hdoom⟩
  · rw [exec_pwrForceHoldSet hs, exec_pwrForceHoldClear hs, State.writeForce_of_outOfService hout,
      State.writeForce_of_outOfService hout]
    exact ⟨rfl, rfl⟩
  · rw [exec_pwrForceHoldSet hs, exec_pwrForceHoldClear hs, State.writeForce_true hin]
    have hclear : s.main.pwr.force = true → s.writeForce false = (s.modPwr fun p => { p with force := false }).forceEnds :=
      fun h => State.writeForce_change hin (by rw [h]; decide)
    refine ⟨rfl, fun h hd3 => ?_, fun h hd3 hstate => ?_, fun h hd3 hstate => ?_, fun h => ?_⟩
    · exact congrArg Host.Outcome.next ((hclear h).trans (State.forceEnds_forced (Or.inr hd3)))
    · exact congrArg Host.Outcome.next ((hclear h).trans (State.forceEnds_hold rfl hd3 hstate))
    · exact congrArg Host.Outcome.next ((hclear h).trans (State.forceEnds_begin rfl hd3 hstate))
    · rw [State.writeForce_same h]
  · rw [exec_holdWake, State.when_of_false]
    obtain h | h | h := h
    · simp [show s.main.pwr.state ≠ .hold from h]
    · simp [Power.forcing_eq_true (Or.inl h : s.main.pwr.force = true ∨ s.main.pwr.d3hot = true)]
    · simp [Power.forcing_eq_true (Or.inr h : s.main.pwr.force = true ∨ s.main.pwr.d3hot = true)]
  · rw [exec_returnToD0 hs, State.when_of_false _ h]
  · rw [exec_returnToD0 hs, State.when_of_true _ h]
  · rw [exec_dormantNotice, State.when_of_false]
    obtain h | h | h | h | h := h
    · simp [h]
    · simp [show s.main.pwr.state ≠ .hold from h]
    · simp [show s.main.pwr.idleDormant = 0 from h]
    · simp [show s.main.pwr.notice = true from h]
    · simp [show s.main.pwr.wakeCause = true from h]
  · rw [exec_dormantEntry, State.when_of_false _ h]
  · rw [exec_dormantEntry, State.when_of_true _ hnotice]
    refine congrArg Host.Outcome.next (if_neg ?_)
    obtain h | h := h
    · simp [h]
    · simp [show s.main.pwr.wakeCause = true from h]
  · exact ⟨s.enterDormant, exec_dormantEntry_go hnotice hidle hcause, State.enterDormant_leaves hs hidle⟩
  · change execPwrPadRelease false s = _
    rw [execPwrPadRelease, Bool.and_false, State.when_false]

/-! ### The station divider (R28 to R32) -/

theorem State.converting_iff (s : State) : s.converting = true ↔ ∃ n, ∃ i ∈ (s.station n).arrQ, i.convs ≠ [] := by
  simp [State.converting]

theorem exec_dividerSwitch (s : State) : exec .dividerSwitch s = .next (s.when
    (s.running && s.main.pwr.switching && !s.converting) fun s =>
      s.modPwr fun p => { p with effDiv := p.target, switching := false }) := rfl

theorem exec_vcoreForce {vcore : BitVec 8} {s : State} (hrun : s.running = true) : exec (.vcoreForce vcore) s = .next
    (if vcore.toNat + 4 < minVcore s.main.pwr.effDiv then
      ((s.modPwr fun p => { p with vcoreMv := vcore }).fbEntry 0 0x003
        (BitVec.ofNat 64 (vcore.toNat + 256 * s.main.pwr.effDiv.toNat))).modPwr fun p => { p with vcoreForce := true }.retarget
    else s.modPwr fun p => { p with vcoreMv := vcore }) := by
  change execVcoreForce vcore s = _
  rw [execVcoreForce, State.when_of_true _ hrun]
  rfl

theorem exec_vcoreForce_low {vcore : BitVec 8} {s : State} (hrun : s.running = true)
    (hlow : vcore.toNat + 4 < minVcore s.main.pwr.effDiv) : exec (.vcoreForce vcore) s = .next
      (((s.modPwr fun p => { p with vcoreMv := vcore }).fbEntry 0 0x003
        (BitVec.ofNat 64 (vcore.toNat + 256 * s.main.pwr.effDiv.toNat))).modPwr fun p => { p with vcoreForce := true }.retarget) := by
  rw [exec_vcoreForce hrun, if_pos hlow]

theorem Power.retarget_forced (p : Power) : { p with vcoreForce := true }.retarget =
    { p with vcoreForce := true, switching := p.switching || p.effDiv != 3 } := by
  have hcomm : (3 != p.effDiv) = (p.effDiv != 3) := bne_comm
  rw [← hcomm]
  rfl

theorem Power.target_eq (p : Power) :
    p.target = if p.vcoreForce then 3 else if p.dipForce ∧ p.div.toNat < 2 then 2 else p.div := by
  unfold Power.target
  by_cases hv : p.vcoreForce = true
  · simp [hv]
  · by_cases hd : p.div = 3
    · simp [hv, hd]
    · simp [hv, show p.div ≠ 3#2 from hd]

/-- Settles O42: the divider's switch and its force, and the commands of the power states by their equations. -/
theorem stationDivider : Obligations.StationDivider := by
  intro vcore s hrun need conv
  have hneed : need = minVcore := funext fun d => (minVcore_eq d).symm
  rw [hneed]
  refine ⟨fun hswitch hconv => ?_, fun h => ?_, fun hlow => ?_, fun hok => ?_, fun hs => ?_⟩
  · have hnone : s.converting = false := Bool.eq_false_iff.mpr fun h => hconv (s.converting_iff.mp h)
    rw [exec_dividerSwitch, State.when_of_true _ (by rw [hrun, hswitch, hnone]; rfl)]
    refine congrArg (fun f => Host.Outcome.next (s.modPwr f)) (funext fun p => ?_)
    rw [p.target_eq]
  · rw [exec_dividerSwitch, State.when_of_false]
    obtain h | h := h
    · simp [h]
    · simp [s.converting_iff.mpr h]
  · refine ⟨_, exec_vcoreForce_low hrun hlow, ?_, ?_⟩
    · exact congrArg (fun v => { s.main with pwr := v }) (Power.retarget_forced _)
    · exact State.fbEntry_ring_of_running (s := s.modPwr fun p => { p with vcoreMv := vcore }) hrun _ _ _
  · rw [exec_vcoreForce hrun, if_neg (by omega)]
  · intro p
    refine ⟨exec_trimEntry_go hs, exec_holdEntry_go, exec_holdWake_go hs, exec_d3hot_go hs, fun hd3 => ?_, fun hin => ?_,
      fun hforce hstate horder => ?_, fun hidle hstate htimer hnotice hcause => ?_,
      ⟨s.noticeWrite, exec_dormantNoticeCancel hs, ?_⟩, exec_dormantEntry_go, exec_pwrPadRelease hs,
      ⟨_, exec_pcieLinkL0 s, rfl⟩, _, exec_wakeOutNTimeout s, rfl⟩
    · refine ⟨_, ?_, s.returnToD0_d3hot⟩
      rw [exec_returnToD0 hs, State.when_of_true _ hd3]
    · refine ⟨?_, _, exec_pwrForceHoldClear hs, State.writeForce_false_force hin⟩
      rw [exec_pwrForceHoldSet hs, State.writeForce_true hin]
    · have hmay := State.mayDrain_of hs hforce hstate horder
      refine ⟨exec_forcedHold_enters hmay, ?_⟩
      rw [exec_drainAbort, State.when_of_true _ hmay]
    · refine ⟨_, exec_dormantNotice_go hidle hstate htimer hnotice hcause, ?_⟩
      rw [State.powerEvent_pwr]
      rfl
    · rw [State.noticeWrite_pwr]

end Sys2Proof.Machine

/-!
## The supply and the field book (chapters 14 and 16)
-/

namespace Sys2Proof.Machine

/-! ### What a message and a notice leave alone -/

/-- A message changes host memory and MSI-X at most. -/
theorem State.raise_rest (s : State) (v : Fin 64) : s.raise v =
    { s with hostMem := (s.raise v).hostMem, main := { s.main with msix := (s.raise v).main.msix } } := by
  unfold State.raise
  dsimp only
  split
  · rfl
  · rfl

theorem State.raiseIf_rest (s : State) (c : Bool) (v : Fin 64) : s.raiseIf c v =
    { s with hostMem := (s.raiseIf c v).hostMem, main := { s.main with msix := (s.raiseIf c v).main.msix } } := by
  unfold State.raiseIf
  split
  · exact s.raise_rest v
  · rfl

/-- What an event of the power block leaves as it is. -/
theorem State.powerEvent_rest (s : State) (bits : BitVec 5) : s.powerEvent bits =
    { s with hostMem := (s.powerEvent bits).hostMem
             main := { s.main with pwr := (s.powerEvent bits).main.pwr, msix := (s.powerEvent bits).main.msix } } := by
  rw [State.powerEvent_pwr]
  exact State.raiseIf_rest (s.modPwr fun p => { p with evt := p.evt ||| bits }) _ 40

theorem State.cancelNotice_rest (s : State) : s.cancelNotice =
    { s with hostMem := s.cancelNotice.hostMem
             main := { s.main with pwr := s.cancelNotice.main.pwr, msix := s.cancelNotice.main.msix } } := by
  unfold State.cancelNotice
  split
  · exact State.powerEvent_rest (s.modPwr fun p => { p with notice := false }) 0x04
  · rfl

theorem State.noticeCheck_rest (s : State) : s.noticeCheck =
    { s with hostMem := s.noticeCheck.hostMem
             main := { s.main with pwr := s.noticeCheck.main.pwr, msix := s.noticeCheck.main.msix } } := by
  unfold State.noticeCheck
  split
  · exact s.cancelNotice_rest
  · rfl

theorem State.noticeCheck_aon (s : State) : s.noticeCheck.aon = s.aon := by
  rw [State.noticeCheck_rest]

theorem State.noticeCheck_slots (s : State) : s.noticeCheck.slots = s.slots := by
  rw [State.noticeCheck_rest]

theorem State.noticeCheck_phase (s : State) : s.noticeCheck.phase = s.phase := by
  rw [State.noticeCheck_rest]

/-- Where Dormant may not come, no notice of it stands. -/
theorem State.noticeCheck_pwr_of_busy {s : State} (h : s.dormantIdle = false) :
    s.noticeCheck.main.pwr.notice = false ∧ s.noticeCheck.main.pwr.dipForce = s.main.pwr.dipForce := by
  unfold State.noticeCheck
  rw [h]
  split
  · rw [State.cancelNotice_pwr]
    exact ⟨rfl, rfl⟩
  · rename_i hnotice
    simp only [Bool.not_false, Bool.and_true, Bool.not_eq_true] at hnotice
    exact ⟨hnotice, rfl⟩

/-! ### Flushes (R356) -/

/-- What a flush leaves as it is: it changes its slot and the state of the flushes. -/
theorem State.flush_aon (s : State) (trigger : BitVec 16) : (s.flush trigger).aon =
    { s.aon with flushing := (s.flush trigger).aon.flushing, flushPend := (s.flush trigger).aon.flushPend } := by
  unfold State.flush
  split
  · rfl
  · rfl

theorem State.flush_phase (s : State) (trigger : BitVec 16) : (s.flush trigger).phase = s.phase := by
  unfold State.flush
  split
  · rfl
  · rfl

theorem State.flush_flushing (s : State) (trigger : BitVec 16) : (s.flush trigger).aon.flushing.isSome = true := by
  unfold State.flush
  split
  · rename_i h
    exact h
  · rfl

theorem State.flush_of_none {s : State} (h : s.aon.flushing = none) (trigger : BitVec 16) :
    s.flush trigger = s.flushStart trigger := by
  rw [State.flush, h]
  rfl

theorem State.flush_of_some {s : State} {f : Flush} (h : s.aon.flushing = some f) (trigger : BitVec 16) :
    s.flush trigger = s.modAon fun a => { a with flushPend := some (a.flushPend.getD trigger) } := by
  rw [State.flush, h]
  rfl

/-- The flush that starts now: the slot behind the last one, or the first one, with the entries of now. -/
def State.nextFlush (s : State) (trigger : BitVec 16) : Flush :=
  { slot := if s.aon.seq = 0 then 0 else s.aon.lastSlot + 1, seq := s.aon.seq + 1,
    bytes := slotBytes (s.aon.seq + 1) s.aon.rstCount trigger s.aon.newest }

theorem State.flushStart_eq (s : State) (trigger : BitVec 16) : s.flushStart trigger =
    { s with slots := upd s.slots (s.nextFlush trigger).slot fun bs => bs.set 63 0
             aon := { s.aon with flushing := some (s.nextFlush trigger) } } := by
  have hslot : (if s.aon.seq != 0 then s.aon.lastSlot + 1 else 0 : Fin 16) = (s.nextFlush trigger).slot := by
    by_cases h : s.aon.seq = 0
    · simp [State.nextFlush, h]
    · simp [State.nextFlush]
  rw [State.flushStart, hslot]
  rfl

/-- DONE of a slot whose flush has started is clear. -/
theorem getD_set_zero (bs : List Byte) (i : Nat) : (bs.set i 0).getD i 0 = 0 := by
  rw [List.getD_eq_getElem?_getD, List.getElem?_set_self']
  cases bs[i]?
  · rfl
  · rfl

/-! ### The layout of a slot (R356, R357) -/

/-- The first 16 bytes of a slot. -/
def slotHead (seq : BitVec 32) (rst trigger : BitVec 16) (count : Nat) : List Byte :=
  [0x47, 0x46, 0x42, 0x4B] ++ toBytes seq 4 ++ toBytes rst 2 ++ toBytes trigger 2 ++ [BitVec.ofNat 8 count] ++ zeros 3

/-- The entries of a slot, one after another. -/
def slotBody (es : List (BitVec 128)) : List Byte := es.flatMap fun e => toBytes e 16

theorem length_slotHead (seq : BitVec 32) (rst trigger : BitVec 16) (count : Nat) : (slotHead seq rst trigger count).length = 16 := by
  simp [slotHead, zeros]

theorem length_slotBody (es : List (BitVec 128)) : (slotBody es).length = 16 * es.length := by
  induction es with
  | nil => rfl
  | cons e es ih =>
    rw [slotBody, List.flatMap_cons, List.length_append, length_toBytes, List.length_cons]
    rw [slotBody] at ih
    omega

theorem entry_of_slotBody (es : List (BitVec 128)) {i : Nat} (h : i < es.length) :
    ((slotBody es).drop (16 * i)).take 16 = toBytes (es.getD i 0) 16 := by
  induction es generalizing i with
  | nil => exact absurd h (Nat.not_lt_zero i)
  | cons e es ih =>
    rw [slotBody, List.flatMap_cons]
    cases i with
    | zero => exact List.take_left' (length_toBytes e 16)
    | succ i =>
      rw [show 16 * (i + 1) = 16 + 16 * i by omega, ← List.drop_drop, List.drop_left' (length_toBytes e 16), List.getD_cons_succ]
      exact ih (Nat.lt_of_succ_lt_succ h)

section
variable (seq : BitVec 32) (rst trigger : BitVec 16) (es : List (BitVec 128))

theorem slotBytes_eq : slotBytes seq rst trigger es =
    (slotHead seq rst trigger es.length ++ (toBytes (crc32c (slotHead seq rst trigger es.length ++ slotBody es)) 4 ++ zeros 43 ++ [0xA5])) ++
      slotBody es := by
  simp only [slotBytes, slotHead, slotBody, List.append_assoc]

theorem take_slotBytes : (slotBytes seq rst trigger es).take 16 = slotHead seq rst trigger es.length := by
  rw [slotBytes_eq, List.append_assoc]
  exact List.take_left' (length_slotHead _ _ _ _)

theorem drop_slotBytes : (slotBytes seq rst trigger es).drop 64 = slotBody es := by
  rw [slotBytes_eq]
  refine List.drop_left' ?_
  simp [length_slotHead, zeros]

theorem crc_of_slotBytes : ((slotBytes seq rst trigger es).drop 16).take 4 =
    toBytes (crc32c (slotHead seq rst trigger es.length ++ slotBody es)) 4 := by
  rw [slotBytes_eq, List.append_assoc, List.drop_left' (length_slotHead _ _ _ _), List.append_assoc, List.append_assoc]
  exact List.take_left' (length_toBytes _ _)

theorem done_of_slotBytes : (slotBytes seq rst trigger es).getD 63 0 = 0xA5 := by
  have hlen : (slotHead seq rst trigger es.length ++
      (toBytes (crc32c (slotHead seq rst trigger es.length ++ slotBody es)) 4 ++ zeros 43)).length = 63 := by
    simp [length_slotHead, zeros]
  rw [slotBytes_eq, ← List.append_assoc, List.append_assoc, List.getD_append_right _ _ _ _ (by rw [hlen]), hlen]
  rfl

theorem slotValid_slotBytes (h : es.length ≤ 128) : slotValid (slotBytes seq rst trigger es) = true := by
  have hmagic : (slotBytes seq rst trigger es).take 4 = [0x47, 0x46, 0x42, 0x4B] := by
    rw [show (slotBytes seq rst trigger es).take 4 = ((slotBytes seq rst trigger es).take 16).take 4 by rw [List.take_take]; rfl,
      take_slotBytes]
    simp [slotHead]
  have hcount : ((slotBytes seq rst trigger es).getD 12 0).toNat = es.length := by
    rw [show (slotBytes seq rst trigger es).getD 12 0 = ((slotBytes seq rst trigger es).take 16).getD 12 0 by
      simp [List.getD_eq_getElem?_getD], take_slotBytes]
    have hget : (slotHead seq rst trigger es.length).getD 12 0 = BitVec.ofNat 8 es.length := by
      simp [slotHead, List.getD_eq_getElem?_getD, List.getElem?_append]
    rw [hget, BitVec.toNat_ofNat]
    exact Nat.mod_eq_of_lt (by omega)
  rw [slotValid, hmagic, done_of_slotBytes, hcount, take_slotBytes, drop_slotBytes, crc_of_slotBytes,
    padTo_of_length (length_slotBody es)]
  simp

theorem leAt_slotBytes_seq : leAt (slotBytes seq rst trigger es) 4 4 = seq.toNat := by
  have hbytes : ((slotBytes seq rst trigger es).drop 4).take 4 = toBytes seq 4 := by
    simp [slotBytes]
  rw [leAt, hbytes]
  exact fromBytes_toBytes_of_le seq (by norm_num)

theorem entry_of_slotBytes {i : Nat} (h : i < es.length) :
    ((slotBytes seq rst trigger es).drop (64 + 16 * i)).take 16 = toBytes (es.getD i 0) 16 := by
  rw [← List.drop_drop, drop_slotBytes]
  exact entry_of_slotBody es h

end

/-- Settles O46: the start and the end of a flush by their equations, and a slot's validity by its layout. -/
theorem fieldBookResults : Obligations.FieldBookResults := by
  intro s hs
  have hflush : exec .fbkFlush s = .next (s.flush 0x0FF).noticeCheck := by
    change execFbkFlush s = _
    rw [execFbkFlush, State.when_of_true _ hs]
  rw [hflush]
  refine ⟨fun hnone => ?_, fun f hsome => ?_, fun hnone => ?_, fun f hsome => ⟨fun hpend => ?_, fun k hpend => ?_⟩,
    fun seq rst trigger es hlen => ⟨slotValid_slotBytes _ _ _ _ hlen, leAt_slotBytes_seq _ _ _ _, fun i hi =>
      entry_of_slotBytes _ _ _ _ hi⟩⟩
  · rw [State.flush_of_none hnone, State.flushStart_eq]
    refine ⟨_, s.nextFlush 0x0FF, rfl, ?_, rfl, rfl, rfl, ?_, fun k hk => ?_, ?_⟩
    · rw [State.noticeCheck_aon]
    · rw [State.noticeCheck_slots, upd_get_same]
      exact getD_set_zero _ 63
    · rw [State.noticeCheck_slots]
      exact upd_get_ne _ _ (Ne.symm hk)
    · rw [State.noticeCheck_aon]
  · rw [State.flush_of_some hsome]
    refine ⟨_, rfl, ?_, ?_, ?_⟩
    · rw [State.noticeCheck_aon]
      exact hsome
    · rw [State.noticeCheck_aon]
      rfl
    · rw [State.noticeCheck_slots]
      rfl
  · change execFieldBookFlushEnd s = _
    rw [execFieldBookFlushEnd, hnone]
  · change execFieldBookFlushEnd s = _
    rw [execFieldBookFlushEnd, hsome]
    dsimp only
    rw [hpend]
  · change execFieldBookFlushEnd s = _
    rw [execFieldBookFlushEnd, hsome]
    dsimp only
    rw [hpend]

/-! ### The supply warning (R306, R307) -/

theorem State.fbEntry_ring (s : State) (source code : Nat) (data : BitVec 64) :
    (s.fbEntry source code data).aon.ring = s.aon.ring.set s.aon.fbHead
      (fbWord (if s.running then s.time.setWidth 48 else 0xFFFFFFFFFFFF) source code data) := rfl

theorem Phase.compares_iff (p : Phase) : p.compares = true ↔ p ≠ .strapWait ∧ p ≠ .borHeld ∧ p ≠ .dormant := by
  cases p <;> simp [Phase.compares]

/-- The warning as it is noted: its flags, its message and its entry. -/
def State.warnNoted (s : State) (vsys : BitVec 13) : State :=
  let s := s.modAon fun a => { a with warn := true, dip := true, holdoff := false }
  let s := (s.modSup fun x => { x with vsys := vsys }).raiseIf s.main.pwr.supEn 41
  s.fbEntry 0 0x020 (BitVec.ofNat 64 (vsys.toNat + 65536 * s.aon.vsysWarn.toNat))

/-- The divider force of a dip of VSYS (R31), and the notice that it ends. -/
def State.dipForced (s : State) : State := (s.modPwr fun p => { p with dipForce := true }.retarget).noticeCheck

section
variable {s : State} {vsys : BitVec 13}

theorem exec_supplyWarn (s : State) (vsys : BitVec 13) : exec (.supplyWarn vsys) s = .next (s.when
    (s.phase.compares && !s.aon.warn && vsys.toNat < s.aon.warnLevel) fun s =>
      (if s.aon.holdoff && (s.warnNoted vsys).aon.flushing.isSome then s.warnNoted vsys
        else (s.warnNoted vsys).flush 0x020).dipForced) := by
  change execSupplyWarn vsys s = _
  unfold execSupplyWarn State.warnNoted State.dipForced
  dsimp only

theorem exec_warningRecovery (s : State) (vsys : BitVec 13) : exec (.warningRecovery vsys) s = .next (s.when
    (s.phase.compares && s.aon.warn && s.aon.warnLevel + 50 < vsys.toNat) fun s =>
      (s.modAon fun a => { a with warn := false, holdoff := true }).modSup fun x => { x with vsys := vsys }) := rfl

theorem State.warnNoted_leaves (s : State) (vsys : BitVec 13) :
    (s.warnNoted vsys).aon.warn = true ∧ (s.warnNoted vsys).aon.dip = true ∧ (s.warnNoted vsys).aon.holdoff = false ∧
      (s.warnNoted vsys).main.sup.vsys = vsys ∧ (s.warnNoted vsys).main.queues = s.main.queues ∧
      (s.warnNoted vsys).main.stations = s.main.stations ∧ (s.warnNoted vsys).phase = s.phase ∧
      (s.warnNoted vsys).aon.ring = s.aon.ring.set s.aon.fbHead
        (fbWord (if s.running then s.time.setWidth 48 else 0xFFFFFFFFFFFF) 0 0x020
          (BitVec.ofNat 64 (vsys.toNat + 65536 * s.aon.vsysWarn.toNat))) := by
  rw [State.warnNoted, State.fbEntry_ring, State.raiseIf_rest]
  exact ⟨rfl, rfl, rfl, rfl, rfl, rfl, rfl, rfl⟩

/-- The flush of a warning: during the hold-off none is added to one that runs. -/
theorem State.warnFlush_leaves (s : State) (again : Bool) :
    let u := if again && s.aon.flushing.isSome then s else s.flush 0x020
    u.aon = { s.aon with flushing := u.aon.flushing, flushPend := u.aon.flushPend } ∧ u.aon.flushing.isSome = true ∧
      u.main = s.main ∧ u.phase = s.phase := by
  intro u
  by_cases h : (again && s.aon.flushing.isSome) = true
  · rw [show u = s from if_pos h]
    exact ⟨rfl, (Bool.and_eq_true_iff.mp h).2, rfl, rfl⟩
  · rw [show u = s.flush 0x020 from if_neg h]
    exact ⟨s.flush_aon _, s.flush_flushing _, s.flush_main _, s.flush_phase _⟩

theorem State.dipForced_leaves (s : State) : s.dipForced.aon = s.aon ∧ s.dipForced.phase = s.phase ∧
    s.dipForced.main.sup = s.main.sup ∧ s.dipForced.main.queues = s.main.queues ∧ s.dipForced.main.stations = s.main.stations ∧
    s.dipForced.main.pwr.dipForce = true ∧ s.dipForced.main.pwr.notice = false := by
  have hbusy : (s.modPwr fun p => { p with dipForce := true }.retarget).dormantIdle = false := by
    rw [State.dormantIdle]
    exact Bool.and_false _
  obtain ⟨hnotice, hdip⟩ := State.noticeCheck_pwr_of_busy hbusy
  refine ⟨State.noticeCheck_aon _, State.noticeCheck_phase _, ?_, ?_, ?_, hdip, hnotice⟩
  · rw [State.dipForced, State.noticeCheck_rest]
    rfl
  · rw [State.dipForced, State.noticeCheck_rest]
    rfl
  · rw [State.dipForced, State.noticeCheck_rest]
    rfl

theorem exec_supplyWarn_go (hphase : s.phase.compares = true) (hwarn : s.aon.warn = false)
    (hlow : vsys.toNat < s.aon.warnLevel) : ∃ u, exec (.supplyWarn vsys) s = .next u ∧
      u.aon.warn = true ∧ u.aon.dip = true ∧ u.aon.holdoff = false ∧ u.aon.flushing.isSome = true ∧ u.main.sup.vsys = vsys ∧
      u.main.pwr.dipForce = true ∧ u.main.pwr.notice = false ∧
      u.aon.ring = s.aon.ring.set s.aon.fbHead (fbWord (if s.running then s.time.setWidth 48 else 0xFFFFFFFFFFFF) 0 0x020
        (BitVec.ofNat 64 (vsys.toNat + 65536 * s.aon.vsysWarn.toNat))) ∧
      u.main.queues = s.main.queues ∧ u.main.stations = s.main.stations ∧ u.phase = s.phase := by
  obtain ⟨hw, hdip, hoff, hvsys, hq, hst, hph, hring⟩ := s.warnNoted_leaves vsys
  obtain ⟨haon, hsome, hmain, hphase'⟩ := (s.warnNoted vsys).warnFlush_leaves s.aon.holdoff
  obtain ⟨eaon, ephase, esup, equeues, estations, eforce, enotice⟩ := State.dipForced_leaves
    (if s.aon.holdoff && (s.warnNoted vsys).aon.flushing.isSome then s.warnNoted vsys else (s.warnNoted vsys).flush 0x020)
  refine ⟨_, ?_, ?_, ?_, ?_, ?_, ?_, eforce, enotice, ?_, ?_, ?_, ?_⟩
  · rw [exec_supplyWarn, State.when_of_true]
    rw [hphase, hwarn, decide_eq_true hlow]
    rfl
  · rw [eaon, haon]
    exact hw
  · rw [eaon, haon]
    exact hdip
  · rw [eaon, haon]
    exact hoff
  · rw [eaon]
    exact hsome
  · rw [esup, hmain]
    exact hvsys
  · rw [eaon, haon]
    exact hring
  · rw [equeues, hmain]
    exact hq
  · rw [estations, hmain]
    exact hst
  · rw [ephase, hphase']
    exact hph

end

/-! ### The charge counter (R311, R312) -/

theorem clampSense_eq (x : Int) : clampSense x = max (-32768) (min 32767 x) := by
  unfold clampSense
  split
  · omega
  · split <;> omega

theorem clampSense_bne (x : Int) : (clampSense x != x) = decide (x < -32768 ∨ 32767 < x) := by
  rw [bne, Bool.eq_iff_iff, Bool.not_eq_true', beq_eq_false_iff_ne, decide_eq_true_iff]
  unfold clampSense
  split
  · omega
  · split <;> omega

theorem State.setCharge_of_not_empty {s : State} {v : BitVec 64}
    (h : ¬ (s.main.sup.emptyLevel.toInt < s.main.sup.charge.toInt ∧ v.toInt ≤ s.main.sup.emptyLevel.toInt)) :
    s.setCharge v = s.modSup fun x => { x with charge := v } :=
  if_neg (by rw [Bool.and_eq_true, decide_eq_true_iff, decide_eq_true_iff]; exact h)

theorem State.setCharge_of_empty {s : State} {v : BitVec 64}
    (h : s.main.sup.emptyLevel.toInt < s.main.sup.charge.toInt ∧ v.toInt ≤ s.main.sup.emptyLevel.toInt) :
    s.setCharge v = (s.modSup fun x => { x with charge := v, chargeEmpty := true, capCharge := v, capVsys := x.vsys
                                                capTime := s.time }).raiseIf s.main.sup.irqEn 42 :=
  if_pos (by rw [Bool.and_eq_true, decide_eq_true_iff, decide_eq_true_iff]; exact h)

/-- Settles O44: the comparator's two commands by their equations, and a sample by what the empty level makes of it. -/
theorem supplyResults : Obligations.SupplyResults := by
  intro vsys sense v h s level
  have hlevel : level = s.aon.warnLevel := rfl
  refine ⟨fun h1 h2 h3 => ?_, fun h => ?_, fun h => ?_, fun h => ?_, fun hoff => ?_, fun hoff => ?_, fun hs => ?_, ?_, ?_⟩
  · have hphase := s.phase.compares_iff.mpr ⟨h1, h2, h3⟩
    refine ⟨fun hwarn hlow => exec_supplyWarn_go hphase hwarn hlow, fun hwarn hhigh => ?_⟩
    rw [hlevel] at hhigh
    rw [exec_warningRecovery, State.when_of_true]
    rw [hphase, hwarn, decide_eq_true hhigh]
    rfl
  · rw [exec_supplyWarn, State.when_of_false]
    obtain h | h := h
    · simp [h]
    · simp [show ¬ vsys.toNat < s.aon.warnLevel from Nat.not_lt.mpr h]
  · rw [exec_warningRecovery, State.when_of_false]
    obtain h | h := h
    · simp [h]
    · simp [show ¬ s.aon.warnLevel + 50 < vsys.toNat from Nat.not_lt.mpr h]
  · have hphase : s.phase.compares = false := by
      rw [Bool.eq_false_iff, ne_eq, s.phase.compares_iff]
      tauto
    constructor
    · rw [exec_supplyWarn, hphase]
      rfl
    · rw [exec_warningRecovery, hphase]
      rfl
  · change execHoldoffEnd s = _
    rw [execHoldoffEnd, State.when_of_false _ hoff]
  · refine ⟨(s.modAon fun a => { a with holdoff := false }).modPwr fun p => { p with dipForce := false }.retarget, ?_, rfl, rfl,
      fun hdiv => ?_⟩
    · change execHoldoffEnd s = _
      rw [execHoldoffEnd, State.when_of_true _ hoff]
    · have hdiv' : ({ s.main.pwr with dipForce := false } : Power).target ≠ s.main.pwr.effDiv := by
        rw [Power.target_eq]
        exact fun heq => hdiv heq.symm
      exact Bool.or_eq_true_iff.mpr (Or.inr (bne_iff_ne.mpr hdiv'))
  · intro x c y empty
    have hc : clampSense sense = c := clampSense_eq sense
    have hsample : x.en = true → exec (.chargeSample sense vsys) s =
        .next ((s.modSup fun x => { x with vsys := vsys, sense := BitVec.ofInt 16 c,
                                           adcSat := x.adcSat || decide (sense < -32768 ∨ 32767 < sense) }).setCharge
          (x.charge - BitVec.ofInt 64 c)) := by
      intro hen
      rw [← hc, ← clampSense_bne]
      change execChargeSample sense vsys s = _
      rw [execChargeSample, State.when_of_true _ (by rw [State.running_of_serving hs]; exact hen)]
      rfl
    have hwrite : exec (.supCharge (.both v)) s = .next (s.setCharge v) := by
      change execSupCharge (.both v) s = _
      rw [execSupCharge, State.when_of_true _ hs]
      rfl
    refine ⟨fun hen => ?_, fun hen hfull => ?_, fun hen hempty => ?_, fun h => ?_⟩
    · change execChargeSample sense vsys s = _
      rw [execChargeSample, State.when_of_false _ (by rw [State.running_of_serving hs]; exact hen)]
    · exact (hsample hen).trans (congrArg Host.Outcome.next (State.setCharge_of_not_empty hfull))
    · exact (hsample hen).trans (congrArg Host.Outcome.next (State.setCharge_of_empty hempty))
    · have hkeep : ¬ (x.emptyLevel.toInt < x.charge.toInt ∧ v.toInt ≤ x.emptyLevel.toInt) := by omega
      rw [hwrite, State.setCharge_of_not_empty hkeep]
  · change execSupCharge (.low h) s = _
    rw [execSupCharge]
    exact congrArg Host.Outcome.next (State.when_cases (P := fun v => v = s) s _ _ (fun _ => rfl) fun _ => rfl)
  · change execSupCharge (.high h) s = _
    rw [execSupCharge]
    exact congrArg Host.Outcome.next (State.when_cases (P := fun v => v = s) s _ _ (fun _ => rfl) fun _ => rfl)

end Sys2Proof.Machine

/-!
## Serial ports (chapter 15)
-/

namespace Sys2Proof.Machine

/-! ### The bits of a character (R317) -/

/-- The data bits of a character, from the least significant. -/
def Uart.lineData (x : Uart) (b : BitVec 8) : List Bool := (List.range (5 + x.cfg.active.dbits.toNat)).map fun i => b.getLsbD i

/-- The parity bit, where the format has one. -/
def Uart.lineParity (x : Uart) (b : BitVec 8) : List Bool :=
  if x.cfg.active.parity = 1 then [(x.lineData b).count true % 2 == 1]
  else if x.cfg.active.parity = 2 then [!((x.lineData b).count true % 2 == 1)] else []

theorem Uart.charBits_eq (x : Uart) (b : BitVec 8) : x.charBits b =
    false :: (x.lineData b ++ (x.lineParity b ++ List.replicate (if x.cfg.active.stop2 then 2 else 1) true)) := by
  have hcount : (x.lineData b).countP id = (x.lineData b).count true := by
    rw [List.count]
    exact List.countP_congr fun c _ => by simp
  have hparity : x.lineParity b = if x.hasParity
      then [if x.cfg.active.parity = 1 then (x.lineData b).countP id % 2 == 1 else !((x.lineData b).countP id % 2 == 1)] else [] := by
    rw [hcount, Uart.lineParity, Uart.hasParity]
    by_cases h1 : x.cfg.active.parity = 1
    · simp [h1]
    · by_cases h2 : x.cfg.active.parity = 2
      · simp [h2]
      · simp [show x.cfg.active.parity ≠ 1#2 from h1, show x.cfg.active.parity ≠ 2#2 from h2]
  rw [hparity]
  simp [Uart.charBits, Uart.lineData]

theorem Uart.length_lineData (x : Uart) (b : BitVec 8) : (x.lineData b).length = 5 + x.cfg.active.dbits.toNat := by
  simp [Uart.lineData]

theorem Uart.length_lineParity (x : Uart) (b : BitVec 8) :
    (x.lineParity b).length = if x.cfg.active.parity = 1 ∨ x.cfg.active.parity = 2 then 1 else 0 := by
  unfold Uart.lineParity
  by_cases h1 : x.cfg.active.parity = 1
  · simp [h1]
  · by_cases h2 : x.cfg.active.parity = 2
    · simp [h2]
    · simp [show x.cfg.active.parity ≠ 1#2 from h1, show x.cfg.active.parity ≠ 2#2 from h2]

/-- The data bits with the parity bit behind them. -/
theorem Uart.take_charBits {x : Uart} {b : BitVec 8} {p : Bool} (h : x.lineParity b = [p]) :
    ((x.charBits b).drop 1).take (5 + x.cfg.active.dbits.toNat + 1) = x.lineData b ++ [p] := by
  rw [Uart.charBits_eq, h, List.drop_one, List.tail_cons, ← List.append_assoc]
  exact List.take_left' (by rw [List.length_append, x.length_lineData]; rfl)

theorem even_count_parity (l : List Bool) : (l ++ [l.count true % 2 == 1]).count true % 2 = 0 := by
  rw [List.count_append]
  obtain h | h := Nat.mod_two_eq_zero_or_one (l.count true)
  · simp [h]
  · simp [h, Nat.add_mod]

theorem odd_count_parity (l : List Bool) : (l ++ [!(l.count true % 2 == 1)]).count true % 2 = 1 := by
  rw [List.count_append]
  obtain h | h := Nat.mod_two_eq_zero_or_one (l.count true)
  · simp [h, Nat.add_mod]
  · simp [h]

theorem Uart.charBits_line (x : Uart) (b : BitVec 8) : let n := 5 + x.cfg.active.dbits.toNat
    let par := x.cfg.active.parity = 1 ∨ x.cfg.active.parity = 2
    let line := x.charBits b
    line.getD 0 true = false ∧ (∀ i < n, line.getD (1 + i) false = b.getLsbD i) ∧
    (x.cfg.active.parity = 1 → ((line.drop 1).take (n + 1)).count true % 2 = 0) ∧
    (x.cfg.active.parity = 2 → ((line.drop 1).take (n + 1)).count true % 2 = 1) ∧
    line.drop (1 + n + if par then 1 else 0) = List.replicate (if x.cfg.active.stop2 then 2 else 1) true := by
  intro n par line
  have hline : line = false :: (x.lineData b ++ (x.lineParity b ++ List.replicate (if x.cfg.active.stop2 then 2 else 1) true)) :=
    x.charBits_eq b
  refine ⟨?_, fun i hi => ?_, fun h1 => ?_, fun h2 => ?_, ?_⟩
  · rw [hline]
    rfl
  · rw [hline, Nat.add_comm, List.getD_cons_succ, List.getD_append _ _ _ _ (by rw [x.length_lineData]; exact hi)]
    simp [Uart.lineData, List.getD_eq_getElem?_getD, show i < 5 + x.cfg.active.dbits.toNat from hi]
  · have hpar : x.lineParity b = [(x.lineData b).count true % 2 == 1] := if_pos h1
    rw [show (line.drop 1).take (n + 1) = _ from Uart.take_charBits hpar]
    exact even_count_parity _
  · have hpar : x.lineParity b = [!((x.lineData b).count true % 2 == 1)] := by
      rw [Uart.lineParity, h2]
      rfl
    rw [show (line.drop 1).take (n + 1) = _ from Uart.take_charBits hpar]
    exact odd_count_parity _
  · have hlen : (x.lineData b ++ x.lineParity b).length = n + if par then 1 else 0 := by
      rw [List.length_append, x.length_lineData, x.length_lineParity]
    rw [hline, Nat.add_assoc, Nat.add_comm 1, List.drop_succ_cons, ← List.append_assoc]
    exact List.drop_left' hlen

/-! ### The registers and the line of a port (R319 to R324, R327, R362) -/

section
variable {u : Fin 2} {s : State}

theorem exec_sernDataWrite (hs : s.serving = true) (b : BitVec 8) : exec (.sernDataWrite u b) s = .next (s.serialWrite u b) := by
  change execSernDataWrite u b s = _
  rw [execSernDataWrite, State.when_of_true _ hs]

theorem State.serialWrite_uart (h : s.frameMode u = false) (b : BitVec 8) : s.serialWrite u b = s.modUart u fun x =>
    if !x.cfg.active.txen then x else if x.txHold.isSome then { x with txLost := true } else { x with txHold := some b } := by
  rw [State.serialWrite, h]
  rfl

theorem upd_of_fixed {α : Type} {n : Nat} {v : Vector α n} {i : Fin n} {f : α → α} (h : f v[i] = v[i]) : upd v i f = v := by
  rw [upd, h]
  exact Vector.set_getElem_self i.isLt

theorem State.modUart_self (s : State) (u : Fin 2) {f : Uart → Uart} (h : f (s.main.uarts[u]) = s.main.uarts[u]) :
    s.modUart u f = s := by
  have hupd : upd s.main.uarts u f = s.main.uarts := upd_of_fixed h
  rw [State.modUart, State.modMain, hupd]

theorem exec_sernDataRead_frame (hs : s.serving = true) (h : s.frameMode u = true) :
    exec (.sernDataRead u) s = .next { s with readData := [0, 0, 0, 0] } := by
  change execSernDataRead u s = _
  rw [execSernDataRead, hs, h]
  rfl

theorem exec_sernDataRead_uart (hs : s.serving = true) (h : s.frameMode u = false) :
    exec (.sernDataRead u) s = .next ({ s with readData := [(s.main.uarts[u]).rxHold, 0, 0, 0] }.modUart u fun x =>
      { x with rxFull := false, flags := x.flags &&& ~~~x.marks, marks := 0 }) := by
  change execSernDataRead u s = _
  rw [execSernDataRead, hs, h]
  rfl

theorem exec_sernStatRead (hs : s.serving = true) :
    exec (.sernStatRead u) s = .next ({ s with readData := toBytes (s.main.uarts[u]).stat 4 }.modUart u fun x =>
      { x with marks := x.marks ||| x.flags }) := by
  change execSernStatRead u s = _
  rw [execSernStatRead, hs]
  rfl

theorem flags_and_not_marked (f m : BitVec 5) : f &&& ~~~(m ||| f) = 0 := by
  ext i hi
  simp only [BitVec.getElem_and, BitVec.getElem_not, BitVec.getElem_or]
  cases f[i] <;> simp

/-- R324: a read of the data after a read of the status clears every flag that the status showed. -/
theorem exec_sernStatRead_dataRead (hs : s.serving = true) (h : s.frameMode u = false) :
    ∃ t v, exec (.sernStatRead u) s = .next t ∧ exec (.sernDataRead u) t = .next v ∧ v.main.uarts[u].flags = 0 ∧
      v.main.uarts[u].rxFull = false ∧ t.readData = toBytes (s.main.uarts[u]).stat 4 ∧
      v.readData = [(s.main.uarts[u]).rxHold, 0, 0, 0] := by
  have hget : ∀ (v : State) (f : Uart → Uart), (v.modUart u f).main.uarts[u] = f (v.main.uarts[u]) :=
    fun v f => upd_get_same v.main.uarts u f
  have hmode : ∀ (v : State) (f : Uart → Uart), (∀ x, (f x).cfg = x.cfg) → (v.modUart u f).frameMode u = v.frameMode u := by
    intro v f hf
    rw [State.frameMode, State.frameMode, hget, hf]
  refine ⟨_, _, exec_sernStatRead hs, exec_sernDataRead_uart hs ((hmode _ _ fun _ => by rfl).trans h), ?_, ?_, rfl, ?_⟩
  · rw [hget]
    dsimp only
    rw [hget]
    exact flags_and_not_marked _ _
  · rw [hget]
  · change [((State.modUart _ u _).main.uarts[u]).rxHold, 0, 0, 0] = _
    rw [hget]

theorem exec_characterStart (h : s.serialOn = true) (hframe : s.frameMode u = false) :
    exec (.characterStart u) s = .next (s.modUart u fun x =>
      if x.cfg.pending.isSome then { x with txShift := none } else { x with txShift := x.txHold.map x.charBits, txHold := none }) := by
  change execCharacterStart u s = _
  rw [execCharacterStart, State.when_of_true _ (by rw [h, hframe]; rfl)]

theorem exec_characterStart_off (h : s.serialOn = false) : exec (.characterStart u) s = .next s := by
  change execCharacterStart u s = _
  rw [execCharacterStart, State.when_of_false _ (by rw [h]; rfl)]

theorem exec_characterReceived (u : Fin 2) (c : RxChar) (s : State) : exec (.characterReceived u c) s = .next (s.when
    (s.serialOn && !s.frameMode u && (s.main.uarts[u]).cfg.active.rxen && startSeen c.start &&
      !sampleValue c.start.samples) fun s => s.modUart u fun x => x.finish c) := rfl

theorem exec_falseStart (u : Fin 2) (b : StartBit) (s : State) : exec (.falseStart u b) s = .next (s.when
    (s.serialOn && startSeen b && sampleValue b.samples && samplesNoisy b.samples) fun s =>
      if s.frameMode u then s.modLin fun l => { l with noise := l.noise || l.inFrame }
      else if (s.main.uarts[u]).cfg.active.rxen then s.modUart u fun x => x.setFlags 8
      else s) := rfl

theorem exec_falseStart_go {b : StartBit} (hon : s.serialOn = true) (hseen : 16 ≤ b.high) (hhigh : sampleValue b.samples = true)
    (hnoisy : samplesNoisy b.samples = true) : exec (.falseStart u b) s = .next
      (if s.frameMode u then s.modLin fun l => { l with noise := l.noise || l.inFrame }
      else if (s.main.uarts[u]).cfg.active.rxen then s.modUart u fun x => x.setFlags 8
      else s) := by
  rw [exec_falseStart, State.when_of_true]
  rw [hon, hhigh, hnoisy, startSeen, decide_eq_true hseen]
  rfl

theorem exec_serSetActivate (u : Fin 2) (s : State) : exec (.serSetActivate u) s = .next (s.when
    (s.serving && (s.main.uarts[u]).txShift.isNone && (u == 0 || s.main.lin.state == 0)) fun s =>
      s.modUart u fun x => { x with cfg := x.cfg.activate }) := rfl

end

/-- Settles O50: the bits of a character by their place on the line, and each command by its equation. -/
theorem serialPorts : Obligations.SerialPorts := by
  refine ⟨fun x b => x.charBits_line b, fun u b c st s hs => ?_⟩
  intro x high noisy
  have hhigh : high ↔ sampleValue st.samples = true := (sampleValue_iff st.samples).symm
  have hnoisy : noisy ↔ samplesNoisy st.samples = true := (samplesNoisy_iff st.samples).symm
  refine ⟨fun hframe => ⟨?_, exec_sernDataRead_frame hs hframe⟩, fun hframe => ⟨fun htx => ?_, fun htx hhold => ?_, fun htx hhold => ?_,
      exec_sernDataRead_uart hs hframe, exec_sernStatRead_dataRead hs hframe⟩, ?_, fun p hp hshift hidle => ?_, fun hshift => ?_,
    fun hoff => ?_, fun h => ?_, fun hpwr hpad hseen h1 h2 hframe => ?_, fun hpwr hpad hframe =>
      ⟨fun hpend => ?_, fun hpend => ?_, fun hrx => ?_, fun hrx hseen h1 h2 => ?_⟩⟩
  · rw [exec_sernDataWrite hs, State.serialWrite, hframe]
    rfl
  · rw [exec_sernDataWrite hs, State.serialWrite_uart hframe, State.modUart_self]
    rw [show (s.main.uarts[u]).cfg.active.txen = false from htx]
    rfl
  · rw [exec_sernDataWrite hs, State.serialWrite_uart hframe]
    refine congrArg Host.Outcome.next (State.modUart_congr ?_)
    rw [show (s.main.uarts[u]).cfg.active.txen = true from htx, show (s.main.uarts[u]).txHold = none from hhold]
    rfl
  · rw [exec_sernDataWrite hs, State.serialWrite_uart hframe]
    refine congrArg Host.Outcome.next (State.modUart_congr ?_)
    rw [show (s.main.uarts[u]).cfg.active.txen = true from htx, show (s.main.uarts[u]).txHold.isSome = true from
      Option.isSome_iff_ne_none.mpr hhold]
    rfl
  · change execSernCommit u s = _
    rw [execSernCommit, State.when_of_true _ hs]
    rfl
  · rw [exec_serSetActivate, State.when_of_true]
    · refine congrArg Host.Outcome.next (State.modUart_congr ?_)
      rw [Staged.activate, show (s.main.uarts[u]).cfg.pending = some p from hp]
    · have hline : (u == 0 || s.main.lin.state == 0) = true := by
        by_cases hu : u = 1
        · rw [hidle hu]
          exact Bool.or_true _
        · have hu0 : u = 0 := by omega
          rw [hu0]
          rfl
      rw [hs, show (s.main.uarts[u]).txShift = none from hshift, hline]
      rfl
  · rw [exec_serSetActivate, State.when_of_false]
    rw [Option.isNone_eq_false_iff.mpr (Option.isSome_iff_ne_none.mpr hshift), Bool.and_false]
    rfl
  · have hoff' : s.serialOn = false := by
      obtain h | h := hoff
      · simp [State.serialOn, State.stationsOn, h]
      · simp [State.serialOn, h]
    refine ⟨exec_characterStart_off hoff', ?_, ?_⟩
    · rw [exec_characterReceived, hoff']
      rfl
    · rw [exec_falseStart, hoff']
      rfl
  · rw [exec_falseStart, State.when_of_false]
    obtain h | h | h := h
    · simp [startSeen, Nat.not_le.mpr h]
    · simp [Bool.eq_false_iff.mpr (mt hhigh.mpr h)]
    · simp [Bool.eq_false_iff.mpr (mt hnoisy.mpr h)]
  · rw [exec_falseStart_go (State.serialOn_of hs hpwr hpad) hseen (hhigh.mp h1) (hnoisy.mp h2), hframe]
    rfl
  · rw [exec_characterStart (State.serialOn_of hs hpwr hpad) hframe]
    refine congrArg Host.Outcome.next (State.modUart_congr ?_)
    rw [show (s.main.uarts[u]).cfg.pending = none from hpend]
    rfl
  · rw [exec_characterStart (State.serialOn_of hs hpwr hpad) hframe]
    refine congrArg Host.Outcome.next (State.modUart_congr ?_)
    rw [if_pos (Option.isSome_iff_ne_none.mpr hpend)]
  · rw [exec_characterReceived, State.when_of_false]
    rw [show (s.main.uarts[u]).cfg.active.rxen = false from hrx, Bool.and_false]
    rfl
  · rw [exec_falseStart_go (State.serialOn_of hs hpwr hpad) hseen (hhigh.mp h1) (hnoisy.mp h2), hframe,
      show (s.main.uarts[u]).cfg.active.rxen = true from hrx]
    rfl

end Sys2Proof.Machine

/-!
## LIN frames (R327 to R334)
-/

namespace Sys2Proof.Machine

/-! ### Identifiers, headers and responses -/

theorem pidOf_bits (id : BitVec 6) : (pidOf id).setWidth 6 = id ∧
    (pidOf id).getLsbD 6 = (id.getLsbD 0 ^^ id.getLsbD 1 ^^ id.getLsbD 2 ^^ id.getLsbD 4) ∧
    (pidOf id).getLsbD 7 = !(id.getLsbD 1 ^^ id.getLsbD 3 ^^ id.getLsbD 4 ^^ id.getLsbD 5) := by
  revert id
  decide

theorem SerCfg.headerBits_eq (c : SerCfg) (id : BitVec 6) : c.headerBits id = List.replicate (13 + c.linBreak.toNat) false ++
    List.replicate (1 + c.linDelim.toNat) true ++ [false, true, false, true, false, true, false, true, false, true] ++
    [false] ++ (List.range 8).map (fun i => (pidOf id).getLsbD i) ++ [true] := by
  have hsync : ([false] ++ (List.range 8).map (fun i => (0x55 : BitVec 8).getLsbD i) ++ [true] : List Bool) =
      [false, true, false, true, false, true, false, true, false, true] := by decide
  rw [SerCfg.headerBits, SerCfg.breakBits, SerCfg.delimBits, lineBits, List.flatMap_cons, List.flatMap_cons, List.flatMap_nil, hsync]
  simp only [List.append_assoc, List.append_nil]

/-- The frame of an identifier, with what its publisher captures. -/
def Lin.captured (l : Lin) (id : BitVec 6) : Lin :=
  { l with id := id, pidByte := pidOf id, sending := l.buf.getD id.toNat 0, state := 5 }

theorem Lin.accept_eq (l : Lin) (id : BitVec 6) : l.accept id =
    if (l.captured id).dir = 0 then (l.captured id).endFrame 0
    else { l.captured id with out := if (l.captured id).dir = 1 then lineBits (l.captured id).published else [] } := rfl

theorem Lin.length_published (l : Lin) : l.published.length = min 8 l.len + 1 := by
  simp [Lin.published, Nat.min_comm]

theorem Lin.getD_published (l : Lin) {i : Nat} (h : i < min 8 l.len) : l.published.getD i 0 = byteOf l.sending i := by
  have hlen : ((toBytes l.sending 8).take l.len).length = min 8 l.len := by simp [Nat.min_comm]
  rw [Lin.published, List.getD_append _ _ _ _ (by rw [hlen]; exact h), List.getD_eq_getElem _ _ (by rw [hlen]; exact h), List.getElem_take,
    getElem_toBytes]

theorem linChecksum_diagnostic {id : BitVec 6} (h : id = 0x3C ∨ id = 0x3D) (pid : BitVec 8) (data : List Byte) :
    linChecksum id true pid data = linChecksum id false pid data := by
  obtain rfl | rfl := h
  · rfl
  · rfl

/-! ### Headers and wake pulses -/

section
variable {s : State}

theorem exec_ser1LinHdr (hs : s.serving = true) (id : BitVec 6) (go : Bool) :
    exec (.ser1LinHdr id go) s = .next (s.linHeader id go) := by
  change execSer1LinHdr id go s = _
  rw [execSer1LinHdr, State.when_of_true _ hs]

theorem State.linHeader_busy (h : s.main.lin.state ≠ 0) (id : BitVec 6) (go : Bool) :
    s.linHeader id go = s.modLin fun l => { l with hdrLost := true } := if_pos (bne_iff_ne.mpr h)

theorem State.linHeader_idle (h : s.main.lin.state = 0) (id : BitVec 6) (go : Bool) : s.linHeader id go =
    if go && s.lin.linEn && s.lin.linRole && s.stationsOn && (s.main.uarts[1]).cfg.pending.isNone then
      s.modLin fun l => { l with state := 1, id := id, out := s.lin.headerBits id, clocks := 0 }
    else s := if_neg (by rw [h]; decide)

theorem exec_ser1LinWake (hs : s.serving = true) (us : BitVec 13) : exec (.ser1LinWake us true) s = .next (s.linWake us) := by
  change execSer1LinWake us true s = _
  rw [execSer1LinWake, State.when_of_true _ (by rw [hs]; rfl)]

/-! ### What ends a header -/

theorem Lin.inFrame_iff (l : Lin) : l.inFrame = true ↔ 1 ≤ l.state.toNat ∧ l.state.toNat ≤ 5 := by
  simp [Lin.inFrame]

/-- STATE of a frame whose PID has not come. -/
theorem Lin.header_of (l : Lin) (h1 : 1 ≤ l.state.toNat) (h4 : l.state.toNat ≤ 4) : l.inFrame = true ∧ (l.state != 5) = true := by
  refine ⟨l.inFrame_iff.mpr ⟨h1, by omega⟩, bne_iff_ne.mpr fun h => ?_⟩
  rw [h] at h4
  exact absurd h4 (by decide)

theorem exec_hdrTimeout (hon : s.linOn = true) (hframe : s.main.lin.inFrame = true) (h5 : (s.main.lin.state != 5) = true) :
    exec .hdrTimeout s =
      .next (s.modLin fun l => { l with noise := l.noise || Config.lineNoise s.stamp }.endFrame 5).nextStamp := by
  change execHdrTimeout s = _
  rw [execHdrTimeout, State.when_of_true _ (by rw [hon, hframe, h5]; rfl)]

theorem exec_frameEnd (hon : s.linOn = true) (hframe : s.main.lin.inFrame = true) (e : FrameEvent) :
    exec (.frameEnd e) s = .next (s.modLin fun l => l.response s.lin.linRole e) := by
  change execFrameEnd e s = _
  rw [execFrameEnd, State.when_of_true _ (by rw [hon, hframe]; rfl)]

/-- What a PID makes of the frame (R329, R331, R332). -/
def Lin.pidSeen (l : Lin) (c : SerCfg) (h : LinHeader) : Lin :=
  let l := { l with noise := l.noise || h.noise }
  let id : BitVec 6 := h.pid.setWidth 6
  let d := 2 * h.t8.toNat
  if c.linRole then l.accept l.id
  else if c.linAdapt && !adaptOk c.divisor.toNat d then l.endFrame 4
  else if !c.linAdapt && !h.syncOk then l.endFrame 4
  else
    let l := if c.linAdapt then { l with meas := BitVec.ofNat 24 d } else l
    if h.pid = pidOf id then l.accept id else { l with id := id }.endFrame 3

theorem exec_pid (hon : s.linOn = true) (hframe : s.main.lin.inFrame = true) (h5 : (s.main.lin.state != 5) = true) (h : LinHeader) :
    exec (.pid h) s = .next (s.modLin fun l => l.pidSeen s.lin h) := by
  change execPid h s = _
  rw [execPid, State.when_of_true _ (by rw [hon, hframe, h5]; rfl)]
  rfl

theorem exec_noResponse (hon : s.linOn = true) (hstate : s.main.lin.state = 5) (hdir : s.main.lin.dir = 2) {r : PartResponse}
    (hlen : r.received.val ≤ s.main.lin.len) : exec (.noResponse r) s = .next
      (s.modLin fun l => { l with noise := l.noise || r.noise }.endFrame (if r.received = 0 then 6 else 7)) := by
  change execNoResponse r s = _
  rw [execNoResponse, State.when_of_true _ (by rw [hon, hstate, hdir, decide_eq_true hlen]; rfl)]

/-- A break that a responder sees (R332). -/
theorem exec_breakSeen_go (hon : s.linOn = true) (hrole : s.lin.linRole = false) (hpend : s.main.uarts[(1 : Fin 2)].cfg.pending = none)
    (hstate : s.main.lin.state = 0 ∨ s.main.lin.inFrame = true) :
    exec .breakSeen s = .next (((s.modLin fun l =>
      if l.inFrame then { l with noise := l.noise || Config.lineNoise s.stamp }.endFrame 9 else l).modLin fun l =>
        { l with state := 1, id := (Config.freeByte s.stamp 0).setWidth 6 }).nextStamp) := by
  have hnot6 : (s.main.lin.state != 6) = true := by
    refine bne_iff_ne.mpr fun h6 => ?_
    obtain h | h := hstate
    · rw [h] at h6
      cases h6
    · rw [Lin.inFrame, h6] at h
      cases h
  change execBreakSeen s = _
  rw [execBreakSeen, State.when_of_true _ (by rw [hon, hrole, hnot6]; rfl)]
  dsimp only
  rw [if_neg]
  · rfl
  · rw [State.modLin_main]
    dsimp only
    rw [show s.main.uarts[1].cfg.pending = none from hpend]
    decide

theorem Lin.response_bitError {l : Lin} (h : l.state ≠ 5 ∨ l.dir = 1) (e : Bool) :
    l.response true (.bitError e) = { l with noise := l.noise || e }.endFrame 1 := by
  refine if_pos ?_
  obtain h | h := h
  · rw [bne_iff_ne.mpr h]
    rfl
  · rw [decide_eq_true h, Bool.or_true]
    rfl

theorem Lin.response_published {l : Lin} (h5 : l.state = 5) (hdir : l.dir = 1) (commander e : Bool) :
    l.response commander (.published e) = { l with noise := l.noise || e }.endFrame 0 :=
  if_pos (by rw [decide_eq_true h5, decide_eq_true hdir]; rfl)

/-- A subscribed response whose characters all came (R330, R333). -/
theorem Lin.response_received {l : Lin} (h5 : l.state = 5) (hdir : l.dir = 2) (commander : Bool) (bytes : List Byte) (sum : BitVec 8)
    (framing e : Bool) : l.response commander (.received bytes sum framing e) =
      if framing then { l with noise := l.noise || e }.endFrame 8
      else if sum != linChecksum l.id l.enhanced l.pidByte (padTo l.len bytes) then { l with noise := l.noise || e }.endFrame 2
      else { l with
        noise := l.noise || e
        buf := upd l.buf (Fin.ofNat 64 l.id.toNat) fun old => word 64 (padTo l.len bytes ++ (toBytes old 8).drop l.len) }.endFrame 0 :=
  if_pos (by rw [decide_eq_true h5, decide_eq_true hdir]; rfl)

theorem Lin.response_framing {l : Lin} (h5 : l.state = 5) (hdir : l.dir = 2) (commander : Bool) (bytes : List Byte) (sum : BitVec 8)
    (e : Bool) : l.response commander (.received bytes sum true e) = { l with noise := l.noise || e }.endFrame 8 := by
  rw [Lin.response_received h5 hdir]
  rfl

theorem Lin.response_badSum {l : Lin} (h5 : l.state = 5) (hdir : l.dir = 2) (commander : Bool) {bytes : List Byte} {sum : BitVec 8}
    (e : Bool) (hlen : bytes.length = l.len) (hsum : sum ≠ linChecksum l.id l.enhanced l.pidByte bytes) :
    l.response commander (.received bytes sum false e) = { l with noise := l.noise || e }.endFrame 2 := by
  rw [Lin.response_received h5 hdir, padTo_of_length hlen]
  exact if_pos (bne_iff_ne.mpr hsum)

theorem Lin.response_taken {l : Lin} (h5 : l.state = 5) (hdir : l.dir = 2) (commander : Bool) {bytes : List Byte} {sum : BitVec 8}
    (e : Bool) (hlen : bytes.length = l.len) (hsum : sum = linChecksum l.id l.enhanced l.pidByte bytes) :
    l.response commander (.received bytes sum false e) = { l with
      noise := l.noise || e
      buf := upd l.buf (Fin.ofNat 64 l.id.toNat) fun old => word 64 (bytes ++ (toBytes old 8).drop bytes.length) }.endFrame 0 := by
  rw [Lin.response_received h5 hdir, padTo_of_length hlen, ← hsum, hlen, if_neg Bool.false_ne_true]
  exact if_neg (by simp)

end

/-! ### The buffer of a received response (R330) -/

/-- The digits of a number made of bytes are those bytes. -/
theorem fromBytes_digit (bs : List Byte) (i : Nat) : fromBytes bs / 256 ^ i % 256 = (bs.getD i 0).toNat := by
  induction bs generalizing i with
  | nil => simp [fromBytes]
  | cons b bs ih =>
    cases i with
    | zero =>
      rw [fromBytes, Nat.pow_zero, Nat.div_one, List.getD_cons_zero, Nat.add_mul_mod_self_left]
      exact Nat.mod_eq_of_lt b.isLt
    | succ i =>
      have hb : (b.toNat + 256 * fromBytes bs) / 256 = fromBytes bs := by
        have := b.isLt
        omega
      rw [fromBytes, Nat.pow_succ, Nat.mul_comm (256 ^ i), ← Nat.div_div_eq_div_mul, hb, List.getD_cons_succ]
      exact ih i

theorem byteOf_word64 (bs : List Byte) {i : Nat} (hi : i < 8) : byteOf (word 64 bs) i = bs.getD i 0 := by
  refine BitVec.eq_of_toNat_eq ?_
  have hword : (word 64 bs).toNat = fromBytes bs % (256 ^ i * 256 ^ (8 - i)) := by
    rw [word, BitVec.toNat_ofNat, ← Nat.pow_add, Nat.add_sub_cancel' hi.le]
  have hdvd : 256 ∣ 256 ^ (8 - i) := dvd_pow_self 256 (by omega)
  rw [byteOf_toNat, hword, Nat.mod_mul_right_div_self, Nat.mod_mod_of_dvd _ hdvd, fromBytes_digit]

/-- The bytes of a received response stand at the start of the identifier's buffer; the others stay. -/
theorem byteOf_received (data : List Byte) (old : BitVec 64) {i : Nat} (hi : i < 8) :
    byteOf (word 64 (data ++ (toBytes old 8).drop data.length)) i = if i < data.length then data.getD i 0 else byteOf old i := by
  rw [byteOf_word64 _ hi]
  by_cases h : i < data.length
  · rw [if_pos h, List.getD_append _ _ _ _ h]
  · have hle : data.length ≤ i := Nat.le_of_not_lt h
    rw [if_neg h, List.getD_append_right _ _ _ _ hle, List.getD_eq_getElem?_getD, List.getElem?_drop, Nat.add_sub_cancel' hle,
      ← List.getD_eq_getElem?_getD, List.getD_eq_getElem _ _ (by rw [length_toBytes]; exact hi), getElem_toBytes]

theorem getD_of_lt {α : Type} {n : Nat} (v : Vector α n) (d : α) {j : Nat} (hj : j < n) : v.getD j d = v[j] := by
  simp [Vector.getD, Array.getD, hj]

theorem getD_upd {α : Type} {n : Nat} (v : Vector α n) (k : Fin n) (f : α → α) (d : α) {j : Nat} (hj : j < n) :
    (upd v k f).getD j d = if j = k.val then f v[k] else v.getD j d := by
  rw [getD_of_lt _ _ hj, getD_of_lt _ _ hj]
  by_cases h : j = k.val
  · subst h
    rw [if_pos rfl]
    exact upd_get_same v k f
  · rw [if_neg h]
    exact upd_get_ne v (j := ⟨j, hj⟩) f fun hk => h (congrArg Fin.val hk).symm

theorem State.modLin_congr {s : State} {f g : Lin → Lin} (h : f s.main.lin = g s.main.lin) : s.modLin f = s.modLin g := by
  simp only [State.modLin, State.modMain, h]

/-- Settles O51: the tables of identifiers by evaluation, the commands by their equations. -/
theorem linFrames : Obligations.LinFrames := by
  refine ⟨pidOf_bits, SerCfg.headerBits_eq, fun l r => rfl, fun l id => ?_, fun id pid data h => linChecksum_diagnostic h pid data,
    fun id us h bytes sum r e go s hs => ?_⟩
  · intro k
    refine ⟨fun hdir => ?_, fun hdir => ?_, fun hdir => ?_, k.length_published, fun i hi => k.getD_published hi⟩
    · rw [Lin.accept_eq]
      exact if_pos hdir
    · rw [Lin.accept_eq, if_neg (show ¬ (l.captured id).dir = 0 from fun h => absurd (h.symm.trans hdir) (by decide))]
      rw [if_pos (show (l.captured id).dir = 1 from hdir)]
      rfl
    · rw [Lin.accept_eq, if_neg (show ¬ (l.captured id).dir = 0 from fun h => absurd (h ▸ hdir : 2 ≤ 0) (by decide)),
        if_neg (show ¬ (l.captured id).dir = 1 from fun h => absurd (h ▸ hdir : 2 ≤ 1) (by decide))]
      rfl
  intro l noted
  refine ⟨?_, fun hbusy => ?_, fun hidle hno => ?_, fun hen hrole hpwr hpend hidle => ?_, fun hen hpwr => ⟨fun hidle => ?_, fun hbusy => ?_⟩,
    fun h6 => ?_, fun hon => ⟨?_, fun hrole hpend hstate => ?_, fun h1 h4 => ?_, fun h5 => ?_⟩⟩
  · change execSer1LinWake us false s = _
    rw [execSer1LinWake, State.when_of_false _ (Bool.and_false _)]
  · rw [exec_ser1LinHdr hs, State.linHeader_busy hbusy]
  · rw [exec_ser1LinHdr hs, State.linHeader_idle hidle, if_neg]
    obtain h | h | h := hno
    · simp [h]
    · simp [h]
    · simp [h]
  · rw [exec_ser1LinHdr hs, State.linHeader_idle hidle, if_pos]
    rw [hen, hrole, State.stationsOn_of hs hpwr, show s.main.uarts[1].cfg.pending = none from hpend]
    rfl
  · rw [exec_ser1LinWake hs, State.linWake, hen, State.stationsOn_of hs hpwr, decide_eq_true hidle]
    rfl
  · rw [exec_ser1LinWake hs, State.linWake, decide_eq_false hbusy, Bool.and_false]
    rfl
  · change execWakePulseEnd s = _
    rw [execWakePulseEnd, State.when_of_true _ (by rw [hs, h6]; rfl)]
  · change execWakeSeen s = _
    rw [execWakeSeen, State.when_of_true _ hon]
  · exact ⟨_, Config.lineNoise s.stamp, exec_breakSeen_go hon hrole hpend hstate, rfl⟩
  · obtain ⟨hframe, hno5⟩ := l.header_of h1 h4
    refine ⟨⟨Config.lineNoise s.stamp, ?_⟩, fun hrole => ?_, fun hrole => ?_, fun hrole hadapt hsync => ?_,
      fun hrole hadapt hsync hpid => ?_, fun hrole hadapt hsync hpid => ?_, fun hrole hadapt => ?_⟩
    · rw [exec_hdrTimeout hon hframe hno5]
      rfl
    · rw [exec_frameEnd hon hframe, hrole]
      exact congrArg Host.Outcome.next (State.modLin_congr (Lin.response_bitError (Or.inl (bne_iff_ne.mp hno5)) e))
    · rw [exec_pid hon hframe hno5]
      refine congrArg Host.Outcome.next (State.modLin_congr ?_)
      rw [Lin.pidSeen, hrole]
      rfl
    · rw [exec_pid hon hframe hno5]
      refine congrArg Host.Outcome.next (State.modLin_congr ?_)
      rw [Lin.pidSeen, hrole, hadapt, hsync]
      rfl
    · rw [exec_pid hon hframe hno5]
      refine congrArg Host.Outcome.next (State.modLin_congr ?_)
      rw [Lin.pidSeen, hrole, hadapt, hsync]
      exact if_pos hpid
    · rw [exec_pid hon hframe hno5]
      refine congrArg Host.Outcome.next (State.modLin_congr ?_)
      rw [Lin.pidSeen, hrole, hadapt, hsync]
      exact if_neg hpid
    · intro d
      refine ⟨fun hfar => ?_, fun hle hge hpid => ?_⟩
      · have hbad : adaptOk s.lin.divisor.toNat d = false := by
          rw [adaptOk, Bool.and_eq_false_iff, decide_eq_false_iff_not, decide_eq_false_iff_not]
          omega
        rw [exec_pid hon hframe hno5]
        refine congrArg Host.Outcome.next (State.modLin_congr ?_)
        rw [Lin.pidSeen, hrole, hadapt, hbad]
        rfl
      · have hok : adaptOk s.lin.divisor.toNat d = true := by
          rw [adaptOk, decide_eq_true hle, decide_eq_true hge]
          rfl
        rw [exec_pid hon hframe hno5]
        refine congrArg Host.Outcome.next (State.modLin_congr ?_)
        rw [Lin.pidSeen, hrole, hadapt, hok]
        exact if_pos hpid
  · have hframe : l.inFrame = true := l.inFrame_iff.mpr (by rw [h5]; decide)
    refine ⟨fun hdir hlen => ?_, fun hdir => ?_, fun hdir hrole => ?_, fun hdir => ?_, fun hdir hbytes hlen => ?_⟩
    · rw [exec_noResponse hon h5 hdir hlen]
      rfl
    · rw [exec_frameEnd hon hframe]
      exact congrArg Host.Outcome.next (State.modLin_congr (Lin.response_published h5 hdir _ e))
    · rw [exec_frameEnd hon hframe, hrole]
      exact congrArg Host.Outcome.next (State.modLin_congr (Lin.response_bitError (Or.inr hdir) e))
    · rw [exec_frameEnd hon hframe]
      exact congrArg Host.Outcome.next (State.modLin_congr (Lin.response_framing h5 hdir _ bytes sum e))
    · intro good
      have htaken : sum = good → (s.modLin fun l => l.response s.lin.linRole (.received bytes sum false e)).main.lin = { l with
          noise := l.noise || e
          buf := upd l.buf (Fin.ofNat 64 l.id.toNat) fun old => word 64 (bytes ++ (toBytes old 8).drop bytes.length) }.endFrame 0 :=
        fun hsum => Lin.response_taken h5 hdir s.lin.linRole e hbytes hsum
      have hid : l.id.toNat < 64 := l.id.isLt
      have hidx : (Fin.ofNat 64 l.id.toNat).val = l.id.toNat := Nat.mod_eq_of_lt hid
      have hold : l.buf[Fin.ofNat 64 l.id.toNat] = l.buf.getD l.id.toNat 0 := by
        rw [getD_of_lt _ _ hid, Fin.getElem_fin]
        simp only [hidx]
      rw [exec_frameEnd hon hframe]
      refine ⟨fun hsum => ?_, fun hsum => ⟨_, rfl, ?_, fun i hi => ?_, fun j hj hne => ?_⟩⟩
      · exact congrArg Host.Outcome.next (State.modLin_congr (Lin.response_badSum h5 hdir _ e hbytes hsum))
      · rw [htaken hsum]
        rfl
      · rw [htaken hsum]
        change byteOf ((upd l.buf (Fin.ofNat 64 l.id.toNat) _).getD l.id.toNat 0) i = _
        rw [getD_upd _ _ _ _ hid, if_pos hidx.symm, byteOf_received _ _ hi, hbytes, hold]
      · rw [htaken hsum]
        change (upd l.buf (Fin.ofNat 64 l.id.toNat) _).getD j 0 = _
        rw [getD_upd _ _ _ _ hj, if_neg fun h => hne (h.trans hidx)]

end Sys2Proof.Machine

/-!
## The identity block (R346 to R354)
-/

namespace Sys2Proof.Machine

/-! ### Shared memory as the identity block sees it -/

/-- A slice of what was just written. -/
theorem Memory.readBytes_writeBytes_slice {m : Memory} (hw : m.wf = true) (a : Nat) (bs : List Byte) {off n : Nat}
    (h : off + n ≤ bs.length) : (m.writeBytes a bs).readBytes (a + off) n = (bs.drop off).take n := by
  refine List.ext_getElem ?_ fun i h1 h2 => ?_
  · simp [Memory.readBytes]
    omega
  · have hi : i < n := by simpa [Memory.readBytes] using h1
    have hread := Memory.read_writeBytes_in hw (a := a) (i := off + i) (bs := bs) (by omega)
    simp only [Memory.readBytes, List.getElem_map, List.getElem_range, List.getElem_take, List.getElem_drop]
    rw [Nat.add_assoc]
    exact hread

/-- An access that lies in shared memory: its address and its bounds (R48, R386). -/
theorem State.place_shm {s : State} {a n k : Nat} (h : s.place a n = some (.shm k)) :
    k = a ∧ a < 0x10000000 ∧ a + n ≤ 0x10000000 ∧ s.shmPresent a n = true := by
  unfold State.place at h
  split at h
  · split at h
    · cases h
    · cases h
  · split at h
    · rename_i hlow
      split at h
      · rename_i hin
        rw [Bool.and_eq_true, decide_eq_true_iff] at hin
        cases h
        exact ⟨rfl, hlow, hin.1, hin.2⟩
      · cases h
    · split at h
      · dsimp only at h
        split at h
        · split at h
          · cases h
          · cases h
        · cases h
      · cases h

/-- Bytes within an access that responds respond. -/
theorem State.shmPresent_within {s : State} {a n off m : Nat} (h : s.shmPresent a n = true) (hin : off + m ≤ n) (hpos : 0 < n) :
    s.shmPresent (a + off) m = true := by
  simp only [State.shmPresent, List.all_eq_true, Bool.or_eq_true, decide_eq_true_iff, beq_iff_eq] at h ⊢
  intro g hg
  obtain ((hp | hz) | hle) | hle := h g hg
  · exact Or.inl (Or.inl (Or.inl hp))
  · omega
  · exact Or.inl (Or.inr (by omega))
  · exact Or.inr (by omega)

theorem State.place_shm_within {s : State} {a n k off m : Nat} (h : s.place a n = some (.shm k)) (hin : off + m ≤ n) (hpos : 0 < n)
    (hoff : a + off < 0x10000000) : s.place (a + off) m = some (.shm (k + off)) := by
  obtain ⟨rfl, hlow, hend, hpres⟩ := State.place_shm h
  rw [State.place, if_neg (by omega), if_pos hoff, State.shmPresent_within hpres hin hpos,
    decide_eq_true (show k + off + m ≤ 0x10000000 by omega)]
  rfl

/-! ### SHA-256 gives 32 bytes -/

theorem length_shaRound {v : List (BitVec 32)} (h : v.length = 8) (kw : BitVec 32 × BitVec 32) : (shaRound v kw).length = 8 := by
  unfold shaRound
  split
  · rfl
  · exact h

theorem length_shaBlock {h : List (BitVec 32)} (hlen : h.length = 8) (block : List Byte) : (shaBlock h block).length = 8 := by
  have hfold : ∀ (l : List (BitVec 32 × BitVec 32)) (v : List (BitVec 32)), v.length = 8 → (l.foldl shaRound v).length = 8 := by
    intro l
    induction l with
    | nil => exact fun v hv => hv
    | cons kw l ih => exact fun v hv => ih _ (length_shaRound hv kw)
  rw [shaBlock, List.length_zipWith, hfold _ _ hlen, hlen]
  rfl

theorem length_shaBlocks (n : Nat) {h : List (BitVec 32)} (hlen : h.length = 8) (bs : List Byte) : (shaBlocks n h bs).length = 8 := by
  induction n generalizing h bs with
  | zero => exact hlen
  | succ n ih => exact ih (length_shaBlock hlen _) _

theorem length_sha256 (bs : List Byte) : (sha256 bs).length = 32 := by
  have hwords : ∀ ws : List (BitVec 32), (ws.flatMap fun w => (toBytes w 4).reverse).length = 4 * ws.length := by
    intro ws
    induction ws with
    | nil => rfl
    | cons w ws ih =>
      rw [List.flatMap_cons, List.length_append, ih, List.length_reverse, length_toBytes, List.length_cons]
      omega
  rw [sha256, hwords, length_shaBlocks _ (by rfl)]

/-! ### The maker's key (R346 to R348) -/

section
variable {s : State}

theorem exec_idkPmkBurn (hs : s.serving = true) (v : BitVec 32) : exec (.idkPmkBurn v) s = .next (s.burn v) := by
  change execIdkPmkBurn v s = _
  rw [execIdkPmkBurn, State.when_of_true _ hs]

theorem State.burn_refused {v : BitVec 32} (h : s.otp.pmkState ≠ 0 ∨ s.main.idk.pmkKey.active = 0 ∨ s.main.idk.burnBusy = true ∨
    v ≠ 0x5A5A) : s.burn v = s.modIdk fun i => { i with burnRefused := true } := by
  refine if_pos ?_
  simp only [Bool.or_eq_true, bne_iff_ne, beq_iff_eq]
  tauto

theorem State.burn_starts (hblank : s.otp.pmkState = 0) (hkey : s.main.idk.pmkKey.active ≠ 0) (hidle : s.main.idk.burnBusy = false) :
    s.burn 0x5A5A = s.modIdk fun i =>
      { i with burnBusy := true, burnHash := word 256 (sha256 (toBytes i.pmkKey.active 64)) } := by
  refine (if_neg ?_).trans rfl
  simp [hblank, hidle, show s.main.idk.pmkKey.active ≠ 0#512 from hkey]

/-- The fuses once a burn has ended (R346). -/
def State.burnt (s : State) : State :=
  { s with otp := { s.otp with pmkHash := s.main.idk.burnHash, pmkState := 1 } }.modIdk fun i => { i with burnBusy := false }

theorem exec_pmkBurnEnd (hs : s.serving = true) :
    exec .pmkBurnEnd s = .next (s.when s.main.idk.burnBusy fun s => s.burnt.fbEntry 6 0x071 1) := by
  change execPmkBurnEnd s = _
  rw [execPmkBurnEnd, hs]
  rfl

theorem exec_idkCommit (hs : s.serving = true) : exec .idkCommit s = .next s.commitKey := by
  change execIdkCommit s = _
  rw [execIdkCommit, State.when_of_true _ hs]

/-- Whether the staged key is the burnt one (R346). -/
def State.keyMatches (s : State) : Bool :=
  s.otp.pmkState == 1 && word 256 (sha256 (toBytes s.main.idk.pmkKey.staging 64)) == s.otp.pmkHash

/-- The state with the staged key active (R346). -/
def State.keyActive (s : State) : State := s.modIdk fun i => { i with pmkKey := ⟨i.pmkKey.staging, i.pmkKey.staging, none⟩ }

/-- The outcome of the check of the key that a commit makes active (R348). -/
def State.keyOutcome (s : State) : BitVec 3 × BitVec 256 := s.keyActive.tableOutcome s.main.idk.pmkKey.staging s.keyMatches

/-- The active key with what its check found. -/
def State.keyChecked (s : State) : State :=
  s.keyActive.modIdk fun i => { i with keyLoaded := s.keyMatches, keyBad := i.keyBad || !s.keyMatches,
                                       rtStat := s.keyOutcome.1, rtHash := s.keyOutcome.2 }

theorem State.commitKey_eq (s : State) : s.commitKey = s.keyChecked.fbEntry 6 0x070 (s.keyOutcome.1.setWidth 64) := by
  rw [State.commitKey]
  simp only [Staged.activate_commit]
  rfl

theorem State.tableOutcome_unloaded (key : BitVec 512) : (s.tableOutcome key false).1 = 4 := rfl

theorem State.tableOutcome_bad (h : s.main.nfc.rtBad = true) (key : BitVec 512) : (s.tableOutcome key true).1 = 3 := by
  rw [State.tableOutcome, h]
  rfl

/-! ### Requests for the signature engine (R349, R352) -/

theorem exec_idkVfyGo (hs : s.serving = true) : exec .idkVfyGo s = .next s.verifyGo := by
  change execIdkVfyGo s = _
  rw [execIdkVfyGo, State.when_of_true _ hs]

theorem State.modIdk_congr {f g : Idk → Idk} (h : f s.main.idk = g s.main.idk) : s.modIdk f = s.modIdk g := by
  simp only [State.modIdk, State.modMain, h]

/-- The engine with a piece of work in it (R352). -/
def State.engineTakes (s : State) (w : SigWork) (rest : List SigWork) : State :=
  s.modIdk fun i => { i with sigQueue := rest, sigBusy := some w }

theorem exec_signatureEngineStart_verify (hs : s.serving = true) (hidle : s.main.idk.sigBusy = none) {a : BitVec 40} {key : BitVec 512}
    {loaded : Bool} {rest : List SigWork} (hq : s.main.idk.sigQueue = .verify a key loaded :: rest) :
    exec .signatureEngineStart s = .next (s.engineTakes (.verify a key loaded) rest) := by
  change execSignatureEngineStart s = _
  rw [execSignatureEngineStart, State.when_of_true _ (by rw [hs, hidle]; rfl), hq]
  rfl

theorem exec_signatureEngineStart_attest (hs : s.serving = true) (hidle : s.main.idk.sigBusy = none) {q : QueueNo} {order : Nat}
    {rest : List SigWork} (hq : s.main.idk.sigQueue = .attest q order :: rest) {j : Job} (hj : s.jobOrder q order = some j) :
    exec .signatureEngineStart s = .next ((s.engineTakes (.attest q order) rest).modJobOrder q order fun k =>
      { k with report := (s.engineTakes (.attest q order) rest).reportBytes j }) := by
  have hj' : (s.engineTakes (.attest q order) rest).jobOrder q order = some j := hj
  change execSignatureEngineStart s = _
  rw [execSignatureEngineStart, State.when_of_true _ (by rw [hs, hidle]; rfl), hq]
  dsimp only
  rw [← State.engineTakes, hj']

theorem State.idkRead_shm {a n k : Nat} (h : s.place a n = some (.shm k)) (reply : HostReply) :
    s.idkRead a n reply = some (s.main.shm.mem.readBytes k n) := by
  unfold State.idkRead
  rw [h]

/-- Whether a request's signature holds over a digest, with the key captured at GO (R349). -/
def verifyGood (key : BitVec 512) (loaded : Bool) (r d : List Byte) : Bool :=
  loaded && ecdsaVerify (leAt (toBytes key 64) 0 32) (leAt (toBytes key 64) 32 32) (leAt r 16 32) (leAt r 48 32) d

/-- What a verify request writes back where its image lies in shared memory (R349). -/
theorem State.verifyResult_shm {key : BitVec 512} {loaded : Bool} {r d : List Byte} {img : HostReply} {kk : Nat}
    (h : s.place (leAt r 0 5) (leAt r 8 4) = some (.shm kk)) (hd : d = sha256 (s.main.shm.mem.readBytes kk (leAt r 8 4))) :
    s.verifyResult key loaded r img =
      d ++ (toBytes (if verifyGood key loaded r d then stOk else stSignatureFail) 2 ++ [if loaded then 0 else 1]) := by
  rw [State.verifyResult, State.idkRead_shm h, hd]
  simp only [List.append_assoc]
  rfl

theorem exec_verifyEnd_shm (hs : s.serving = true) {a : BitVec 40} {key : BitVec 512} {loaded : Bool} {k : Nat}
    (hbusy : s.main.idk.sigBusy = some (.verify a key loaded)) (hplace : s.place a.toNat 128 = some (.shm k)) (req img : HostReply) :
    exec (.verifyEnd req img) s = .next (((s.idkWrite (a.toNat + 80)
      (s.verifyResult key loaded (s.main.shm.mem.readBytes k 128) img)).nextStamp).modIdk fun i =>
        { i with vfyBusy := false, sigBusy := none }) := by
  change execVerifyEnd req img s = _
  rw [execVerifyEnd, hbusy]
  dsimp only
  rw [State.when_of_true _ hs, State.idkRead_shm hplace]

theorem State.idkWrite_shm {a k : Nat} {bs : List Byte} (h : s.place a bs.length = some (.shm k)) :
    s.idkWrite a bs = s.modShm fun m => { m with mem := m.mem.writeBytes k bs } := by
  rw [State.idkWrite, h]
  dsimp only
  rw [State.devWrite, h]
  rfl

end

/-- Settles O47: each command by its equation, and the outcome of a verify request by the slices of what it writes back. -/
theorem identityResults : Obligations.IdentityResults := by
  intro v s hs i sum
  have hrun := State.running_of_serving hs
  refine ⟨fun h => ?_, fun hblank hkey hidle => ?_, fun hidle => ?_, fun hbusy => ?_, ?_, fun hbusy => ?_, fun hidle => ?_,
    fun w rest hidle hq => ?_, fun w hbusy => ?_, fun hwf a key loaded k kk req img hbusy hplace => ?_⟩
  · rw [exec_idkPmkBurn hs, State.burn_refused h]
  · rw [exec_idkPmkBurn hs, State.burn_starts hblank hkey hidle]
  · rw [exec_pmkBurnEnd hs, State.when_of_false _ hidle]
  · refine ⟨s.burnt.fbEntry 6 0x071 1, ?_, rfl, rfl, State.fbEntry_ring_of_running (s := s.burnt) hrun 6 0x071 1⟩
    rw [exec_pmkBurnEnd hs, State.when_of_true _ hbusy]
  · refine ⟨s.keyChecked.fbEntry 6 0x070 (s.keyOutcome.1.setWidth 64), ?_, rfl, ?_, rfl, fun h => ?_, fun h hbad => ?_, rfl,
      State.fbEntry_ring_of_running (s := s.keyChecked) hrun 6 0x070 _⟩
    · rw [exec_idkCommit hs, State.commitKey_eq]
    · change s.keyMatches = true ↔ _
      rw [State.keyMatches, Bool.and_eq_true, beq_iff_eq, beq_iff_eq]
    · change s.keyMatches = false at h
      change s.keyOutcome.1 = 4
      rw [State.keyOutcome, h]
      exact State.tableOutcome_unloaded _
    · change s.keyMatches = true at h
      change s.keyOutcome.1 = 3
      rw [State.keyOutcome, h]
      exact State.tableOutcome_bad hbad _
  · rw [exec_idkVfyGo hs, State.verifyGo]
    exact congrArg Host.Outcome.next (State.modIdk_congr (if_pos hbusy))
  · rw [exec_idkVfyGo hs, State.verifyGo]
    exact congrArg Host.Outcome.next (State.modIdk_congr (if_neg (by rw [show s.main.idk.vfyBusy = false from hidle]; decide)))
  · intro t
    refine ⟨fun a key loaded hw => ?_, fun q order j hw hj => ?_⟩
    · subst hw
      exact exec_signatureEngineStart_verify hs hidle hq
    · subst hw
      exact exec_signatureEngineStart_attest hs hidle hq hj
  · change execSignatureEngineStart s = _
    rw [execSignatureEngineStart, State.when_of_false]
    rw [show s.main.idk.sigBusy = some w from hbusy, Bool.and_comm]
    rfl
  · intro r himg h good
    have hgood : good ↔ verifyGood key loaded r h = true := Bool.and_eq_true_iff.symm
    have hout := State.verifyResult_shm (key := key) (loaded := loaded) (img := img) himg (show h = _ from rfl)
    generalize hdef : s.verifyResult key loaded r img = out at hout
    have hlenh : h.length = 32 := length_sha256 _
    have hlen : out.length = 35 := by
      rw [hout, List.length_append, hlenh, List.length_append, length_toBytes]
      rfl
    have hwritten : s.place (a.toNat + 80) out.length = some (.shm (k + 80)) := by
      have hin := State.place_shm hplace
      rw [hlen]
      exact State.place_shm_within hplace (by norm_num) (by norm_num) (by omega)
    obtain ⟨-, -, hshm, -, -⟩ := (State.memWf_iff s).mp hwf
    have hexec := exec_verifyEnd_shm hs hbusy hplace req img
    rw [show s.verifyResult key loaded (s.main.shm.mem.readBytes k 128) img = out from hdef, State.idkWrite_shm hwritten] at hexec
    have hslice : ∀ {off n : Nat}, off + n ≤ 35 →
        (s.main.shm.mem.writeBytes (k + 80) out).readBytes (k + 80 + off) n = (out.drop off).take n := fun hoff =>
      Memory.readBytes_writeBytes_slice hshm (k + 80) out (by omega)
    have hstatus : ∀ st : BitVec 16, (∃ b : Byte, out = h ++ (toBytes st 2 ++ [b])) →
        (s.main.shm.mem.writeBytes (k + 80) out).readBytes (k + 112) 2 = toBytes st 2 := by
      rintro st ⟨b, hb⟩
      rw [show k + 112 = k + 80 + 32 by omega, hslice (by norm_num), hb, List.drop_left' hlenh]
      exact List.take_left' (length_toBytes _ _)
    refine ⟨_, hexec, rfl, fun hg => ?_, fun hg => ⟨?_, ?_⟩, ?_, fun b hb => ?_⟩
    · exact hstatus stOk ⟨_, hout.trans (by rw [if_pos (hgood.mp hg)])⟩
    · exact hstatus stSignatureFail ⟨_, hout.trans (by rw [if_neg (mt hgood.mpr hg)])⟩
    · change (s.main.shm.mem.writeBytes (k + 80) out).readBytes (k + 114) 1 = _
      rw [show k + 114 = k + 80 + 34 by omega, hslice (by norm_num), hout, ← List.append_assoc]
      exact congrArg (List.take 1) (List.drop_left' (by rw [List.length_append, length_toBytes]; exact congrArg (· + 2) hlenh))
    · change (s.main.shm.mem.writeBytes (k + 80) out).readBytes (k + 80) 32 = _
      rw [show k + 80 = k + 80 + 0 by omega, hslice (by norm_num), hout]
      exact List.take_left' hlenh
    · exact Memory.read_writeBytes_out hshm (by omega)

end Sys2Proof.Machine

/-!
## The management port (R335 to R340)
-/

namespace Sys2Proof.Machine

/-! ### Values noted under keys -/

theorem notedAt_noteAt_same {α : Type} (l : List (Nat × α)) (k : Nat) (v : α) : notedAt (noteAt l k v) k = some v := by
  have hlow : (l.filter fun p => decide (p.1 < k)).find? (fun p => p.1 == k) = none := by
    rw [List.find?_eq_none]
    intro p hp
    have := (List.mem_filter.mp hp).2
    simp only [decide_eq_true_iff] at this
    simp
    omega
  rw [notedAt, noteAt, List.append_assoc, List.find?_append, hlow]
  simp

theorem notedAt_noteAt_ne {α : Type} (l : List (Nat × α)) {k r : Nat} (v : α) (h : r ≠ k) : notedAt (noteAt l k v) r = notedAt l r := by
  have hkey : ((k, v).1 == r) = false := beq_eq_false_iff_ne.mpr (Ne.symm h)
  have hpart : ∀ c : Nat → Bool, (c r = true → (l.filter fun p => c p.1).find? (fun p => p.1 == r) = l.find? fun p => p.1 == r) ∧
      (c r = false → (l.filter fun p => c p.1).find? (fun p => p.1 == r) = none) := by
    intro c
    rw [List.find?_filter]
    refine ⟨fun hc => ?_, fun hc => ?_⟩
    · congr 1
      funext p
      by_cases hp : p.1 = r
      · simp [hp, hc]
      · simp [hp]
    · rw [List.find?_eq_none]
      intro p _
      by_cases hp : p.1 = r
      · simp [hp, hc]
      · simp [hp]
  rw [notedAt, noteAt, notedAt, List.find?_append, List.find?_append, List.find?_cons, hkey, List.find?_nil]
  obtain hlt | hgt := Nat.lt_or_gt_of_ne h
  · rw [(hpart fun x => decide (x < k)).1 (decide_eq_true hlt), (hpart fun x => decide (k < x)).2 (decide_eq_false (by omega))]
    simp
  · rw [(hpart fun x => decide (x < k)).2 (decide_eq_false (by omega)), (hpart fun x => decide (k < x)).1 (decide_eq_true hgt)]
    simp

/-! ### Reads of an item (R336, R337) -/

section
variable {s : State}

/-- The bytes behind the first one come from the capture. -/
theorem State.mgtReadBytes_captured {base len : Nat} {bs : List Byte} (hitem : ∀ i < len, mgtItem (base + i) = some (base, len))
    (hlen : len ≠ 1) (hend : base + len < 65536) (hcap : notedAt s.aon.mgmt.captures base = some bs) (hbs : bs.length = len)
    (m : Nat) {i : Nat} (hi : 1 ≤ i) (him : i + m ≤ len) : s.mgtReadBytes (base + i) m = ((bs.drop i).take m, s) := by
  induction m generalizing i with
  | zero => rw [List.take_zero]; rfl
  | succ m ih =>
    have hbyte : s.mgtByte (base + i) = (bs.getD i 0, s) := by
      rw [State.mgtByte, hitem i (by omega)]
      dsimp only
      rw [if_neg hlen, if_neg (by omega), hcap, Nat.add_sub_cancel_left]
    have hin : i < bs.length := by omega
    rw [State.mgtReadBytes, hbyte]
    dsimp only
    rw [show (base + i + 1) % 65536 = base + (i + 1) by omega, ih (by omega) (by omega), List.drop_eq_getElem_cons hin,
      List.take_succ_cons, List.getD_eq_getElem _ _ hin]

/-- A read of a whole item gives it as it is now, and captures it. -/
theorem State.mgtReadBytes_item {base len : Nat} {bs : List Byte} (hitem : ∀ i < len, mgtItem (base + i) = some (base, len))
    (hlen : 1 < len) (hend : base + len < 65536) (hlive : s.mgtLive base = bs) (hbs : bs.length = len) :
    s.mgtReadBytes base len = (bs, s.modMgmt fun m => m.capture base bs) := by
  obtain ⟨m, rfl⟩ : ∃ m, len = m + 1 := ⟨len - 1, by omega⟩
  have hbyte : s.mgtByte base = (bs.getD 0 0, s.modMgmt fun m => m.capture base bs) := by
    have h0 := hitem 0 (by omega)
    rw [Nat.add_zero] at h0
    rw [State.mgtByte, h0]
    dsimp only
    rw [if_neg (by omega), if_pos rfl, hlive]
  have hcap : notedAt (s.modMgmt fun m => m.capture base bs).aon.mgmt.captures base = some bs := notedAt_noteAt_same _ _ _
  rw [State.mgtReadBytes, hbyte]
  dsimp only
  rw [show (base + 1) % 65536 = base + 1 by omega,
    State.mgtReadBytes_captured hitem (by omega) hend hcap hbs m (Nat.le_refl 1) (by omega)]
  cases bs with
  | nil => cases hbs
  | cons b t =>
    have ht : t.length = m := Nat.succ.inj hbs
    rw [List.drop_one, List.tail_cons, ← ht, List.take_length, List.getD_cons_zero]

theorem State.mgtUp_iff (s : State) : s.mgtUp = true ↔ s.phase ≠ .strapWait ∧ s.phase ≠ .dormant := by
  unfold State.mgtUp
  cases s.phase <;> simp

theorem exec_mgtRead_up (hup : s.mgtUp = true) (a : BitVec 16) (n : Nat) : exec (.mgtRead ⟨s.aon.mgtBus, a⟩ n) s =
    .next { (s.mgtReadBytes a.toNat n).2 with mgtData := (s.mgtReadBytes a.toNat n).1 } := by
  change execMgtRead ⟨s.aon.mgtBus, a⟩ n s = _
  rw [execMgtRead, if_neg (by simp), if_pos hup]

theorem exec_mgtRead_item (hup : s.mgtUp = true) {a : BitVec 16} {base len : Nat} {bs : List Byte} (ha : a.toNat = base)
    (hitem : ∀ i < len, mgtItem (base + i) = some (base, len)) (hlen : 1 < len) (hend : base + len < 65536)
    (hlive : s.mgtLive base = bs) (hbs : bs.length = len) : exec (.mgtRead ⟨s.aon.mgtBus, a⟩ len) s = .next { s with
      mgtData := bs, aon := { s.aon with mgmt := s.aon.mgmt.capture base bs } } := by
  rw [exec_mgtRead_up hup, ha, State.mgtReadBytes_item hitem hlen hend hlive hbs]
  rfl

theorem exec_mgtWrite_up (hup : s.mgtUp = true) (a : BitVec 16) (b : BitVec 8) :
    exec (.mgtWrite ⟨s.aon.mgtBus, a⟩ [b]) s = .next (s.mgtPut a.toNat b) := by
  change execMgtWrite ⟨s.aon.mgtBus, a⟩ [b] s = _
  rw [execMgtWrite, State.when_of_true _ (by rw [hup]; simp)]
  rfl

/-! ### The ring's entries and the copies -/

theorem mgtItem_ring (i : Fin 512) {k : Nat} (hk : k < 16) : mgtItem (0x1000 + 16 * i.val + k) = some (0x1000 + 16 * i.val, 16) := by
  have hi := i.isLt
  rw [mgtItem, decide_eq_true (show 0x1000 ≤ 0x1000 + 16 * i.val + k by omega),
    decide_eq_true (show 0x1000 + 16 * i.val + k < 0x4000 by omega), Bool.and_self, if_pos rfl,
    show (0x1000 + 16 * i.val + k) / 16 * 16 = 0x1000 + 16 * i.val by omega]

theorem State.mgtLive_ring (s : State) (i : Fin 512) : s.mgtLive (0x1000 + 16 * i.val) = toBytes s.aon.ring[i] 16 := by
  have hi := i.isLt
  unfold State.mgtLive
  dsimp only
  rw [if_neg (by omega), if_neg (by omega), if_pos (by omega), show (0x1000 + 16 * i.val - 0x1000) / 16 = i.val by omega, getD_of_lt _ _ hi, Fin.getElem_fin]

theorem toBytes_vsys (x : BitVec 13) : toBytes (BitVec.ofNat 64 x.toNat) 2 = toBytes (x.setWidth 16) 2 := by
  refine List.ext_getElem (by simp) fun i h1 h2 => ?_
  have hx := x.isLt
  rw [getElem_toBytes, getElem_toBytes]
  refine BitVec.eq_of_toNat_eq ?_
  rw [byteOf_toNat, byteOf_toNat, BitVec.toNat_ofNat, BitVec.toNat_setWidth,
    Nat.mod_eq_of_lt (show x.toNat < 2 ^ 64 by omega), Nat.mod_eq_of_lt (show x.toNat < 2 ^ 16 by omega)]

theorem State.mgtLive_vsys (hs : s.serving = true) (hrun : s.main.pwr.state ≠ .run) :
    s.mgtLive 0x14 = toBytes (s.aon.mgmt.vsysCopy.setWidth 16) 2 := by
  have hvsys : s.mgtVsys = s.aon.mgmt.vsysCopy := by
    rw [State.mgtVsys, hs, beq_eq_false_iff_ne.mpr hrun]
    rfl
  rw [← toBytes_vsys, ← hvsys]
  rfl

/-! ### MGT_PWR_CMD (R339) -/

theorem exec_mgtPwrCmdFlush_up (hup : s.mgtUp = true) : exec .mgtPwrCmdFlush s = .next ((s.flush 0x0FF).noticeCheck) := by
  change Host.Outcome.next s.mgtFlush = _
  rw [State.mgtFlush, State.when_of_true _ hup]

theorem exec_mgtPwrCmdFlush_down (hup : s.mgtUp = false) : exec .mgtPwrCmdFlush s = .next s := by
  change Host.Outcome.next s.mgtFlush = _
  rw [State.mgtFlush, State.when_of_false _ hup]

theorem State.mgtHold_serving (hs : s.serving = true) (hold : Bool) : s.mgtHold hold = s.writeForce hold := by
  rw [State.mgtHold, State.when_of_true _ hs]

end

/-- Settles O48: whole items by one read of the port, each command by its equation. -/
theorem managementPort : Obligations.ManagementPort := by
  intro s b vsys bus
  refine ⟨fun x n bs hbus => ⟨?_, ?_⟩, fun hdown a n bs => ?_, fun h1 h2 => ?_, fun hs => ⟨?_, ?_, ?_, ?_⟩, fun hs => ?_⟩
  · change execMgtRead x n s = _
    rw [execMgtRead, if_pos (bne_iff_ne.mpr hbus)]
  · change execMgtWrite x bs s = _
    rw [execMgtWrite, State.when_of_false _ (by rw [beq_eq_false_iff_ne.mpr hbus, Bool.and_false])]
  · have hup : s.mgtUp = false := by
      rw [Bool.eq_false_iff, ne_eq, s.mgtUp_iff]
      tauto
    refine ⟨?_, ?_, ?_, exec_mgtPwrCmdFlush_down hup⟩
    · change execMgtRead ⟨s.aon.mgtBus, a⟩ n s = _
      rw [execMgtRead, if_neg (by simp), hup]
      rfl
    · change execMgtWrite ⟨s.aon.mgtBus, a⟩ bs s = _
      rw [execMgtWrite, hup]
      rfl
    · change execBusTimeout s = _
      rw [execBusTimeout, hup]
      rfl
  · have hup : s.mgtUp = true := s.mgtUp_iff.mpr ⟨h1, h2⟩
    refine ⟨exec_mgtRead_item hup rfl (by decide) (by decide) (by decide) rfl rfl, fun hs => ?_, fun i => ?_, fun base bs hbase hcap hlen => ?_,
      ?_, ?_, ?_, ?_, ?_, ?_, exec_mgtPwrCmdFlush_up hup, ?_⟩
    · have hstate : s.mgtState = 0x20 := by
        rw [State.mgtState, hs]
        rfl
      rw [exec_mgtRead_up hup]
      have hbytes : s.mgtReadBytes (4 : BitVec 16).toNat 1 = ([0x20], s) := by
        have hlive : s.mgtLive 4 = [0x20] := by
          change toBytes (BitVec.ofNat 64 s.mgtState) 1 = _
          rw [hstate]
          decide
        change ([(s.mgtByte 4).1], (s.mgtByte 4).2) = _
        rw [State.mgtByte, show mgtItem 4 = some (4, 1) from rfl]
        dsimp only
        rw [if_pos rfl, hlive]
        rfl
      rw [hbytes]
    · have hi := i.isLt
      refine exec_mgtRead_item hup ?_ (fun k hk => mgtItem_ring i hk) (by decide) (by omega) (s.mgtLive_ring i) (length_toBytes _ _)
      rw [BitVec.toNat_ofNat]
      omega
    · subst hbase
      have hnoted : notedAt s.aon.mgmt.captures 8 = some bs := by rw [notedAt, hcap]; rfl
      rw [exec_mgtRead_up hup]
      have hbytes : s.mgtReadBytes (9 : BitVec 16).toNat 3 = (bs.drop 1, s) := by
        rw [show (9 : BitVec 16).toNat = 8 + 1 from rfl,
          State.mgtReadBytes_captured (len := 4) (by decide) (by decide) (by decide) hnoted hlen 3 (by decide) (by decide)]
        rw [List.take_of_length_le (by rw [List.length_drop, hlen])]
      rw [hbytes]
    · rw [exec_mgtRead_up hup]
      rfl
    · rw [exec_mgtWrite_up hup]
      change Host.Outcome.next (s.modAon fun a => { a with vsysWarn := warnLevel (b.setWidth 4) }) = _
      rw [warnLevel, BitVec.toNat_setWidth]
    · rw [exec_mgtWrite_up hup]
      rfl
    · rw [exec_mgtWrite_up hup]
      rfl
    · rw [exec_mgtWrite_up hup]
      rfl
    · rw [exec_mgtWrite_up hup]
      rfl
    · change execBusTimeout s = _
      rw [execBusTimeout, State.when_of_true _ hup]
      rfl
  · change Host.Outcome.next (s.mgtHold true) = _
    rw [State.mgtHold, State.when_of_false _ hs]
  · change Host.Outcome.next (s.mgtHold false) = _
    rw [State.mgtHold, State.when_of_false _ hs]
  · change Host.Outcome.next s.mgtPads = _
    rw [State.mgtPads, State.when_of_false _ hs]
  · change execMgtCopyRefresh vsys s = _
    rw [execMgtCopyRefresh, State.when_of_false _ hs]
  · have hset : exec .mgtPwrCmdHoldSet s = .next (s.writeForce true) := congrArg Host.Outcome.next (State.mgtHold_serving hs true)
    have hclear : exec .mgtPwrCmdHoldClear s = .next (s.writeForce false) := congrArg Host.Outcome.next (State.mgtHold_serving hs false)
    refine ⟨hset.trans (exec_pwrForceHoldSet hs).symm, hclear.trans (exec_pwrForceHoldClear hs).symm, fun hin => ?_,
      fun hin hforce hd3 => ?_, ?_, ?_, fun hrun => ?_⟩
    · rw [hset, State.writeForce_true hin]
    · rw [hclear, State.writeForce_change hin (by rw [hforce]; decide)]
      exact congrArg Host.Outcome.next (State.forceEnds_forced (Or.inr hd3))
    · change Host.Outcome.next s.mgtPads = _
      rw [State.mgtPads, State.when_of_true _ hs]
      rfl
    · change execMgtCopyRefresh vsys s = _
      rw [execMgtCopyRefresh, State.when_of_true _ hs]
      rfl
    · have hup : s.mgtUp = true := by
        have hphase : s.phase = .serving := eq_of_beq hs
        rw [s.mgtUp_iff, hphase]
        decide
      exact exec_mgtRead_item hup rfl (by decide) (by decide) (by decide) (State.mgtLive_vsys hs hrun) (length_toBytes _ _)

end Sys2Proof.Machine

/-!
## What a reset of the device leaves (chapter 2)
-/

namespace Sys2Proof.Machine

/-- The main domain at its reset values, with the state of its PCI Express function. -/
def State.started (s : State) (p : Pcie) : State := s.freshMain.modPcie fun _ => p

/-- A device reset, past what it does to the AON domain and to work under way (R35). -/
theorem State.deviceReset_eq (s : State) (c : ResetCause) :
    s.deviceReset c = { s.cutWork with aon := (s.deviceReset c).aon }.started (s.cutWork.main.pcie.afterReset c) := by
  unfold State.deviceReset State.started
  rfl

/-- The registers that R359 and the reset columns of the register tables give, and what they read after a reset. -/
def resetWords : List (Nat × Nat) :=
  [(0x038, 0), (0x03C, 0), (0x040, 0), (0x050, 0), (0x010018, 0x404), (0x021000, 4), (0x021004, 10), (0x030004, 2),
    (0x030008, 5), (0x03000C, 0), (0x030010, 0), (0x030014, 200), (0x030040, 3), (0x050800, 3), (0x050804, 4096), (0x050808, 0),
    (0x060038, 4000), (0x060380, 16), (0x0603A4, 0), (0x070008, 0), (0x070014, 0), (0x080004, 6), (0x080008, 3), (0x08000C, 13889),
    (0x080200, 4), (0x080300, 8), (0x0C0000, 0), (0x0C0008, 0), (0x0D0000, 0), (0x0D0100, 1000000), (0x0D0104, 0), (0x0D0108, 0)]

section
variable (s : State) (p : Pcie)

/-- The state that is read: the reset values, served. -/
def State.startedServing : State := { s.started p with phase := .serving }

theorem State.started_bootAddrHigh : (s.startedServing p).liveWord 0x03C = 0 := by
  change (0 : BitVec 64).extractLsb' 32 32 = 0
  decide

theorem State.started_hqSize : (s.startedServing p).liveWord 0x010018 = 0x404 := by
  change BitVec.ofNat 32 (logShown ({} : QueueCfg).sqLog2 + logShown ({} : QueueCfg).cqLog2 * 2 ^ 8) = 0x404
  decide

theorem State.started_serStat : (s.startedServing p).liveWord 0x080004 = 6 := by
  change ({} : Uart).stat = 6
  decide

theorem State.started_linWord : (s.startedServing p).liveWord 0x080200 = 4 := by
  change BitVec.ofNat 32 ({} : SerCfg).linWord = 4
  decide

theorem State.started_words : ∀ row ∈ resetWords, (s.startedServing p).liveWord row.1 = BitVec.ofNat 32 row.2 :=
  List.forall_iff_forall_mem.mp
    ⟨rfl, s.started_bootAddrHigh p, rfl, rfl, s.started_hqSize p, rfl, rfl, rfl, rfl, rfl, rfl, rfl, rfl, rfl, rfl, rfl, rfl, rfl, rfl,
      rfl, rfl, s.started_serStat p, rfl, rfl, s.started_linWord p, rfl, rfl, rfl, rfl, rfl, rfl, rfl⟩

end

theorem State.started_status (s : State) (p : Pcie) : (s.started p).main.glb.status = 2 := by
  change ({} : Glb).status = 2
  decide

theorem State.started_station (s : State) (p : Pcie) (n : Fin 24) : (s.started p).station n = Station.fresh (s.stamp + 1 + n.val * 9) := by
  change (Vector.ofFn fun n : Fin 24 => Station.fresh (s.stamp + 1 + n.val * 9))[n] = _
  rw [Fin.getElem_fin, Vector.getElem_ofFn]

theorem State.started_mark (s : State) (p : Pcie) (m : Fin 64) : (s.started p).main.marks[m] = 0 := by
  change (Vector.replicate 64 (0 : BitVec 64))[m] = 0
  rw [Fin.getElem_fin, Vector.getElem_replicate]

theorem State.started_queue (s : State) (p : Pcie) (q : Fin 16) : (s.started p).queue q = {} := by
  change (Vector.replicate 16 ({} : Queue))[q] = {}
  rw [Fin.getElem_fin, Vector.getElem_replicate]

/-- The machine right after a cold reset meets the two invariants. -/
theorem State.reset_invariants : State.reset.memWf = true ∧ State.reset.otpSafe = true ∧ State.reset.pending = [] := by
  refine ⟨(State.memWf_iff _).mpr ⟨rfl, rfl, rfl, fun n => ?_, fun n a => ?_⟩, rfl, rfl⟩
  · change ((Vector.ofFn fun n : Fin 24 => Station.fresh (4 + 1 + n.val * 9))[n]).memWf = true
    rw [Fin.getElem_fin, Vector.getElem_ofFn, Station.memWf_eq]
    simp [Station.fresh]
  · change ((Vector.replicate 24 (Vector.replicate 32 ({} : ArrayNv)))[n][a]).image.wf = true
    simp

/-- Settles O35: every reset starts the main domain anew, and the words are read off its reset values. -/
theorem resetLeaves : Obligations.ResetLeaves := by
  refine ⟨State.reset_invariants, fun c s => ?_⟩
  intro u
  have hu : u = State.started _ _ := s.deviceReset_eq c
  rw [hu]
  refine ⟨rfl, rfl, rfl, State.started_status _ _, State.started_words _ _, State.started_mark _ _, State.started_queue _ _, rfl, fun n => ?_⟩
  rw [State.started_station]
  exact ⟨rfl, rfl, rfl, rfl⟩

end Sys2Proof.Machine

/-!
## Parcel tables, the mode of shared memory, the banks and the counters (chapters 4, 5, 9 and 10)
-/

namespace Sys2Proof.Machine

/-! ### Jobs whose mark wait is noted -/

/-- A queue whose oldest job is noted as waiting. -/
def Queue.noted (x : Queue) : Queue :=
  match x.jobs with
  | j :: t => { x with jobs := { j with waiting := true } :: t }
  | [] => x

theorem Queue.noted_nil {x : Queue} (h : x.jobs = []) : x.noted = x := by rw [Queue.noted, h]

theorem Queue.noted_cons {x : Queue} {j : Job} {t : List Job} (h : x.jobs = j :: t) :
    x.noted = { x with jobs := { j with waiting := true } :: t } := by rw [Queue.noted, h]

theorem Queue.noted_rest (x : Queue) : { x.noted with jobs := x.jobs } = x := by
  cases h : x.jobs with
  | nil => rw [x.noted_nil h, ← h]
  | cons j t => rw [x.noted_cons h, ← h]

theorem Queue.noted_noted (x : Queue) : x.noted.noted = x.noted := by
  cases h : x.jobs with
  | nil => rw [x.noted_nil h, x.noted_nil h]
  | cons j t => rw [x.noted_cons h]; rfl

theorem Queue.noted_jobs (x : Queue) : x.noted.jobs.map (fun j => { j with waiting := false }) =
    x.jobs.map fun j => { j with waiting := false } := by
  cases h : x.jobs with
  | nil => rw [x.noted_nil h, h]
  | cons j t => rw [x.noted_cons h]; rfl

/-- The state u is s with the oldest job of some queues noted as waiting. -/
structure Noted (s u : State) : Prop where
  rest : u = { s with main := { s.main with queues := u.main.queues } }
  queue : ∀ q, u.queue q = s.queue q ∨ u.queue q = (s.queue q).noted

theorem Noted.refl (s : State) : Noted s s := ⟨rfl, fun _ => .inl rfl⟩

theorem Noted.trans {s t u : State} (h : Noted s t) (g : Noted t u) : Noted s u where
  rest := by rw [g.rest, h.rest]
  queue q := by
    rcases g.queue q with hg | hg <;> rcases h.queue q with hh | hh <;> rw [hg, hh]
    · exact .inl rfl
    · exact .inr rfl
    · exact .inr rfl
    · exact .inr (Queue.noted_noted _)

section
variable {s u : State} (h : Noted s u)
include h

theorem Noted.ctx (c : Fin 8) : u.ctx c = s.ctx c := by rw [h.rest]

theorem Noted.queue_rest (q : Fin 16) : { u.queue q with jobs := (s.queue q).jobs } = s.queue q := by
  rcases h.queue q with hq | hq <;> rw [hq]
  exact Queue.noted_rest _

theorem Noted.queue_jobs (q : Fin 16) :
    (u.queue q).jobs.map (fun j => { j with waiting := false }) = (s.queue q).jobs.map fun j => { j with waiting := false } := by
  rcases h.queue q with hq | hq <;> rw [hq]
  exact Queue.noted_jobs _

theorem Noted.job_none {q : Fin 16} (hq : s.job q = none) : u.job q = none := by
  have hn : (s.queue q).jobs = [] := List.head?_eq_none_iff.mp hq
  rcases h.queue q with hu | hu
  · rw [State.job, hu, hn, List.head?_nil]
  · rw [State.job, hu, Queue.noted_nil hn, hn, List.head?_nil]

/-- A queue's oldest job is the same one, which waits if it did. -/
theorem Noted.job_some {q : Fin 16} {j : Job} (hj : s.job q = some j) :
    ∃ w, u.job q = some { j with waiting := w } ∧ (j.waiting = true → w = true) := by
  obtain ⟨t, ht⟩ := List.head?_eq_some_iff.mp hj
  rcases h.queue q with hu | hu
  · exact ⟨j.waiting, by rw [State.job, hu, ht, List.head?_cons], id⟩
  · exact ⟨true, by rw [State.job, hu, Queue.noted_cons ht, List.head?_cons], fun _ => rfl⟩

end

/-- Whether the oldest job of queue k lets job j of queue q start (R61). -/
def State.letsStart (s : State) (q : Fin 16) (j : Job) (k : Fin 16) : Bool :=
  match s.job k with
  | some o =>
    k == q || o.ctx != j.ctx || !(o.cmd == 9 || j.cmd == 9) || (o.phase == JobPhase.taken && !(o.order < j.order && s.markOk o))
  | none => true

theorem State.letsStart_none {s : State} {k : Fin 16} (hk : s.job k = none) (q : Fin 16) (j : Job) : s.letsStart q j k = true := by
  rw [State.letsStart, hk]

theorem State.letsStart_some {s : State} {k : Fin 16} {o : Job} (hk : s.job k = some o) (q : Fin 16) (j : Job) :
    s.letsStart q j k = (k == q || o.ctx != j.ctx || !(o.cmd == 9 || j.cmd == 9) ||
      (o.phase == JobPhase.taken && !(o.order < j.order && s.markOk o))) := by
  rw [State.letsStart, hk]

theorem State.admissible_eq (s : State) (q : Fin 16) (j : Job) :
    s.admissible q j = ((s.queue q).hold.isEmpty && !j.doomed && (s.ctx j.ctx).reset.isNone &&
      (j.waiting || ((s.ctx j.ctx).table.pending.isNone && (s.main.link.binds[j.ctx]).set.pending.isNone)) &&
      (List.finRange 16).all (s.letsStart q j)) := rfl

section
variable {s u : State} (h : Noted s u)
include h

theorem Noted.markOk (j : Job) : u.markOk j = s.markOk j := by
  rw [State.markOk, State.markOk, h.rest]

theorem Noted.letsStart (q : Fin 16) (j : Job) (k : Fin 16) : u.letsStart q j k = s.letsStart q j k := by
  cases hk : s.job k with
  | none => rw [State.letsStart_none (h.job_none hk), State.letsStart_none hk]
  | some o =>
    obtain ⟨w, hw, _⟩ := h.job_some hk
    rw [State.letsStart_some hw, State.letsStart_some hk, h.markOk]
    rfl

/-- Whether a job may start does not depend on which jobs are noted. -/
theorem Noted.admissible (q : Fin 16) (j : Job) : u.admissible q j = s.admissible q j := by
  have hold : (u.queue q).hold = (s.queue q).hold := by rw [← h.queue_rest q]
  have binds : u.main.link.binds = s.main.link.binds := by rw [h.rest]
  rw [State.admissible_eq, State.admissible_eq, hold, h.ctx, binds, funext (h.letsStart q j)]

end

/-- Whether the wait of a queue's oldest job is noted for a context (R61, log entry 89). -/
def State.awaitsMark (s : State) (c : Fin 8) (q : Fin 16) (j : Job) : Bool :=
  j.ctx == c && j.phase == .taken && j.headerBad.isNone && s.admissible q j && !s.markOk j

/-- One queue's part of `State.noteWaits`. -/
def State.noteWait (c : Fin 8) (s : State) (q : Fin 16) : State :=
  match s.job q with
  | some j => s.when (s.awaitsMark c q j) fun s => s.modJob q fun j => { j with waiting := true }
  | none => s

theorem State.noteWaits_eq (s : State) (c : Fin 8) : s.noteWaits c = (List.finRange 16).foldl (State.noteWait c) s := rfl

theorem State.modJob_noted (s : State) (q : Fin 16) : Noted s (s.modJob q fun j => { j with waiting := true }) where
  rest := rfl
  queue k := by
    change (upd s.main.queues q Queue.noted)[k] = _ ∨ (upd s.main.queues q Queue.noted)[k] = _
    rw [upd_get]
    split
    · exact .inr rfl
    · exact .inl rfl

theorem State.noteWait_noted (s : State) (c : Fin 8) (q : Fin 16) : Noted s (s.noteWait c q) := by
  unfold State.noteWait
  split
  · rw [State.when]
    split
    · exact s.modJob_noted q
    · exact .refl s
  · exact .refl s

theorem foldl_noteWait_noted (c : Fin 8) : ∀ (l : List (Fin 16)) (s : State), Noted s (l.foldl (State.noteWait c) s)
  | [], s => .refl s
  | q :: l, s => (s.noteWait_noted c q).trans (foldl_noteWait_noted c l (s.noteWait c q))

theorem State.noteWaits_noted (s : State) (c : Fin 8) : Noted s (s.noteWaits c) := foldl_noteWait_noted c _ s

/-- At the turn of its queue a job that waits for its mark is noted. -/
theorem State.noteWait_waiting {s : State} {c : Fin 8} {q : Fin 16} {j : Job} (hj : s.job q = some j)
    (hw : j.waiting = true ∨ s.awaitsMark c q j = true) : (s.noteWait c q).job q = some { j with waiting := true } := by
  by_cases hf : s.awaitsMark c q j = true
  · rw [State.noteWait, hj]
    change (s.when _ _).job q = _
    rw [State.when_of_true _ hf, State.modJob_job hj]
  · have ht : j.waiting = true := hw.resolve_right hf
    obtain ⟨w, hw', hm⟩ := (s.noteWait_noted c q).job_some hj
    rw [hw', hm ht]

theorem Noted.awaitsMark {s u : State} (h : Noted s u) (c : Fin 8) (q : Fin 16) (j : Job) :
    u.awaitsMark c q j = s.awaitsMark c q j := by
  rw [State.awaitsMark, State.awaitsMark, h.admissible, h.markOk]

/-- A job of a context that waits for its mark is noted by the commit, and so holds the activation back (log entry 89). -/
theorem State.noteWaits_waiting {s : State} {c : Fin 8} {q : Fin 16} {j : Job} (hj : s.job q = some j)
    (hw : s.awaitsMark c q j = true) : (s.noteWaits c).job q = some { j with waiting := true } := by
  obtain ⟨a, b, hab⟩ := List.append_of_mem (List.mem_finRange q)
  have before := foldl_noteWait_noted c a s
  obtain ⟨w, hja, hm⟩ := before.job_some hj
  have turn : ((a.foldl (State.noteWait c) s).noteWait c q).job q = some { j with waiting := true } := by
    cases w with
    | true => exact State.noteWait_waiting (j := { j with waiting := true }) hja (.inl rfl)
    | false =>
      have hjw : { j with waiting := false } = j := by
        rw [show false = j.waiting from (Bool.eq_false_iff.mpr fun h => Bool.false_ne_true (hm h)).symm]
      rw [hjw] at hja
      exact State.noteWait_waiting hja (.inr ((before.awaitsMark c q j).trans hw))
  obtain ⟨w', hjb, hm'⟩ := (foldl_noteWait_noted c b _).job_some turn
  rw [State.noteWaits_eq, hab, List.foldl_append, List.foldl_cons, hjb, hm' rfl]

theorem State.ctxRuns_of_waiting {s : State} {c : Fin 8} {q : Fin 16} {j : Job} (hj : s.job q = some j) (hc : j.ctx = c)
    (hw : j.waiting = true) : s.ctxRuns c = true := by
  obtain ⟨t, ht⟩ := List.head?_eq_some_iff.mp hj
  rw [State.ctxRuns, Bool.or_eq_true, List.any_eq_true]
  refine .inr ⟨q, List.mem_finRange q, ?_⟩
  rw [ht, List.any_cons, hc, hw]
  simp

/-! ### Activation of a parcel table (R85, R89) -/

theorem exec_parcelTableActivate_none {s : State} {c : Fin 8} (h : (s.ctx c).table.pending = none) :
    exec (.parcelTableActivate c) s = .next s := by
  change execParcelTableActivate c s = _
  rw [execParcelTableActivate, h]

theorem exec_parcelTableActivate_some {s : State} {c : Fin 8} {t : PTable} (h : (s.ctx c).table.pending = some t) :
    exec (.parcelTableActivate c) s = .next (s.when (s.serving && !s.ctxRuns c) fun s =>
      s.modCtx c fun x => { x with table := { x.table with active := (s.checkTable t).1, pending := none },
                                   badEntry := x.badEntry || (s.checkTable t).2 }) := by
  change execParcelTableActivate c s = _
  rw [execParcelTableActivate, h]

/-- A context whose pending table has become active. -/
def State.activatedCtx (s : State) (c : Fin 8) (t : PTable) : Ctx :=
  { s.ctx c with
    table := { (s.ctx c).table with active := (s.checkTable t).1, pending := none },
    badEntry := (s.ctx c).badEntry || (s.checkTable t).2 }

theorem exec_parcelTableActivate_go {s : State} {c : Fin 8} {t : PTable} (hs : s.serving = true) (h : (s.ctx c).table.pending = some t)
    (hr : s.ctxRuns c = false) : exec (.parcelTableActivate c) s = .next (s.modCtx c fun _ => s.activatedCtx c t) := by
  rw [exec_parcelTableActivate_some h, State.when_of_true _ (by rw [hs, hr]; rfl)]
  exact congrArg Host.Outcome.next (State.modCtx_congr rfl)

theorem State.checkTable_entry (s : State) (t : PTable) (i : Fin 32) :
    (s.checkTable t).1[i] = if s.entryBad t[i].bytes = none then t[i] else { t[i] with rights := setBit t[i].rights 7 false } := by
  rw [State.checkTable, Fin.getElem_fin, Vector.getElem_ofFn]
  cases h : s.entryBad t[i].bytes <;> simp_all

theorem State.checkTable_bad (s : State) (t : PTable) :
    (s.checkTable t).2 = true ↔ ∃ i : Fin 32, s.entryBad t[i].bytes ≠ none := by
  simp [State.checkTable, Option.isSome_iff_ne_none]

/-! ### The mode of shared memory (R83) -/

/-- The link with VALID of every binding clear (R264). -/
def Link.unbound (l : Link) : Link :=
  { l with binds := Vector.ofFn fun c =>
      { l.binds[c] with set := { l.binds[c].set with active := { l.binds[c].set.active with valid := false } } } }

theorem State.writeShmMode_refused {s : State} {split : Bool} (h : (s.shmIdle && (split || s.otp.shmGroups == 7)) = false) :
    s.writeShmMode split = s.modShm fun m => { m with modeBusy := true } := by
  rw [State.writeShmMode, h]
  rfl

theorem State.writeShmMode_accepted {s : State} {split : Bool} (h : (s.shmIdle && (split || s.otp.shmGroups == 7)) = true) :
    s.writeShmMode split = if split = s.main.shm.split then s.modLink Link.unbound
      else ((s.modLink Link.unbound).modShm fun m => { m with split := split, mem := { stamp := s.stamp } }).nextStamp := by
  rw [State.writeShmMode, h]
  rfl

theorem State.modLink_unbound_bound (s : State) (k : Fin 8) : ((s.modLink Link.unbound).bound k).valid = false := by
  change ((s.main.link.unbound).binds[k].set.active).valid = false
  rw [Link.unbound, Fin.getElem_fin, Vector.getElem_ofFn]

/-! ### The banks of the memories (R79, R82) -/

/-- A counter that each entry of a list may raise by 1 counts the entries that do. -/
theorem foldl_counter {n : Nat} {ι : Type} {F : Vector (BitVec 64) n → ι → Vector (BitVec 64) n} {hit : ι → Bool} (b : Fin n)
    (hF : ∀ v i, (F v i)[b] = v[b] + if hit i then 1 else 0) (l : List ι) (v : Vector (BitVec 64) n) :
    (l.foldl F v)[b] = v[b] + BitVec.ofNat 64 (l.countP hit) := by
  induction l generalizing v with
  | nil => rw [List.foldl_nil, List.countP_nil]; exact (BitVec.add_zero _).symm
  | cons i l ih =>
    rw [List.foldl_cons, ih, hF, List.countP_cons, BitVec.add_assoc, Nat.add_comm, BitVec.ofNat_add]
    split <;> rfl

section
variable (m : Shm) (active : Fin 29 → Bool) (want : Fin 29 → Option (BitVec 28))

theorem upd_count_get {n : Nat} (v : Vector (BitVec 64) n) (k b : Fin n) :
    (upd v k (· + 1))[b] = v[b] + if k == b then 1 else 0 := by
  rw [upd_get]
  by_cases h : k = b <;> simp [h]

/-- What the requesters of shared memory request in a clock: what they were not served, or what an engine at work asks for. -/
def Shm.requests : Vector (Option (BitVec 28)) 29 :=
  Vector.ofFn fun r =>
    match m.waits[r] with
    | some a => some a
    | none => if active r then want r else none

theorem Shm.requests_get (r : Fin 29) :
    (m.requests active want)[r] = if m.waits[r].isSome then m.waits[r] else if active r then want r else none := by
  rw [Shm.requests, Fin.getElem_fin, Vector.getElem_ofFn]
  cases h : m.waits[r] with
  | none => rfl
  | some a => rfl

/-- The requester r waits where the bank of its address grants another one. -/
def Shm.waitOf (req : Vector (Option (BitVec 28)) 29) (r : Fin 29) : Option (BitVec 28) :=
  req[r].filter fun a => m.grant req (shmBank m.split a.toNat) != some r

theorem Shm.bankClock_waits (r : Fin 29) : (m.bankClock active want).waits[r] = m.waitOf (m.requests active want) r := by
  unfold Shm.bankClock
  rw [Fin.getElem_fin, Vector.getElem_ofFn]
  rfl

theorem Shm.bankClock_granted (b : Fin 64) :
    (m.bankClock active want).granted[b] = (m.grant (m.requests active want) b).getD m.granted[b] := by
  unfold Shm.bankClock
  rw [Fin.getElem_fin, Vector.getElem_ofFn]
  rfl

theorem Shm.bankClock_conflicts (b : Fin 64) : (m.bankClock active want).conflicts[b] = m.conflicts[b] +
    BitVec.ofNat 64 ((List.finRange 29).countP fun r =>
      (m.bankClock active want).waits[r].any fun a => shmBank m.split a.toNat == b) := by
  simp only [Shm.bankClock_waits]
  unfold Shm.bankClock
  dsimp only
  refine foldl_counter b (fun v r => ?_) _ _
  change _ = v[b] + if (m.waitOf (m.requests active want) r).any (fun a => shmBank m.split a.toNat == b) then 1 else 0
  split <;> rename_i hw
  · rw [show m.waitOf (m.requests active want) r = some _ from hw]
    exact upd_count_get _ _ _
  · rw [show m.waitOf (m.requests active want) r = none from hw]
    exact (BitVec.add_zero _).symm

end

/-- Whether the requester r asks for the bank b. -/
def Shm.asks (m : Shm) (req : Vector (Option (BitVec 28)) 29) (b : Fin 64) (r : Fin 29) : Bool :=
  req[r].any fun a => shmBank m.split a.toNat == b

/-- A bank that is requested grants a requester of it: the rotation passes every one (R82). -/
theorem Shm.grant_of_request {m : Shm} {req : Vector (Option (BitVec 28)) 29} {r : Fin 29} {a : BitVec 28} (h : req[r] = some a) :
    ∃ k a', m.grant req (shmBank m.split a.toNat) = some k ∧ req[k] = some a' ∧
      shmBank m.split a'.toNat = shmBank m.split a.toNat := by
  generalize hb : shmBank m.split a.toNat = b
  have asks : m.asks req b r = true := by
    rw [Shm.asks, h, Option.any_some, hb, beq_self_eq_true]
  have passed : r ∈ (List.range 29).map fun i => Fin.ofNat 29 (m.granted[b].val + 1 + i) := by
    refine List.mem_map.mpr ⟨(r.val + 28 + 29 - m.granted[b].val) % 29, List.mem_range.mpr (Nat.mod_lt _ (by decide)), Fin.ext ?_⟩
    have := m.granted[b].isLt
    have := r.isLt
    change (m.granted[b].val + 1 + (r.val + 28 + 29 - m.granted[b].val) % 29) % 29 = r.val
    omega
  obtain ⟨k, hk⟩ := Option.isSome_iff_exists.mp (List.find?_isSome (p := m.asks req b).mpr ⟨r, passed, asks⟩)
  obtain ⟨a', ha', hbank⟩ := (Option.any_eq_true _ _).mp (List.find?_some (p := m.asks req b) hk)
  exact ⟨k, a', hk, ha', beq_iff_eq.mp hbank⟩

/-- One requester of a bank is served; every other one of it waits (R82). -/
theorem Shm.bankClock_of_request (m : Shm) (active : Fin 29 → Bool) (want : Fin 29 → Option (BitVec 28)) {r : Fin 29} {a : BitVec 28}
    (h : (m.requests active want)[r] = some a) :
    ∃ k a', (m.requests active want)[k] = some a' ∧ shmBank m.split a'.toNat = shmBank m.split a.toNat ∧
      (m.bankClock active want).granted[shmBank m.split a.toNat] = k ∧ (m.bankClock active want).waits[k] = none ∧
      ∀ k' a', (m.requests active want)[k'] = some a' → shmBank m.split a'.toNat = shmBank m.split a.toNat → k' ≠ k →
        (m.bankClock active want).waits[k'] = some a' := by
  obtain ⟨k, a', hk, hr, hb⟩ := m.grant_of_request h
  refine ⟨k, a', hr, hb, ?_, ?_, fun k' a'' hr' hb' hne => ?_⟩
  · rw [m.bankClock_granted, hk, Option.getD_some]
  · rw [m.bankClock_waits, Shm.waitOf, hr, Option.filter_some, hb, hk, bne_self_eq_false]
    rfl
  · rw [m.bankClock_waits, Shm.waitOf, hr', Option.filter_some, hb', hk]
    exact if_pos (bne_iff_ne.mpr fun e => hne (Option.some.inj e).symm)

section
variable (t : Station) (trv : Bool) (want : Fin 5 → Option (BitVec 19))

/-- What the ports of a station request in a clock. -/
def Station.requests : Vector (Option (BitVec 19)) 5 :=
  Vector.ofFn fun e =>
    match t.ports[e] with
    | some a => some a
    | none => if t.portActive trv e then want e else none

theorem Station.requests_get (e : Fin 5) :
    (t.requests trv want)[e] = if t.ports[e].isSome then t.ports[e] else if t.portActive trv e then want e else none := by
  rw [Station.requests, Fin.getElem_fin, Vector.getElem_ofFn]
  cases h : t.ports[e] with
  | none => rfl
  | some a => rfl

theorem Station.bankClock_ports (e : Fin 5) : (t.bankClock trv want).ports[e] = portWaits (t.requests trv want) e := by
  unfold Station.bankClock
  rw [Fin.getElem_fin, Vector.getElem_ofFn]
  rfl

theorem Station.bankClock_conflicts (k : Fin 60) : (t.bankClock trv want).conflicts[k] = t.conflicts[k] +
    BitVec.ofNat 64 ((List.finRange 5).countP fun e =>
      ((t.bankClock trv want).ports[e]).any fun a => Fin.ofNat 60 ((stnBank a.toNat).val * 5 + e.val) == k) := by
  simp only [Station.bankClock_ports]
  unfold Station.bankClock
  dsimp only
  refine foldl_counter k (fun v e => ?_) _ _
  change _ = v[k] +
    if (portWaits (t.requests trv want) e).any (fun a => Fin.ofNat 60 ((stnBank a.toNat).val * 5 + e.val) == k) then 1 else 0
  split <;> rename_i hw
  · rw [show portWaits (t.requests trv want) e = some _ from hw]
    exact upd_count_get _ _ _
  · rw [show portWaits (t.requests trv want) e = none from hw]
    exact (BitVec.add_zero _).symm

end

/-- A port waits where one before it in the order of R79 asks for its bank. -/
theorem portWaits_none {req : Vector (Option (BitVec 19)) 5} {e : Fin 5} {a : BitVec 19} (h : req[e] = some a)
    (first : ∀ d < e, ∀ b, req[d] = some b → stnBank b.toNat ≠ stnBank a.toNat) : portWaits req e = none := by
  rw [portWaits, h, Option.filter_some]
  refine if_neg ?_
  rw [List.any_eq_true]
  rintro ⟨d, -, hd⟩
  obtain ⟨hlt, hb⟩ := Bool.and_eq_true_iff.mp hd
  obtain ⟨b, hreq, hbank⟩ := (Option.any_eq_true _ _).mp hb
  exact first d (of_decide_eq_true hlt) b hreq (beq_iff_eq.mp hbank)

theorem portWaits_some {req : Vector (Option (BitVec 19)) 5} {e : Fin 5} {a : BitVec 19} (h : req[e] = some a)
    (first : ¬ ∀ d < e, ∀ b, req[d] = some b → stnBank b.toNat ≠ stnBank a.toNat) : portWaits req e = some a := by
  push Not at first
  obtain ⟨d, hlt, b, hreq, hbank⟩ := first
  rw [portWaits, h, Option.filter_some]
  refine if_pos (List.any_eq_true.mpr ⟨d, List.mem_finRange d, ?_⟩)
  rw [decide_eq_true hlt, Bool.true_and, hreq, Option.any_some, hbank, beq_self_eq_true]

/-- The counter of a bank and an engine is that engine's alone (R99). -/
theorem Station.bankClock_count (t : Station) (trv : Bool) (want : Fin 5 → Option (BitVec 19)) (b : Fin 12) (e : Fin 5) :
    (t.bankClock trv want).conflicts.getD (5 * b.val + e.val) 0 = t.conflicts.getD (5 * b.val + e.val) 0 +
      if (t.bankClock trv want).ports[e].any (fun a => stnBank a.toNat == b) then 1 else 0 := by
  have hk : 5 * b.val + e.val < 60 := by omega
  have own : ∀ d : Fin 5, ((t.bankClock trv want).ports[d].any fun a =>
      Fin.ofNat 60 ((stnBank a.toNat).val * 5 + d.val) == (⟨5 * b.val + e.val, hk⟩ : Fin 60)) =
      (d == e && (t.bankClock trv want).ports[e].any fun a => stnBank a.toNat == b) := by
    intro d
    rw [Bool.eq_iff_iff, Bool.and_eq_true, beq_iff_eq, Option.any_eq_true, Option.any_eq_true]
    constructor
    · rintro ⟨a, ha, hc⟩
      have hc : ((stnBank a.toNat).val * 5 + d.val) % 60 = 5 * b.val + e.val := congrArg Fin.val (beq_iff_eq.mp hc)
      have hde : d = e := Fin.ext (by omega)
      subst hde
      exact ⟨rfl, a, ha, beq_iff_eq.mpr (Fin.ext (by omega))⟩
    · rintro ⟨rfl, a, ha, hb⟩
      refine ⟨a, ha, beq_iff_eq.mpr (Fin.ext ?_)⟩
      change ((stnBank a.toNat).val * 5 + d.val) % 60 = 5 * b.val + d.val
      rw [beq_iff_eq.mp hb]
      omega
  have once : (List.finRange 5).countP (fun d => d == e && (t.bankClock trv want).ports[e].any fun a => stnBank a.toNat == b) =
      if (t.bankClock trv want).ports[e].any (fun a => stnBank a.toNat == b) then 1 else 0 := by
    cases (t.bankClock trv want).ports[e].any fun a => stnBank a.toNat == b
    · simp
    · simp only [Bool.and_true]
      exact List.count_eq_one_of_mem (List.nodup_finRange 5) (List.mem_finRange e)
  rw [getD_of_lt _ _ hk, getD_of_lt _ _ hk]
  refine (t.bankClock_conflicts trv want ⟨5 * b.val + e.val, hk⟩).trans (congrArg _ ?_)
  simp only [own]
  rw [once]
  split <;> rfl

/-- A write of a station's block that holds no station has no effect. -/
theorem State.stnWrite_absent {s : State} {n : Fin 24} (hs : s.serving = true) (hh : s.main.pwr.state ≠ .hold)
    (hp : s.present n = false) (f : State → State) : s.stnWrite n f = s := by
  rw [State.stnWrite, hs, hp, beq_eq_false_iff_ne.mpr hh]
  rfl

/-- Settles O60, by the requests of each clock of the banks and, for the tables, by the jobs that a commit notes. -/
theorem tablesModeAndCounters : Obligations.TablesModeAndCounters := by
  intro c n split s hs
  refine ⟨?_, ?_, exec_parcelTableActivate_none, fun t ht => ⟨fun hr => ?_, fun hr => ?_⟩, ⟨fun hno => ?_, fun hid hal => ?_⟩,
    ?_, ?_, ?_, ?_, ?_, fun hh hp => ⟨?_, ?_⟩, fun hh => ⟨?_, ?_⟩, fun hh hp => ⟨?_, ?_⟩⟩
  · exact congrArg Host.Outcome.next (State.when_of_true _ hs)
  · intro u
    have hn : Noted s u := s.noteWaits_noted c
    exact ⟨hn.rest, hn.queue_rest, hn.queue_jobs, fun q j hj hc hp hb ha hm =>
      State.ctxRuns_of_waiting (State.noteWaits_waiting hj (by simp [State.awaitsMark, hc, hp, hb, ha, hm])) hc rfl⟩
  · rw [exec_parcelTableActivate_some ht, hs, hr]
    rfl
  · refine ⟨_, exec_parcelTableActivate_go hs ht hr, ?_⟩
    rw [State.modCtx_ctx, if_pos rfl]
    exact ⟨rfl, rfl, (Bool.or_eq_true _ _).to_iff.trans (or_congr_right (s.checkTable_bad t)), s.checkTable_entry t⟩
  · refine congrArg Host.Outcome.next ((State.when_of_true _ hs).trans (State.writeShmMode_refused ?_))
    rw [Bool.and_eq_false_iff, Bool.or_eq_false_iff]
    exact hno.imp_right fun h => by simpa using h
  · have hok : (s.shmIdle && (split || s.otp.shmGroups == 7)) = true := by
      rw [hid, Bool.true_and, Bool.or_eq_true, beq_iff_eq]
      exact hal
    refine ⟨_, congrArg Host.Outcome.next ((State.when_of_true _ hs).trans (State.writeShmMode_accepted hok)), ?_⟩
    split
    next h => exact ⟨h.symm, s.modLink_unbound_bound, fun _ => rfl, fun hne => absurd h hne, rfl, rfl⟩
    next h => exact ⟨rfl, s.modLink_unbound_bound, fun he => absurd he h, fun _ => rfl, rfl, rfl⟩
  · exact congrArg Host.Outcome.next (State.when_of_true _ hs)
  · intro m active want v bank req
    have hreq : ∀ r, req r = (m.requests active want)[r] := fun r => (m.requests_get active want r).symm
    simp only [hreq]
    refine ⟨fun r hr => ?_, fun r a hr => ?_, m.bankClock_conflicts active want⟩
    · rw [m.bankClock_waits, Shm.waitOf, hr, Option.filter_none]
    · exact m.bankClock_of_request active want hr
  · intro t trv want v bank req
    have hreq : ∀ e, req e = (t.requests trv want)[e] := fun e => (t.requests_get trv want e).symm
    simp only [hreq]
    refine ⟨fun e he => ?_, fun e a he => ⟨fun h => ?_, fun h => ?_⟩, rfl, t.bankClock_count trv want⟩
    · rw [t.bankClock_ports, portWaits, he, Option.filter_none]
    · exact (t.bankClock_ports trv want e).trans (portWaits_none he h)
    · exact (t.bankClock_ports trv want e).trans (portWaits_some he h)
  · exact congrArg Host.Outcome.next (State.when_of_true _ hs)
  · exact congrArg Host.Outcome.next (State.when_of_true _ hs)
  · exact congrArg Host.Outcome.next (State.stnWrite_go hs hh hp _)
  · exact congrArg Host.Outcome.next (State.stnWrite_go hs hh hp _)
  · exact congrArg Host.Outcome.next (State.stnWrite_hold hs hh n _)
  · exact congrArg Host.Outcome.next (State.stnWrite_hold hs hh n _)
  · exact congrArg Host.Outcome.next (State.stnWrite_absent hs hh hp _)
  · exact congrArg Host.Outcome.next (State.stnWrite_absent hs hh hp _)

end Sys2Proof.Machine

/-!
## Context resets (chapters 4, 12 and 13)
-/

namespace Sys2Proof.Machine

/-! ### Windows filled with zeros (R91) -/

/-- The state u is s with zero in every byte that `hit` names, and no other byte of a space changed. -/
structure Zeroed (s u : State) (hit : Space → Nat → Prop) : Prop where
  memWf : u.memWf = true
  otp : u.otp = s.otp
  inside : ∀ sp a, hit sp a → u.spaceByte sp a = 0
  outside : ∀ sp a, ¬ hit sp a → u.spaceByte sp a = s.spaceByte sp a

theorem Zeroed.refl {s : State} (h : s.memWf = true) {hit : Space → Nat → Prop} (none : ∀ sp a, ¬ hit sp a) : Zeroed s s hit :=
  ⟨h, rfl, fun sp a ha => absurd ha (none sp a), fun _ _ _ => rfl⟩

theorem Zeroed.congr {s u : State} {hit hit' : Space → Nat → Prop} (h : Zeroed s u hit) (e : ∀ sp a, hit' sp a ↔ hit sp a) :
    Zeroed s u hit' :=
  ⟨h.memWf, h.otp, fun sp a ha => h.inside sp a ((e sp a).mp ha), fun sp a ha => h.outside sp a (mt (e sp a).mpr ha)⟩

theorem Zeroed.trans {s t u : State} {first next : Space → Nat → Prop} (h : Zeroed s t first) (g : Zeroed t u next) :
    Zeroed s u fun sp a => first sp a ∨ next sp a where
  memWf := g.memWf
  otp := g.otp.trans h.otp
  inside sp a ha := by
    by_cases hn : next sp a
    · exact g.inside sp a hn
    · exact (g.outside sp a hn).trans (h.inside sp a (ha.resolve_right hn))
  outside sp a ha := by
    obtain ⟨hf, hn⟩ := not_or.mp ha
    exact (g.outside sp a hn).trans (h.outside sp a hf)

/-- A list of fills zeroes what one of them does. -/
theorem foldl_zeroed {α : Type} {f : State → α → State} {hit : α → Space → Nat → Prop} (otp : Otp)
    (hf : ∀ s a, s.memWf = true → s.otp = otp → Zeroed s (f s a) (hit a)) :
    ∀ (l : List α) (s : State), s.memWf = true → s.otp = otp → Zeroed s (l.foldl f s) fun sp a => ∃ x ∈ l, hit x sp a
  | [], _, hs, _ => .refl hs fun _ _ ⟨_, hx, _⟩ => absurd hx List.not_mem_nil
  | x :: l, s, hs, ho =>
    have head := hf s x hs ho
    (head.trans (foldl_zeroed otp hf l (f s x) head.memWf (head.otp.trans ho))).congr fun sp a => by
      simp only [List.mem_cons, exists_eq_or_imp]

/-- A window in one station's memory, where the chip has that station. -/
def State.fillStation (a n : Nat) (s : State) (k : Fin 24) : State :=
  if s.present k then s.modStation k fun t => { t with mem := t.mem.zeroFill a n } else s

theorem State.fillStation_zeroed {s : State} (hs : s.memWf = true) (a n : Nat) (k : Fin 24) :
    Zeroed s (s.fillStation a n k) fun sp x => sp = .station k ∧ s.otp.stationMap.getLsbD k.val = true ∧ a ≤ x ∧ x < a + n := by
  obtain ⟨-, -, -, hst, -⟩ := s.memWf_iff.mp hs
  have hmem : (s.station k).mem.wf = true := by
    have hk := hst k
    rw [Station.memWf_eq, List.all_eq_true] at hk
    exact hk _ (by simp [Station.mems])
  unfold State.fillStation
  split
  next hp =>
    have hkept : Kept s (s.modStation k fun t => { t with mem := t.mem.zeroFill a n }) :=
      State.modStation_kept (.refl s) fun t ht => by
        rw [Station.memWf_eq] at ht ⊢
        simp only [Station.mems, List.all_cons, Bool.and_eq_true] at ht ⊢
        exact ⟨Memory.wf_zeroFill ht.1 a n, ht.2⟩
    refine ⟨((Kept.iff _ _).mp hkept).1 hs, rfl, ?_, ?_⟩
    · rintro sp x ⟨rfl, -, h0, h1⟩
      simp only [State.spaceByte]
      rw [State.modStation_station_same]
      exact Memory.read_zeroFill_in hmem h0 h1
    · intro sp x hout
      cases sp with
      | shm => rfl
      | station j =>
        simp only [State.spaceByte]
        by_cases hj : j = k
        · subst hj
          rw [State.modStation_station_same]
          refine Memory.read_zeroFill_out hmem ?_
          by_contra hin
          exact hout ⟨rfl, hp, by omega, by omega⟩
        · rw [State.modStation_station_ne hj]
  next hp => exact .refl hs fun sp x ⟨_, h, _⟩ => hp h

theorem State.fillShm_zeroed {s : State} (hs : s.memWf = true) (a n : Nat) :
    Zeroed s (s.modShm fun m => { m with mem := m.mem.zeroFill a n }) fun sp x => sp = .shm ∧ a ≤ x ∧ x < a + n := by
  obtain ⟨-, -, hshm, -, -⟩ := s.memWf_iff.mp hs
  refine ⟨((Kept.iff _ _).mp (State.modShm_kept (.refl s) fun m hm => Memory.wf_zeroFill hm a n)).1 hs, rfl, ?_, ?_⟩
  · rintro sp x ⟨rfl, h0, h1⟩
    exact Memory.read_zeroFill_in hshm h0 h1
  · intro sp x hout
    cases sp with
    | station k => rfl
    | shm =>
      refine Memory.read_zeroFill_out hshm ?_
      by_contra hin
      exact hout ⟨rfl, by omega, by omega⟩

/-- The bytes of a parcel's window, where it is not RESIDENT (R91). -/
def Parcel.zeroes (otp : Otp) (e : Parcel) (sp : Space) (a : Nat) : Prop :=
  e.valid = true ∧ e.has 4 = false ∧ e.base.toNat ≤ a ∧ a < e.base.toNat + e.bound.toNat ∧
    (match sp with
     | .shm => e.space = 0x1F
     | .station k => otp.stationMap.getLsbD k.val = true ∧ (e.space = 0x1E ∨ e.space.toNat = k.val))

theorem Parcel.zeroes_shm {otp : Otp} {e : Parcel} {a : Nat} : e.zeroes otp .shm a ↔
    e.valid = true ∧ e.has 4 = false ∧ e.base.toNat ≤ a ∧ a < e.base.toNat + e.bound.toNat ∧ e.space = 0x1F := Iff.rfl

theorem Parcel.zeroes_station {otp : Otp} {e : Parcel} {k : Fin 24} {a : Nat} : e.zeroes otp (.station k) a ↔
    e.valid = true ∧ e.has 4 = false ∧ e.base.toNat ≤ a ∧ a < e.base.toNat + e.bound.toNat ∧
      otp.stationMap.getLsbD k.val = true ∧ (e.space = 0x1E ∨ e.space.toNat = k.val) := Iff.rfl

theorem Parcel.not_zeroes_shm {otp : Otp} {e : Parcel} {a : Nat} (h : e.space ≠ 0x1F) : ¬ e.zeroes otp .shm a := by
  rintro ⟨-, -, -, -, he⟩
  exact h he

theorem State.zeroParcel_zeroed {s : State} (hs : s.memWf = true) (p : Parcel) : Zeroed s (s.zeroParcel p) (p.zeroes s.otp) := by
  unfold State.zeroParcel
  split
  next h =>
    refine .refl hs fun sp a ⟨hv, hr, _⟩ => ?_
    rw [hv, hr] at h
    exact absurd h (by decide)
  next h =>
    have hv : p.valid = true := by cases hv : p.valid <;> simp_all
    have hr : p.has 4 = false := by cases hr : p.has 4 <;> simp_all
    dsimp only
    split
    next hshm =>
      refine (State.fillShm_zeroed hs _ _).congr fun sp a => ?_
      cases sp with
      | shm => simp [Parcel.zeroes_shm, hv, hr, hshm]
      | station k =>
        have := k.isLt
        simp only [Parcel.zeroes_station, hshm, reduceCtorEq, false_and, iff_false]
        rintro ⟨-, -, -, -, -, he | he⟩
        · exact absurd he (by decide)
        · change 31 = k.val at he
          omega
    next hshm =>
      split
      next hall =>
        refine (foldl_zeroed (f := State.fillStation p.base.toNat p.bound.toNat) s.otp
          (fun t k ht ho => ho ▸ State.fillStation_zeroed ht _ _ k) (List.finRange 24) s hs rfl).congr fun sp a => ?_
        cases sp with
        | shm => exact iff_of_false (Parcel.not_zeroes_shm hshm) (by simp)
        | station k =>
          simp only [Parcel.zeroes_station, hv, hr, hall, List.mem_finRange, true_and, Space.station.injEq, true_or, and_true,
            exists_eq_left']
          exact ⟨fun ⟨h0, h1, hp⟩ => ⟨hp, h0, h1⟩, fun ⟨hp, h0, h1⟩ => ⟨h0, h1, hp⟩⟩
      next hall =>
        split
        next hlt =>
          refine (State.fillStation_zeroed hs _ _ _).congr fun sp a => ?_
          cases sp with
          | shm => exact iff_of_false (Parcel.not_zeroes_shm hshm) (by simp)
          | station k =>
            simp only [Parcel.zeroes_station, hv, hr, hall, true_and, Space.station.injEq, false_or]
            constructor
            · rintro ⟨h0, h1, hp, he⟩
              exact ⟨Fin.ext he.symm, he ▸ hp, h0, h1⟩
            · rintro ⟨rfl, hp, h0, h1⟩
              exact ⟨h0, h1, hp, rfl⟩
        next hlt =>
          refine .refl hs fun sp a hz => ?_
          cases sp with
          | shm => exact Parcel.not_zeroes_shm hshm hz
          | station k =>
            obtain ⟨-, -, -, -, -, he | he⟩ := Parcel.zeroes_station.mp hz
            · exact hall he
            · exact hlt (he ▸ k.isLt)

theorem State.zeroWindows_zeroed {s : State} (hs : s.memWf = true) (t : PTable) :
    Zeroed s (s.zeroWindows t) fun sp a => ∃ i : Fin 32, (t[i]).zeroes s.otp sp a :=
  (foldl_zeroed s.otp (fun u p hu ho => ho ▸ State.zeroParcel_zeroed hu p) t.toList s hs rfl).congr fun sp a => by
    constructor
    · rintro ⟨i, hi⟩
      exact ⟨t[i], Vector.mem_toList_iff.mpr (Vector.getElem_mem i.isLt), hi⟩
    · rintro ⟨p, hp, hz⟩
      obtain ⟨i, hi, rfl⟩ := Vector.mem_iff_getElem.mp (Vector.mem_toList_iff.mp hp)
      exact ⟨⟨i, hi⟩, hz⟩

/-! ### The jobs that a trigger marks (R273, R279) -/

/-- Every job of the context in a queue is marked. -/
def State.allDoomed (s : State) (c : Fin 8) : Prop := ∀ q, ∀ j ∈ (s.queue q).jobs, j.ctx = c → j.doomed = true

theorem heldJob_doomed {h : Held} {p : Fin 16 × Job} (e : heldJob h = some p) : p.2.doomed = true := by
  unfold heldJob at e
  split at e
  · obtain rfl := Option.some.inj e
    rfl
  · exact absurd e (by simp)

theorem mem_insertJob {j x : Job} : ∀ {l : List Job}, x ∈ insertJob j l → x = j ∨ x ∈ l
  | [], h => .inl (List.mem_singleton.mp h)
  | k :: t, h => by
    rw [insertJob] at h
    split at h
    · exact List.mem_cons.mp h
    · rcases List.mem_cons.mp h with rfl | h
      · exact .inr List.mem_cons_self
      · exact (mem_insertJob h).imp_right (List.mem_cons_of_mem k)

/-- Jobs that are marked join the queues: no job of the context is left unmarked. -/
theorem foldl_insertJob_allDoomed (c : Fin 8) : ∀ (l : List (Fin 16 × Job)) (s : State), (∀ p ∈ l, p.2.doomed = true) → s.allDoomed c →
    (l.foldl (fun s p => s.modQueue p.1 fun x => { x with jobs := insertJob p.2 x.jobs }) s).allDoomed c
  | [], _, _, hs => hs
  | p :: l, s, hl, hs => by
    refine foldl_insertJob_allDoomed c l _ (fun x hx => hl x (List.mem_cons_of_mem p hx)) fun q j hj hc => ?_
    change j ∈ (upd s.main.queues p.1 fun x => { x with jobs := insertJob p.2 x.jobs })[q].jobs at hj
    rw [upd_get] at hj
    split at hj
    · rcases mem_insertJob hj with rfl | hj
      · exact hl p List.mem_cons_self
      · exact hs q j hj hc
    · exact hs q j hj hc

/-- The jobs of a context marked in every queue. -/
def State.markJobs (s : State) (c : Fin 8) : State :=
  s.modMain fun m => { m with queues := Vector.ofFn fun q =>
    { m.queues[q] with jobs := m.queues[q].jobs.map fun j => if j.ctx = c then { j with doomed := true } else j } }

theorem State.doomJobs_eq (s : State) (c : Fin 8) : s.doomJobs c =
    ((s.ctx c).held.filterMap heldJob).foldl (fun s p => s.modQueue p.1 fun x => { x with jobs := insertJob p.2 x.jobs })
      (s.markJobs c) := rfl

theorem State.markJobs_jobs (s : State) (c : Fin 8) (q : Fin 16) : ((s.markJobs c).queue q).jobs =
    (s.queue q).jobs.map fun j => if j.ctx = c then { j with doomed := true } else j := by
  change ((Vector.ofFn _)[q] : Queue).jobs = _
  rw [Fin.getElem_fin, Vector.getElem_ofFn]

theorem State.doomJobs_allDoomed {s : State} {c k : Fin 8} (h : c = k ∨ s.allDoomed c) : (s.doomJobs k).allDoomed c := by
  rw [State.doomJobs_eq]
  refine foldl_insertJob_allDoomed c _ _ (fun p hp => ?_) fun q j hj hc => ?_
  · obtain ⟨x, -, hx⟩ := List.mem_filterMap.mp hp
    exact heldJob_doomed hx
  · rw [State.markJobs_jobs] at hj
    obtain ⟨i, hi, rfl⟩ := List.mem_map.mp hj
    by_cases hk : i.ctx = k
    · rw [if_pos hk]
    · rw [if_neg hk] at hc ⊢
      exact h.elim (fun e => absurd (hc.trans e) hk) fun hs => hs q i hi hc

theorem State.doomJobs_rest (s : State) (c : Fin 8) : s.doomJobs c =
    { s with main := { s.main with queues := (s.doomJobs c).main.queues } } := by
  rw [State.doomJobs_eq]
  refine List.foldlRecOn _ _ (motive := fun t : State => t = { s with main := { s.main with queues := t.main.queues } }) rfl ?_
  intro t ht p _
  rw [ht]
  rfl

/-! ### A trigger (R273, R274) -/

theorem State.triggerReset_of_resetting {s : State} {c : Fin 8} (h : (s.ctx c).reset.isSome = true) (cause : BitVec 3) :
    s.triggerReset c cause = s := by
  rw [State.triggerReset, h]
  rfl

/-- What the trigger records of a context. -/
def State.resetRun (s : State) (c : Fin 8) (cause : BitVec 3) : ResetRun :=
  { time := s.time, cause := cause, addr := (s.ctx c).sampleAddr, en := (s.ctx c).sampleEn && cause != 4, sel := (s.ctx c).sampleSel,
    stations := (List.finRange 24).foldl (fun m n =>
      if (s.station n).running && (s.station n).ctx == c then m ||| BitVec.twoPow 24 n.val else m) 0,
    pcs := Vector.ofFn fun n => (s.station n).pcWord, table := (s.ctx c).table.active }

/-- A context whose reset has been triggered. -/
def State.triggeredCtx (s : State) (c : Fin 8) (cause : BitVec 3) : Ctx :=
  { s.ctx c with
    reset := some (s.resetRun c cause)
    step := 1
    waiting := !s.main.resetOrder.isEmpty
    cause := cause
    resets := (s.ctx c).resets + 1
    revTrv := false
    revSb := false
    revLink := false
    revChannels := 0 }

theorem State.triggerReset_of_none {s : State} {c : Fin 8} (h : (s.ctx c).reset = none) (cause : BitVec 3) :
    s.triggerReset c cause = { s with main := { s.main with
      queues := (s.doomJobs c).main.queues
      ctxs := upd s.main.ctxs c fun _ => s.triggeredCtx c cause
      resetOrder := s.main.resetOrder ++ [c] } } := by
  have hdoom := s.doomJobs_rest c
  have hnone : ¬ (s.ctx c).reset.isSome = true := by rw [h]; exact Bool.false_ne_true
  rw [State.triggerReset, if_neg hnone]
  generalize s.doomJobs c = d at hdoom ⊢
  generalize d.main.queues = queues at hdoom ⊢
  subst hdoom
  change ((_ : State).modCtx c _).modMain _ = _
  rw [State.modCtx_congr (g := fun _ => s.triggeredCtx c cause) rfl]
  rfl

/-- What a trigger leaves of the whole state: it changes the queues, the contexts and the order of the resets. -/
theorem State.triggerReset_rest (s : State) (c : Fin 8) (cause : BitVec 3) : s.triggerReset c cause =
    { s with main := { s.main with
      queues := (s.triggerReset c cause).main.queues
      ctxs := (s.triggerReset c cause).main.ctxs
      resetOrder := (s.triggerReset c cause).main.resetOrder } } := by
  cases h : (s.ctx c).reset with
  | none => rw [State.triggerReset_of_none h]
  | some r => rw [State.triggerReset_of_resetting (by rw [h]; rfl)]

theorem State.triggerReset_ctx_same {s : State} {c : Fin 8} (h : (s.ctx c).reset = none) (cause : BitVec 3) :
    (s.triggerReset c cause).ctx c = s.triggeredCtx c cause := by
  rw [State.triggerReset_of_none h]
  exact upd_get_same _ _ _

theorem State.triggerReset_ctx_ne (s : State) {c k : Fin 8} (hk : c ≠ k) (cause : BitVec 3) :
    (s.triggerReset c cause).ctx k = s.ctx k := by
  cases h : (s.ctx c).reset with
  | none =>
    rw [State.triggerReset_of_none h]
    exact upd_get_ne _ _ hk
  | some r => rw [State.triggerReset_of_resetting (by rw [h]; rfl)]

/-- A context that is resetting takes no further trigger, its own or another one's. -/
theorem State.triggerReset_ctx_resetting {s : State} {k : Fin 8} (h : (s.ctx k).reset.isSome = true) (c : Fin 8) (cause : BitVec 3) :
    (s.triggerReset c cause).ctx k = s.ctx k := by
  by_cases hk : c = k
  · rw [hk, State.triggerReset_of_resetting h]
  · exact s.triggerReset_ctx_ne hk cause

theorem State.triggerReset_allDoomed {s : State} {c k : Fin 8} (h : (c = k ∧ (s.ctx c).reset = none) ∨ s.allDoomed c) (cause : BitVec 3) :
    (s.triggerReset k cause).allDoomed c := by
  cases hr : (s.ctx k).reset with
  | none =>
    rw [State.triggerReset_of_none hr]
    exact State.doomJobs_allDoomed (h.imp_left And.left)
  | some r =>
    rw [State.triggerReset_of_resetting (by rw [hr]; rfl)]
    refine h.elim (fun ⟨e, hn⟩ => ?_) id
    rw [e, hr] at hn
    exact absurd hn (by simp)

/-! ### OUT_OF_SERVICE entered (R289) -/

/-- The trigger that the entry into OUT_OF_SERVICE gives every other context. -/
def State.oosTrigger (c : Fin 8) (s : State) (k : Fin 8) : State := if k = c then s else s.triggerReset k 4

/-- The entry into OUT_OF_SERVICE before its triggers. -/
def State.oosNoted (s : State) (c : Fin 8) : State :=
  let s := (s.modGlb fun g => { g with outOfService := true }).modEsc fun e => { e with lastCtx := c, time := s.time }
  ((s.assertFault.raise 44).fbEntry 5 0x031 (BitVec.ofNat 64 (c.val + 16 * s.main.esc.count.toNat))).flush 0x031

theorem State.enterOos_eq (s : State) (c : Fin 8) : s.enterOos c = (List.finRange 8).foldl (State.oosTrigger c) (s.oosNoted c) := rfl

theorem State.oosNoted_main (s : State) (c : Fin 8) : (s.oosNoted c).main =
    { s.main with
      glb := { s.main.glb with outOfService := true }
      esc := { s.main.esc with lastCtx := c, time := s.time }
      msix := (s.oosNoted c).main.msix } := by
  unfold State.oosNoted
  dsimp only
  rw [State.flush_main, State.fbEntry_main, State.raise_main]
  rfl

theorem State.oosNoted_aon (s : State) (c : Fin 8) :
    (s.oosNoted c).aon.faultN = true ∧ (s.oosNoted c).aon.flushing.isSome = true := by
  refine ⟨?_, State.flush_flushing _ _⟩
  unfold State.oosNoted
  dsimp only
  rw [State.flush_aon, State.fbEntry, State.modAon_aon, State.raise_rest]
  rfl

/-- The triggers of the other contexts, one by one. -/
structure OosTriggered (c : Fin 8) (l : List (Fin 8)) (s u : State) : Prop where
  rest : u = { s with main := { s.main with queues := u.main.queues, ctxs := u.main.ctxs, resetOrder := u.main.resetOrder } }
  own : u.ctx c = s.ctx c
  others : ∀ k ∉ l, u.ctx k = s.ctx k
  stays : ∀ k, (s.ctx k).reset.isSome = true → u.ctx k = s.ctx k
  resets : ∀ k ∈ l, k ≠ c → (u.ctx k).reset.isSome = true ∧ ((s.ctx k).reset = none → (u.ctx k).cause = 4)
  doomed : s.allDoomed c → u.allDoomed c

theorem State.oosTrigger_triggered (c : Fin 8) (s : State) (k : Fin 8) : OosTriggered c [k] s (State.oosTrigger c s k) := by
  unfold State.oosTrigger
  by_cases hk : k = c
  · rw [if_pos hk]
    exact ⟨rfl, rfl, fun _ _ => rfl, fun _ _ => rfl, fun j hj hne => absurd ((List.mem_singleton.mp hj).trans hk) hne, id⟩
  · rw [if_neg hk]
    refine ⟨s.triggerReset_rest k 4, s.triggerReset_ctx_ne hk 4,
      fun j hj => s.triggerReset_ctx_ne (fun e => hj (List.mem_singleton.mpr e.symm)) 4, fun j hj => State.triggerReset_ctx_resetting hj k 4, ?_,
      fun h => State.triggerReset_allDoomed (.inr h) 4⟩
    intro j hj _
    obtain rfl := List.mem_singleton.mp hj
    cases h : (s.ctx j).reset with
    | none =>
      rw [State.triggerReset_ctx_same h]
      exact ⟨rfl, fun _ => rfl⟩
    | some r =>
      rw [State.triggerReset_of_resetting (by rw [h]; rfl), h]
      exact ⟨rfl, fun e => absurd e (by simp)⟩

theorem OosTriggered.trans {c : Fin 8} {l m : List (Fin 8)} {s t u : State} (h : OosTriggered c l s t) (g : OosTriggered c m t u) :
    OosTriggered c (l ++ m) s u where
  rest := by rw [g.rest, h.rest]
  own := g.own.trans h.own
  others k hk := by
    rw [List.mem_append, not_or] at hk
    exact (g.others k hk.2).trans (h.others k hk.1)
  stays k hk := (g.stays k (by rw [h.stays k hk]; exact hk)).trans (h.stays k hk)
  resets k hk hne := by
    by_cases hl : k ∈ l
    · obtain ⟨hs, hcause⟩ := h.resets k hl hne
      rw [g.stays k hs]
      exact ⟨hs, hcause⟩
    · obtain ⟨hs, hcause⟩ := g.resets k ((List.mem_append.mp hk).resolve_left hl) hne
      exact ⟨hs, fun hn => hcause (by rw [h.others k hl, hn])⟩
  doomed hd := g.doomed (h.doomed hd)

theorem foldl_oosTriggered (c : Fin 8) : ∀ (l : List (Fin 8)) (s : State), OosTriggered c l s (l.foldl (State.oosTrigger c) s)
  | [], _ => ⟨rfl, rfl, fun _ _ => rfl, fun _ _ => rfl, fun _ h _ => absurd h List.not_mem_nil, id⟩
  | k :: l, s => (s.oosTrigger_triggered c k).trans (foldl_oosTriggered c l _)

/-! ### A driver's trigger (R273, R288) -/

/-- The state after a driver's trigger that counts, before it is decided whether the device goes out of service. -/
def State.countedReset (s : State) (c : Fin 8) : State :=
  (s.triggerReset c 1).modEsc fun e =>
    { e with history := (s.time :: s.main.esc.history).take 15, count := BitVec.ofNat 4 s.triggersInWindow }

theorem State.driverReset_refused {s : State} {c : Fin 8} (h : (s.ctx c).reset ≠ none ∨ s.main.glb.outOfService = true) :
    s.driverReset c = s := by
  rw [State.driverReset, if_pos]
  rw [Bool.or_eq_true, Option.isSome_iff_ne_none]
  exact h

theorem State.driverReset_taken {s : State} {c : Fin 8} (hidle : (s.ctx c).reset = none) (hin : s.main.glb.outOfService = false) :
    s.driverReset c = if s.main.esc.limit.active.toNat ≤ s.triggersInWindow then (s.countedReset c).enterOos c else s.countedReset c := by
  have htake : ¬ ((s.ctx c).reset.isSome || s.main.glb.outOfService) = true := by rw [hidle, hin]; decide
  rw [State.driverReset, if_neg htake]
  have htime : (s.triggerReset c 1).time = s.time := s.triggerReset_time c 1
  simp only [htime, State.modEsc_main, State.triggerReset_esc]
  rfl

/-- The state u follows a driver's trigger for a context that took it. -/
structure DriverTriggered (c : Fin 8) (s u : State) : Prop where
  reset : (u.ctx c).reset.isSome = true
  cause : (u.ctx c).cause = 1
  step : (u.ctx c).step = 1
  resets : (u.ctx c).resets = (s.ctx c).resets + 1
  doomed : u.allDoomed c

theorem State.countedReset_triggered {s : State} {c : Fin 8} (h : (s.ctx c).reset = none) : DriverTriggered c s (s.countedReset c) := by
  have hctx : (s.countedReset c).ctx c = s.triggeredCtx c 1 := State.triggerReset_ctx_same h 1
  exact ⟨by rw [hctx]; rfl, by rw [hctx]; rfl, by rw [hctx]; rfl, by rw [hctx]; rfl,
    State.triggerReset_allDoomed (.inl ⟨rfl, h⟩) 1⟩

theorem DriverTriggered.of_parts {c : Fin 8} {s t u : State} (h : DriverTriggered c s t) (hctx : u.ctx c = t.ctx c)
    (hd : u.allDoomed c) : DriverTriggered c s u :=
  ⟨hctx ▸ h.reset, hctx ▸ h.cause, hctx ▸ h.step, hctx ▸ h.resets, hd⟩

/-- Below the limit of the window the trigger changes its own context, its jobs and the count (R288). -/
theorem State.driverReset_below {s : State} {c : Fin 8} (hidle : (s.ctx c).reset = none) (hin : s.main.glb.outOfService = false)
    (hn : s.triggersInWindow < s.main.esc.limit.active.toNat) :
    let u := (s.driverReset c).noticeCheck
    u.main.resetOrder = s.main.resetOrder ++ [c] ∧ u.main.glb = s.main.glb ∧
      u.main.esc = { s.main.esc with history := (s.time :: s.main.esc.history).take 15, count := BitVec.ofNat 4 s.triggersInWindow } ∧
      ∀ k, k ≠ c → u.ctx k = s.ctx k := by
  intro u
  have hu : u = (s.countedReset c).noticeCheck := by
    change (s.driverReset c).noticeCheck = _
    rw [State.driverReset_taken hidle hin, if_neg (Nat.not_le.mpr hn)]
  rw [hu, State.noticeCheck_rest, State.countedReset, State.triggerReset_of_none hidle]
  exact ⟨rfl, rfl, rfl, fun k hk => upd_get_ne _ _ (Ne.symm hk)⟩

/-- At the limit of the window the device goes out of service, and every other context is triggered (R289). -/
theorem State.driverReset_limit {s : State} {c : Fin 8} (hidle : (s.ctx c).reset = none) (hin : s.main.glb.outOfService = false)
    (hn : s.main.esc.limit.active.toNat ≤ s.triggersInWindow) :
    let u := (s.driverReset c).noticeCheck
    u.main.glb.outOfService = true ∧ u.aon.faultN = true ∧ u.aon.flushing.isSome = true ∧ u.main.esc.lastCtx = c ∧
      u.main.esc.time = s.time ∧ ∀ k, k ≠ c → (u.ctx k).reset.isSome = true ∧ ((s.ctx k).reset = none → (u.ctx k).cause = 4) := by
  intro u
  have hu : u = ((s.countedReset c).enterOos c).noticeCheck := by
    change (s.driverReset c).noticeCheck = _
    rw [State.driverReset_taken hidle hin, if_pos hn]
  have hfold := foldl_oosTriggered c (List.finRange 8) ((s.countedReset c).oosNoted c)
  rw [← State.enterOos_eq] at hfold
  have hnoted := (s.countedReset c).oosNoted_main c
  have hcounted : ∀ k, k ≠ c → (s.countedReset c).ctx k = s.ctx k := fun k hk => s.triggerReset_ctx_ne (Ne.symm hk) 1
  obtain ⟨hfault, hflush⟩ := (s.countedReset c).oosNoted_aon c
  rw [hu, State.noticeCheck_rest]
  refine ⟨by rw [State.enterOos_outOfService], ?_, ?_, ?_, ?_, fun k hk => ?_⟩
  · rw [hfold.rest]
    exact hfault
  · rw [hfold.rest]
    exact hflush
  · rw [hfold.rest, hnoted]
  · rw [hfold.rest, hnoted]
    exact s.triggerReset_time c 1
  · obtain ⟨hres, hcause⟩ := hfold.resets k (List.mem_finRange k) hk
    refine ⟨hres, fun hnone => hcause ?_⟩
    rw [State.ctx, hnoted]
    exact (congrArg Ctx.reset (hcounted k hk)).trans hnone

theorem State.driverReset_triggered {s : State} {c : Fin 8} (hidle : (s.ctx c).reset = none) (hin : s.main.glb.outOfService = false) :
    DriverTriggered c s (s.driverReset c).noticeCheck := by
  have hcounted := State.countedReset_triggered hidle
  have hdriver : DriverTriggered c s (s.driverReset c) := by
    rw [State.driverReset_taken hidle hin]
    split
    · have hfold := foldl_oosTriggered c (List.finRange 8) ((s.countedReset c).oosNoted c)
      rw [← State.enterOos_eq] at hfold
      have hnoted := (s.countedReset c).oosNoted_main c
      refine hcounted.of_parts (hfold.own.trans (by rw [State.ctx, hnoted])) (hfold.doomed fun q j hj hc => ?_)
      rw [State.queue, hnoted] at hj
      exact hcounted.doomed q j hj hc
    · exact hcounted
  refine hdriver.of_parts (by rw [State.noticeCheck_rest]) fun q j hj hc => ?_
  rw [State.noticeCheck_rest] at hj
  exact hdriver.doomed q j hj hc

/-! ### Revocation (R285, R286) -/

theorem State.resetTurn_of_head {s : State} {c : Fin 8} (h : s.main.resetOrder.head? = some c) : s.resetTurn c = (s.ctx c).reset :=
  if_pos h

theorem State.resetTurn_none {s : State} {c : Fin 8} (h : s.main.resetOrder.head? ≠ some c) : s.resetTurn c = none := if_neg h

theorem State.modChan_chan (s : State) (ch k : Fin 16) (f : Chan → Chan) :
    (s.modChan ch f).chan k = if ch = k then f (s.chan k) else s.chan k := upd_get _ _ _ _

/-- One channel that did not drain: idle and without an owner (R286). -/
def State.revokeChan (s : State) (ch : Fin 16) : State :=
  (s.cancelDone ch).modChan ch fun x => { x with ownValid := false, forgotten := x.forgotten + (s.chan ch).requests }

/-- The channels of a context that did not drain. -/
def State.stuckChans (s : State) (c : Fin 8) : List (Fin 16) := (s.ownChans c).filter fun ch => (s.chan ch).state == .running

theorem State.revokeChan_chan (s : State) (ch k : Fin 16) : (s.revokeChan ch).chan k =
    if ch = k then { (s.chan k).over .idle (s.chan k).lastStatus with
      cancelled := true, ownValid := false, forgotten := (s.chan k).forgotten + (s.chan ch).requests } else s.chan k := by
  rw [State.revokeChan, State.modChan_chan, State.cancelDone, State.modChan_chan]
  by_cases h : ch = k
  · rw [if_pos h, if_pos h, if_pos h]
    rfl
  · rw [if_neg h, if_neg h, if_neg h]
    rfl

theorem foldl_revokeChan_chan (ch : Fin 16) : ∀ (l : List (Fin 16)) (s : State),
    ch ∈ l ∨ ((s.chan ch).state = .idle ∧ (s.chan ch).ownValid = false) →
    ((l.foldl State.revokeChan s).chan ch).state = .idle ∧ ((l.foldl State.revokeChan s).chan ch).ownValid = false
  | [], _, h => h.resolve_left List.not_mem_nil
  | k :: l, s, h => by
    refine foldl_revokeChan_chan ch l (s.revokeChan k) ?_
    rw [State.revokeChan_chan]
    by_cases hk : k = ch
    · rw [if_pos hk]
      exact .inr ⟨rfl, rfl⟩
    · rw [if_neg hk]
      exact h.imp_left fun hm => (List.mem_cons.mp hm).resolve_left (Ne.symm hk)

theorem State.revokeChans_chans (s : State) (c : Fin 8) :
    (s.revokeChans c).main.chans = ((s.stuckChans c).foldl State.revokeChan s).main.chans := by
  unfold State.revokeChans State.dropTags
  simp only [State.modCtx_main, State.modLink_main]
  rfl

theorem State.revokeChans_tags (s : State) (c : Fin 8) : (s.revokeChans c).main.link.tags =
    ((s.stuckChans c).foldl State.revokeChan s).main.link.tags.map fun t => t.filter fun u => u.ctx != c := by
  unfold State.revokeChans State.dropTags
  simp only [State.modCtx_main, State.modLink_main]
  rfl

/-- No response of the context is awaited any more (R285). -/
theorem State.revokeChans_tag_ctx {s : State} {c : Fin 8} {k : Fin 64} {use : TagUse}
    (h : (s.revokeChans c).main.link.tags[k] = some use) : use.ctx ≠ c := by
  rw [State.revokeChans_tags, Fin.getElem_fin, Vector.getElem_map] at h
  exact bne_iff_ne.mp (Option.filter_eq_some_iff.mp h).2

theorem State.revokeChans_chan {s : State} {c : Fin 8} {ch : Fin 16} (hv : (s.chan ch).ownValid = true) (hc : (s.chan ch).ownCtx = c)
    (hr : (s.chan ch).state = .running) :
    ((s.revokeChans c).chan ch).state = .idle ∧ ((s.revokeChans c).chan ch).ownValid = false := by
  have hstuck : ch ∈ s.stuckChans c := by
    refine List.mem_filter.mpr ⟨List.mem_filter.mpr ⟨List.mem_finRange ch, ?_⟩, ?_⟩
    · rw [hv, hc, beq_self_eq_true, Bool.and_self]
    · rw [hr]
      rfl
  rw [State.chan, State.revokeChans_chans]
  exact foldl_revokeChan_chan ch _ s (.inl hstuck)

/-! ### The commands -/

section
variable {s : State} {c : Fin 8} {r : ResetRun} (hs : s.serving = true) (hturn : s.main.resetOrder.head? = some c)
  (hr : (s.ctx c).reset = some r)
include hs hturn hr

theorem exec_contextResetSequence_turn : exec (.contextResetSequence c) s = .next (s.resetSteps c r) := by
  change execContextResetSequence c s = _
  rw [execContextResetSequence, State.when_of_true _ hs, State.resetTurn_of_head hturn, hr]

omit hs in
theorem exec_sampleTimeout_turn : exec (.sampleTimeout c) s = .next (s.abandonSample c r) := by
  change execSampleTimeout c s = _
  rw [execSampleTimeout, State.resetTurn_of_head hturn, hr]

theorem exec_accessFail_sample_turn : exec (.accessFail (.sample c)) s = .next (s.abandonSample c r) := by
  change execAccessFail (.sample c) s = _
  rw [execAccessFail, State.when_of_true _ hs]
  dsimp only
  rw [State.resetTurn_of_head hturn, hr]

theorem exec_revocation_step4 (hstep : (s.ctx c).step = 4) :
    exec (.revocation c) s = .next ((s.revokeStations c).resetFrom5 c r) := by
  change execRevocation c s = _
  rw [execRevocation, State.resetTurn_of_head hturn, hr]
  dsimp only
  rw [State.when_of_true _ hs, hstep]
  rfl

theorem exec_revocation_step5 (hstep : (s.ctx c).step = 5) :
    exec (.revocation c) s = .next ((s.revokeChans c).resetFrom6 c r) := by
  change execRevocation c s = _
  rw [execRevocation, State.resetTurn_of_head hturn, hr]
  dsimp only
  rw [State.when_of_true _ hs, hstep]
  rfl

theorem exec_revocation_step6 (hstep : (s.ctx c).step = 6) :
    exec (.revocation c) s = .next ((((s.writesOf c).foldl (fun s u => s.giveUp u (resetStatus r.cause)) s).stopProgramming c).finishReset c r) := by
  change execRevocation c s = _
  rw [execRevocation, State.resetTurn_of_head hturn, hr]
  dsimp only
  rw [State.when_of_true _ hs, hstep]
  rfl

end

theorem exec_reset_not_turn {s : State} {c : Fin 8} (h : s.main.resetOrder.head? ≠ some c) :
    exec (.contextResetSequence c) s = .next s ∧ exec (.sampleTimeout c) s = .next s ∧ exec (.revocation c) s = .next s := by
  have hnone := State.resetTurn_none h
  refine ⟨?_, ?_, ?_⟩
  · change execContextResetSequence c s = _
    rw [execContextResetSequence, State.when]
    split
    · rw [hnone]
    · rfl
  · change execSampleTimeout c s = _
    rw [execSampleTimeout, hnone]
  · change execRevocation c s = _
    rw [execRevocation, hnone]

/-- Settles O58, by what a trigger, the entry into OUT_OF_SERVICE and each revoked step leave, and by the bytes of the windows. -/
theorem contextResets : Obligations.ContextResets := by
  intro c s hs x
  refine ⟨?_, fun h => ?_, ?_, exec_reset_not_turn, ?_, ?_, ?_⟩
  · exact congrArg Host.Outcome.next (State.when_of_false _ (by rw [hs]; rfl))
  · rw [exec_ctxReset_of_serving hs, State.driverReset_refused h]
  · intro hidle hin times n
    obtain ⟨hreset, hcause, hstep, hresets, hdoomed⟩ := State.driverReset_triggered (s := s) (c := c) hidle hin
    exact ⟨_, exec_ctxReset_of_serving hs c, hreset, hcause, hstep, hresets, hdoomed, State.driverReset_below hidle hin,
      State.driverReset_limit hidle hin⟩
  · intro r hturn hr
    have hcut : (s.ctx c).step = 3 → r.sampling = true → s.abandonSample c r = ((s.modCtx c fun x =>
        { x with sampleErr := true, reset := some { r with sampling := false } }).noteCut c r).resetFrom4 c r := by
      intro hstep hsamp
      rw [State.abandonSample, State.when_of_true _ (by rw [hs, hstep, hsamp]; rfl)]
    refine ⟨exec_contextResetSequence_turn hs hturn hr, fun hstep hen => ?_, ?_, fun hstep => ?_, fun hstep => ⟨?_, ?_, ?_⟩,
      fun hstep => ?_⟩
    · have hstep : (s.ctx c).step = 1 := hstep
      rw [State.resetSteps, hstep]
      exact if_neg (Bool.eq_false_iff.mp hen)
    · intro hstep hsamp cut
      rw [exec_sampleTimeout_turn hturn hr, exec_accessFail_sample_turn hs hturn hr, hcut hstep hsamp]
      exact ⟨rfl, rfl⟩
    · exact exec_revocation_step4 hs hturn hr hstep
    · exact exec_revocation_step5 hs hturn hr hstep
    · exact fun k use h => State.revokeChans_tag_ctx h
    · exact fun ch hv hc hrun => State.revokeChans_chan hv hc hrun
    · exact exec_revocation_step6 hs hturn hr hstep
  · refine ⟨?_, ?_, fun k hk => upd_get_ne _ _ (Ne.symm hk)⟩
    · change ((upd s.main.ctxs c _)[c]).gen = _
      rw [upd_get_same]
    · change ((upd s.main.link.binds c _)[c]).set.active.valid = _
      rw [upd_get_same]
  · intro hwf t sp a hit
    obtain ⟨-, -, hin, hout⟩ := State.zeroWindows_zeroed hwf t
    exact ⟨hin sp a, fun h => hout sp a (not_exists.mpr h)⟩

end Sys2Proof.Machine

/-!
## The control of traverse channels (chapter 11)
-/

namespace Sys2Proof.Machine

/-! ### The grants of a side (R244) -/

/-- The channels of the highest priority among those that are ready. -/
def topReady (prio : ChanNo → BitVec 2) (ready : List ChanNo) : List ChanNo :=
  ready.filter fun c => ready.all fun d => (prio d).ule (prio c)

theorem mem_topReady {prio : ChanNo → BitVec 2} {ready : List ChanNo} {c : ChanNo} :
    c ∈ topReady prio ready ↔ c ∈ ready ∧ ∀ d ∈ ready, (prio d).toNat ≤ (prio c).toNat := by
  simp [topReady, BitVec.ule]

theorem topReady_ne_nil {prio : ChanNo → BitVec 2} {ready : List ChanNo} (h : ready ≠ []) : topReady prio ready ≠ [] := by
  obtain ⟨c, hc, hmax⟩ := ready.toFinset.exists_max_image (fun c => (prio c).toNat) (by simpa using h)
  exact List.ne_nil_of_mem (mem_topReady.mpr ⟨List.mem_toFinset.mp hc, fun d hd => hmax d (List.mem_toFinset.mpr hd)⟩)

/-- Without a channel that keeps the grant, the next one in rotation has it. -/
def Side.rotate (sd : Side) (top : List ChanNo) : Option ChanNo :=
  match sd.last with
  | none => top.head?
  | some l => (top.find? fun c => decide (l < c)).orElse fun _ => top.head?

theorem Side.rotate_mem {sd : Side} {top : List ChanNo} {c : ChanNo} (h : sd.rotate top = some c) : c ∈ top := by
  unfold Side.rotate at h
  split at h
  · exact List.mem_of_head? h
  next l hl =>
    cases hf : top.find? fun c => decide (l < c) with
    | none =>
      rw [hf] at h
      exact List.mem_of_head? h
    | some d =>
      rw [hf] at h
      obtain rfl := Option.some.inj h
      exact List.mem_of_find?_eq_some hf

theorem Side.rotate_isSome {sd : Side} {top : List ChanNo} (h : top ≠ []) : ∃ c, sd.rotate top = some c := by
  have hhead : ∃ c, top.head? = some c := by
    obtain ⟨c, t, rfl⟩ := List.exists_cons_of_ne_nil h
    exact ⟨c, rfl⟩
  unfold Side.rotate
  split
  · exact hhead
  next l hl =>
    cases hf : top.find? fun c => decide (l < c) with
    | none => exact hhead
    | some d => exact ⟨d, rfl⟩

/-- The channel that was granted last keeps the grant, for at most 16 grants in a row. -/
theorem Side.pick_of_keeps {sd : Side} {prio : ChanNo → BitVec 2} {ready : List ChanNo} {l : ChanNo} (hlast : sd.last = some l)
    (hl : l ∈ topReady prio ready) (hrun : sd.run < 16) : sd.pick prio ready = some l := by
  rw [Side.pick, hlast]
  dsimp only
  rw [← topReady, List.contains_iff_mem.mpr hl, decide_eq_true hrun]
  rfl

theorem Side.pick_of_not_keeps {sd : Side} {prio : ChanNo → BitVec 2} {ready : List ChanNo}
    (h : ∀ l, sd.last = some l → ¬ (l ∈ topReady prio ready ∧ sd.run < 16)) : sd.pick prio ready = sd.rotate (topReady prio ready) := by
  rw [Side.pick, Side.rotate]
  cases hlast : sd.last with
  | none => rfl
  | some l =>
    refine if_neg fun hk => h l hlast ?_
    rw [Bool.and_eq_true, List.contains_iff_mem, decide_eq_true_eq] at hk
    exact hk

/-- What a side grants: a ready channel of the highest priority, and some channel where one is ready. -/
theorem Side.pick_mem {sd : Side} {prio : ChanNo → BitVec 2} {ready : List ChanNo} :
    (ready ≠ [] → ∃ c, sd.pick prio ready = some c) ∧ ∀ c, sd.pick prio ready = some c → c ∈ topReady prio ready := by
  by_cases hk : ∃ l, sd.last = some l ∧ l ∈ topReady prio ready ∧ sd.run < 16
  · obtain ⟨l, hlast, hl, hrun⟩ := hk
    rw [Side.pick_of_keeps hlast hl hrun]
    exact ⟨fun _ => ⟨l, rfl⟩, fun c hc => Option.some.inj hc ▸ hl⟩
  · rw [Side.pick_of_not_keeps fun l hlast hl => hk ⟨l, hlast, hl⟩]
    exact ⟨fun h => Side.rotate_isSome (topReady_ne_nil h), fun c => Side.rotate_mem⟩

/-! ### Ticks (R227, R252) -/

theorem State.ticks_iff (s : State) (g : Fin 4) : s.ticks g = true ↔
    (s.main.gens[g]).en = true ∧ (s.main.gens[g]).ticked ≠ some s.time ∧ (s.main.gens[g]).phase.active.toNat ≤ s.time.toNat ∧
      (s.time.toNat - (s.main.gens[g]).phase.active.toNat) % (s.main.gens[g]).period.active.toNat = 0 := by
  simp [State.ticks, and_assoc]

/-- A channel that takes ticks but is in no descriptor counts the tick, up to 15. -/
theorem State.tickChan_counted {s : State} {g : Fin 4} {ch : Fin 16} (hg : (s.chan ch).trig = 1 ∨ (s.chan ch).how = 1)
    (hsel : (s.chan ch).tsel = g) (hst : (s.chan ch).state = .armed ∨ (s.chan ch).state = .running) (hcur : (s.chan ch).cur = none) :
    s.tickChan g ch = s.modChan ch fun x =>
      if x.pendCount = 15 then { x with overrun := true } else { x with pendCount := x.pendCount + 1 } := by
  rw [State.tickChan, if_pos, hcur]
  simp only [Bool.and_eq_true, Bool.or_eq_true, decide_eq_true_eq, beq_iff_eq]
  exact ⟨⟨hg, hsel⟩, hst⟩

theorem State.tickChan_other {s : State} {g : Fin 4} {ch : Fin 16}
    (h : ((s.chan ch).trig ≠ 1 ∧ (s.chan ch).how ≠ 1) ∨ (s.chan ch).tsel ≠ g) : s.tickChan g ch = s := by
  rw [State.tickChan, if_neg]
  simp only [Bool.and_eq_true, Bool.or_eq_true, decide_eq_true_eq]
  rintro ⟨⟨hg, hsel⟩, -⟩
  rcases h with ⟨h1, h2⟩ | h
  · exact hg.elim h1 h2
  · exact h hsel

/-- TCK_COMMIT of one generator: a pending pair, adopted at once where it does not run. -/
def TickGen.committed (y : TickGen) : TickGen :=
  if y.en then { y with period := y.period.commit, phase := y.phase.commit }
  else { y with period := y.period.commit.activate, phase := y.phase.commit.activate }

theorem exec_tckCommit_of_running {s : State} (h : s.running = true) :
    exec .tckCommit s = .next (s.modMain fun m => { m with gens := Vector.ofFn fun g => (m.gens[g]).committed }) :=
  congrArg Host.Outcome.next (State.when_of_true _ h)

theorem exec_tick_of_running {s : State} (h : s.running = true) (g : Fin 4) : exec (.tick g) s =
    .next (s.when (s.ticks g) fun s => ((List.finRange 16).foldl (State.tickChan g) (s.modMain fun m =>
      { m with gens := upd m.gens g fun y => { y with period := y.period.activate, phase := y.phase.activate, ticked := some m.time } })).chansSettle) := by
  change execTick g s = _
  rw [execTick, h, Bool.true_and]

/-! ### Clocks of the engine that an event shows to have passed -/

/-- Where the condition holds already, no clock has passed. -/
theorem State.until_of {s : State} {p : State → Bool} (h : p s = true) : s.until p = s := by
  change State.fabricUntil p (4095 + 1) s = s
  rw [State.fabricUntil, if_pos h]

/-- What PAUSED shows of a channel; `going`: it pauses or is being cancelled. -/
def State.pausedShown (ch : Fin 16) (going : Bool) (t : State) : State :=
  if !t.chanDrained ch then t
  else if (t.chan ch).cancelling then (t.cancelDone ch).chansSettle
  else if going then t.modChan ch fun x => { x with paused := true }
  else t

theorem State.pausedShown_going (ch : Fin 16) (v : State) :
    (v.chanDrained ch = false → v.pausedShown ch true = v) ∧
    (v.chanDrained ch = true → (v.chan ch).cancelling = true → v.pausedShown ch true = (v.cancelDone ch).chansSettle) ∧
    (v.chanDrained ch = true → (v.chan ch).cancelling = false →
      v.pausedShown ch true = v.modChan ch fun x => { x with paused := true }) := by
  unfold State.pausedShown
  refine ⟨fun hd => ?_, fun hd hc => ?_, fun hd hc => ?_⟩
  · rw [hd]
    rfl
  · rw [hd, hc]
    rfl
  · rw [hd, hc]
    rfl

theorem State.cancelDone_chan (s : State) (ch k : Fin 16) : (s.cancelDone ch).chan k =
    if ch = k then { (s.chan k).over .idle (s.chan k).lastStatus with cancelled := true } else s.chan k := by
  rw [State.cancelDone, State.modChan_chan]
  rfl

/-! ### Starts (R226) -/

section
variable {s : State} {ch : Fin 16} (hs : s.serving = true)
include hs

omit hs in
theorem exec_trvStart_ignored
    (h : (s.chan ch).state = .armed ∨ (s.chan ch).state = .running ∨ (s.chan ch).ownValid = false ∨ (s.chan ch).startHeld ≠ none) :
    exec (.trvStart ch) s = .next s := by
  refine congrArg Host.Outcome.next (State.when_of_false _ ?_)
  rcases h with h | h | h | h
  · rw [h]
    simp
  · rw [h]
    simp
  · rw [h]
    simp
  · rw [Option.isNone_eq_false_iff.mpr (Option.isSome_iff_ne_none.mpr h)]
    simp

/-- A START that is taken: where the power block forces a state, the head is held; a tick's channel is armed. -/
theorem exec_trvStart_taken (hv : (s.chan ch).ownValid = true) (hh : (s.chan ch).startHeld = none)
    (hf : (s.chan ch).state = .idle ∨ (s.chan ch).state = .halted) :
    exec (.trvStart ch) s = .next
      (if (s.chan ch).trig = 0 && s.main.pwr.forcing then s.modChan ch fun x => { x with startHeld := some x.head }
       else if (s.chan ch).trig = 0 then s.chainStart ch .driver (s.chan ch).head (s.chan ch).crcSel none
       else s.modChan ch fun x => { x with state := .armed }).noticeCheck.chansSettle := by
  refine congrArg Host.Outcome.next (State.when_of_true _ ?_)
  rw [hs, hv, hh]
  rcases hf with hf | hf <;> rw [hf] <;> rfl

theorem exec_trvPause_of_serving : exec (.trvPause ch) s = .next (s.modChan ch fun x => { x with pause := true }) :=
  congrArg Host.Outcome.next (State.when_of_true _ hs)

theorem exec_paused_of_serving : exec (.paused ch) s = .next
    (State.pausedShown ch ((s.chan ch).pause || (s.chan ch).cancelling)
      (if (s.chan ch).pause || (s.chan ch).cancelling then s.until fun s => s.chanDrained ch else s)) :=
  congrArg Host.Outcome.next (State.when_of_true _ hs)

/-- Without a pause or a cancel, PAUSED shows nothing. -/
theorem exec_paused_idle (hp : (s.chan ch).pause = false) (hc : (s.chan ch).cancelling = false) : exec (.paused ch) s = .next s := by
  rw [exec_paused_of_serving hs, hp, hc]
  refine congrArg Host.Outcome.next ?_
  change s.pausedShown ch false = s
  unfold State.pausedShown
  rw [hc]
  split <;> rfl

theorem exec_paused_going (h : (s.chan ch).pause = true ∨ (s.chan ch).cancelling = true) :
    exec (.paused ch) s = .next ((s.until fun s => s.chanDrained ch).pausedShown ch true) := by
  rw [exec_paused_of_serving hs, (Bool.or_eq_true _ _).mpr h, if_pos rfl]

/-- TRV_RESUME of a channel that holds no tick for the descriptor that it is in. -/
theorem exec_trvResume_no_tick (h : ((s.chan ch).cur.all fun a => !a.needTick || (s.chan ch).pendCount == 0) = true) :
    exec (.trvResume ch) s =
      .next (((s.modChan ch fun x => { x with pause := false, paused := false }).pumpNand.chanStreams.peerStep ch)).chansSettle := by
  refine congrArg Host.Outcome.next ((State.when_of_true _ hs).trans ?_)
  dsimp only
  rw [State.modChan_chan, if_pos rfl]
  cases hcur : (s.chan ch).cur with
  | none => rfl
  | some a =>
    rw [hcur, Option.all_some] at h
    have htick : ¬ (a.needTick && (s.chan ch).pendCount != 0) = true := by
      rw [bne, Bool.not_eq_true, ← Bool.not_eq_true', Bool.not_and, Bool.not_not]
      exact h
    dsimp only
    rw [if_neg htick]

theorem exec_trvCancel_armed (h : (s.chan ch).state = .armed) : exec (.trvCancel ch) s = .next (s.cancelDone ch).chansSettle := by
  refine congrArg Host.Outcome.next ((State.when_of_true _ hs).trans ?_)
  dsimp only
  rw [h]

theorem exec_trvCancel_running (h : (s.chan ch).state = .running) (hw : (s.chan ch).starter = .driver) : exec (.trvCancel ch) s = .next
    (if s.chanDrained ch then (s.cancelDone ch).chansSettle else s.modChan ch fun x => { x with cancelling := true }) := by
  refine congrArg Host.Outcome.next ((State.when_of_true _ hs).trans ?_)
  dsimp only
  rw [h, hw]
  rfl

theorem exec_trvCancel_refused (h : (s.chan ch).state = .running) (hw : (s.chan ch).starter ≠ .driver) :
    exec (.trvCancel ch) s = .next (s.modChan ch fun x => { x with cancelRefused := true }) := by
  refine congrArg Host.Outcome.next ((State.when_of_true _ hs).trans ?_)
  dsimp only
  rw [h, beq_eq_false_iff_ne.mpr hw]
  rfl

theorem exec_trvCancel_free (hf : (s.chan ch).state = .idle ∨ (s.chan ch).state = .halted) :
    exec (.trvCancel ch) s = .next (s.modChan ch fun x => { x with startHeld := none }) := by
  refine congrArg Host.Outcome.next ((State.when_of_true _ hs).trans ?_)
  dsimp only
  rcases hf with hf | hf <;> rw [hf]

/-- TRV_CHN_OWNER (R223). -/
theorem exec_trvChnOwner_of_serving (c : Fin 8) (valid : Bool) : exec (.trvChnOwner ch c valid) s = .next
    (if ((s.chan ch).state = .idle ∨ (s.chan ch).state = .halted) ∧ (s.chan ch).pendKick = none ∧ (s.chan ch).classify = none ∧
        (s.chan ch).startHeld = none
      then s.modChan ch fun x => { x with ownCtx := c, ownValid := valid }
      else s.modChan ch fun x => { x with ownerBusy := true }) := by
  refine congrArg Host.Outcome.next ((State.when_of_true _ hs).trans (if_congr ?_ rfl rfl))
  simp [and_assoc]

end

/-- Settles O52, by the grants of a side, the ticks of a generator and the conditions of each command. -/
theorem channelControl : Obligations.ChannelControl := by
  refine ⟨fun sd prio ready => ⟨Side.pick_mem.1, fun c hc => ?_⟩, fun g s hrun => ⟨?_, ?_⟩, ?_⟩
  · obtain ⟨hmem, hmax⟩ := mem_topReady.mp (Side.pick_mem.2 c hc)
    refine ⟨hmem, hmax, fun l hlast hl hprio hkeep => ?_⟩
    have htop : l ∈ topReady prio ready := mem_topReady.mpr ⟨hl, fun d hd => hprio ▸ hmax d hd⟩
    exact Option.some.inj (hc.symm.trans (Side.pick_of_keeps hlast htop hkeep))
  · refine ⟨_, exec_tckCommit_of_running hrun, rfl, fun k => ?_⟩
    intro y
    rw [State.modMain_main, Fin.getElem_fin, Vector.getElem_ofFn]
    rfl
  · intro y due
    rw [exec_tick_of_running hrun]
    refine ⟨fun h => ?_, fun h => ?_⟩
    · rw [State.when_of_false _ (Bool.eq_false_iff.mpr fun ht => h ((s.ticks_iff g).mp ht))]
    · rw [State.when_of_true _ ((s.ticks_iff g).mpr h)]
  · intro ch c valid g s hs x free
    refine ⟨exec_trvStart_ignored, fun hv hh hf => ?_, fun who head sel spec => ?_, exec_trvPause_of_serving hs, exec_paused_idle hs,
      fun h => ?_, fun p => State.until_of, ?_, exec_trvResume_no_tick hs, exec_trvCancel_armed hs, fun hr hw => ⟨fun hd => ?_, fun hd => ?_⟩,
      exec_trvCancel_refused hs, exec_trvCancel_free hs, fun hf hk hc hh => ?_, fun h => ?_, ?_, State.tickChan_counted, State.tickChan_other⟩
    · rw [exec_trvStart_taken hs hv hh hf]
      refine ⟨fun ht hforce hd3 => ?_, fun ht hforce => ?_, fun ht => ?_⟩
      · rw [if_neg (by rw [Power.forcing, hforce, hd3]; simp), if_pos ht]
      · rw [if_pos]
        rw [Bool.and_eq_true, decide_eq_true_eq, Power.forcing, Bool.or_eq_true]
        exact ⟨ht, hforce⟩
      · rw [if_neg, if_neg ht]
        rw [Bool.and_eq_true, decide_eq_true_eq]
        exact fun h => ht h.1
    · intro y
      have hy : y = _ := upd_get_same _ _ _
      rw [hy]
      exact ⟨rfl, rfl, rfl, rfl, rfl, rfl, rfl, rfl, rfl, rfl⟩
    · intro v
      rw [exec_paused_going hs h]
      obtain ⟨hwait, hcancel, hpause⟩ := v.pausedShown_going ch
      exact ⟨fun hd => congrArg _ (hwait hd), fun hd hc => congrArg _ (hcancel hd hc), fun hd hc => congrArg _ (hpause hd hc)⟩
    · rintro t rfl
      rw [State.cancelDone_chan, if_pos rfl]
      exact ⟨rfl, rfl, rfl, fun k hk => by rw [State.cancelDone_chan, if_neg (Ne.symm hk)]⟩
    · rw [exec_trvCancel_running hs hr hw, if_pos hd]
    · rw [exec_trvCancel_running hs hr hw, if_neg (Bool.eq_false_iff.mp hd)]
    · rw [exec_trvChnOwner_of_serving hs, if_pos ⟨hf, hk, hc, hh⟩]
    · rw [exec_trvChnOwner_of_serving hs, if_neg]
      rintro ⟨hf, hk, hc, hh⟩
      exact h.elim (· hf) fun h => h.elim (· hk) fun h => h.elim (· hc) (· hh)
    · exact congrArg Host.Outcome.next (State.when_of_true _ hs)

end Sys2Proof.Machine

/-!
## The work of traverse channels (chapter 11)
-/

namespace Sys2Proof.Machine

/-! ### What a channel sends to a peer leaves alone -/

/-- A channel without its place in the stream. -/
def Chan.still (x : Chan) : Chan := { x with cur := none, src := 0, dst := 0, posBytes := 0, posUnits := 0 }

/-- The state t has the memories of s, and its channels but for their places in their streams. -/
structure SameBytes (s t : State) : Prop where
  shm : t.main.shm = s.main.shm
  stations : t.main.stations = s.main.stations
  still : ∀ k, (t.chan k).still = (s.chan k).still

theorem SameBytes.refl (s : State) : SameBytes s s := ⟨rfl, rfl, fun _ => rfl⟩

theorem SameBytes.trans {s t u : State} (h : SameBytes s t) (g : SameBytes t u) : SameBytes s u :=
  ⟨g.shm.trans h.shm, g.stations.trans h.stations, fun k => (g.still k).trans (h.still k)⟩

theorem SameBytes.of_linkView {s t : State} (h : t.linkView = s.linkView) : SameBytes s t := by
  have hchans : t.main.chans = s.main.chans := congrArg LinkView.chans h
  exact ⟨congrArg LinkView.shm h, congrArg LinkView.stations h, fun k => by rw [State.chan, hchans]⟩

theorem SameBytes.modChan (s : State) (ch : Fin 16) {f : Chan → Chan} (hf : ∀ x, (f x).still = x.still) :
    SameBytes s (s.modChan ch f) := by
  refine ⟨rfl, rfl, fun k => ?_⟩
  rw [State.modChan_chan]
  split
  · exact hf _
  · rfl

theorem SameBytes.sendMsg (s : State) (m : Msg) : SameBytes s (s.sendMsg m) := .of_linkView (s.sendMsg_linkView m)

theorem SameBytes.setTag (s : State) (t : Fin 64) (use : Option TagUse) : SameBytes s (s.setTag t use) := ⟨rfl, rfl, fun _ => rfl⟩

theorem SameBytes.sendRead (s : State) (ch : Fin 16) (chip : Fin 8) (r : TrvRead) (t : Fin 64) :
    SameBytes s (s.sendRead ch chip r t) :=
  (SameBytes.setTag s t _).trans (.sendMsg _ _)

theorem SameBytes.peerRead {s u : State} {ch : Fin 16} {a : Active} {chip : Fin 8} {t : Fin 64}
    (h : s.peerRead ch a chip t = some u) : SameBytes s u := by
  unfold State.peerRead at h
  split at h
  · obtain rfl := Option.some.inj h
    exact (SameBytes.sendRead s ch chip _ t).trans (.modChan _ ch fun _ => rfl)
  · split at h
    · obtain rfl := Option.some.inj h
      exact (SameBytes.sendRead s ch chip _ t).trans (.modChan _ ch fun _ => rfl)
    · exact absurd h (by simp)

theorem SameBytes.peerFlush (s : State) (ch : Fin 16) (a : Active) (chip : Fin 8) (t : Fin 64) :
    SameBytes s (s.peerFlush ch a chip t) := by
  unfold State.peerFlush
  dsimp only
  refine SameBytes.trans ?_ (.modChan _ ch fun _ => rfl)
  refine SameBytes.trans ?_ (.sendMsg _ _)
  refine SameBytes.trans ?_ (.setTag _ t _)
  split
  · exact .sendMsg _ _
  · exact .refl s

theorem SameBytes.peerNext {s u : State} {ch : Fin 16} (h : s.peerNext ch = some u) : SameBytes s u := by
  unfold State.peerNext at h
  dsimp only at h
  split at h
  · split at h
    · exact absurd h (by simp)
    · split at h
      · split at h
        · split at h
          · exact absurd h (by simp)
          · obtain rfl := Option.some.inj h
            exact .peerFlush _ _ _ _ _
        · exact absurd h (by simp)
      · split at h
        · exact .peerRead h
        · exact absurd h (by simp)
  · exact absurd h (by simp)

theorem SameBytes.peerStep (s : State) (ch : Fin 16) : SameBytes s (s.peerStep ch) := by
  have steps : ∀ n s, SameBytes s (State.peerStepN n s ch) := by
    intro n
    induction n with
    | zero => exact SameBytes.refl
    | succ n ih =>
      intro s
      rw [State.peerStepN]
      split
      · exact (SameBytes.peerNext ‹_›).trans (ih _)
      · exact .refl s
  exact steps 33 s

/-! ### The holding buffer (R225, R233, R237) -/

/-- Without packing, elements are bytes and move as they are. -/
theorem packBytes_of_not_pack {f : Fmt} (h : f.pack = false) (k : Nat) (bs : List Byte) : packBytes f k bs = bs.take k := by
  have hsrc : f.src = 1 := by rw [Fmt.src, h]; rfl
  have hdst : f.dst = 1 := by rw [Fmt.dst, h]; rfl
  induction k generalizing bs with
  | zero => rw [packBytes, List.take_zero]
  | succ k ih =>
    cases bs with
    | nil => rw [packBytes, if_pos rfl, List.take_nil]
    | cons b bs =>
      rw [packBytes, if_neg (List.cons_ne_nil b bs), ih, hsrc, hdst]
      rfl

theorem Active.gather_reads (a : Active) : a.gather.reads = a.reads := by
  unfold Active.gather
  split <;> rfl

theorem Active.gather_idxs (a : Active) : a.gather.idxs = a.idxs := by
  unfold Active.gather
  split <;> rfl

theorem Active.gather_bytes {a : Active} (h : a.fmt.pack = false) : a.gather.out ++ a.gather.got = a.out ++ a.got := by
  have hsrc : a.fmt.src = 1 := by rw [Fmt.src, h]; rfl
  unfold Active.gather
  split
  · rfl
  · dsimp only
    rw [packBytes_of_not_pack h, hsrc, Nat.mul_one, List.append_assoc, List.take_append_drop]

/-- What the oldest read brings: index values, or bytes behind those that wait. -/
theorem Active.gotRead_index {a : Active} {r : TrvRead} (h : r.index = true) (bs : List Byte) : a.gotRead r bs =
    { a with reads := a.reads.drop 1, idxs := a.idxs ++ idxWords (r.len / 4) bs } := by
  rw [Active.gotRead, h]
  rfl

theorem Active.gotRead_data {a : Active} {r : TrvRead} (h : r.index = false) (bs : List Byte) : a.gotRead r bs =
    { a with reads := a.reads.drop 1, got := a.got ++ bs }.gather := by
  rw [Active.gotRead, h]
  rfl

/-! ### Fetches and reads (R228, R231, R235, R251) -/

section
variable {s : State} {ch : Fin 16}

theorem State.loadDesc_eq (s : State) (ch : Fin 16) (d : BitVec 256) : s.loadDesc ch d =
    (s.modChan ch fun x =>
      { x with fmt := x.fmt.activate, wantFetch := false, fetchBeats := 0, descCount := x.descCount + 1, retries := 0 }).checkDesc ch d
      ((s.modChan ch fun x =>
      { x with fmt := x.fmt.activate, wantFetch := false, fetchBeats := 0, descCount := x.descCount + 1, retries := 0 }).chan ch).fmt.active :=
  rfl

theorem State.checkDesc_bad {d : BitVec 256} {f : Fmt} {b : Nat} (h : s.descBad ch d f = some b) :
    s.checkDesc ch d f = s.chanHalt ch stBadDescriptor (haltDetail ch 4 (s.chan ch).starter.station b) none := by
  rw [State.checkDesc, h]

theorem State.checkDesc_bound {d : BitVec 256} {f : Fmt} {e : BitVec 32} (h : s.descBad ch d f = none)
    (he : s.descBound ch (s.chan ch).starter.station d f = some e) : s.checkDesc ch d f = s.chanHalt ch stBoundFault e none := by
  rw [State.checkDesc, h]
  dsimp only
  rw [he]

theorem State.checkDesc_in_bounds {d : BitVec 256} {f : Fmt} (h : s.descBad ch d f = none)
    (he : s.descBound ch (s.chan ch).starter.station d f = none) : s.checkDesc ch d f =
      if (s.chan ch).spec.isSome && !s.dstSpec ch d then s.chanHalt ch stSpecViolation (specDetail d (s.chan ch).starter.station) none
      else (s.beginDesc ch d f).goDesc ch := by
  rw [State.checkDesc, h]
  dsimp only
  rw [he]

theorem exec_descFetch_of_serving (hs : s.serving = true) (reply : BitVec 256) :
    exec (.traverseDescriptorFetch ch reply) s = .next ((s.until (State.fetchIssued ch)).fetched ch reply) :=
  congrArg Host.Outcome.next (State.when_of_true _ hs)

/-- A fetch whose two beats were made, of a running chain. -/
theorem exec_descFetch_due (hs : s.serving = true) (hc : (s.chan ch).classify = none) (hr : (s.chan ch).state = .running)
    (hw : (s.chan ch).wantFetch = true) (hb : 2 ≤ (s.chan ch).fetchBeats) (reply : BitVec 256) :
    exec (.traverseDescriptorFetch ch reply) s = .next (match s.descAt (s.chan ch).descAddr.toNat reply with
      | some d => (s.loadDesc ch d).chanStreams.chansSettle
      | none => s) := by
  have hissued : s.fetchIssued ch = true := by
    rw [State.fetchIssued, hc, hw, decide_eq_true hb]
    rfl
  rw [exec_descFetch_of_serving hs, State.until_of hissued, State.fetched, hc]
  dsimp only
  rw [hr, hw, decide_eq_true hb]
  rfl

theorem State.readDue_of {a : Active} {r : TrvRead} {rest : List TrvRead} (hcur : (s.chan ch).cur = some a) (hreads : a.reads = r :: rest)
    (hdead : r.dead = false) (hpeer : a.srcPeer = none) (hr : (s.chan ch).state = .running)
    (hroom : r.index = true ∨ a.got.length + r.len ≤ 64) : s.readDue ch = some (a, r) := by
  rw [State.readDue, hcur]
  dsimp only
  rw [hreads]
  dsimp only
  rw [hr, hpeer, hdead, if_neg]
  rcases hroom with h | h
  · simp [h]
  · simp [Nat.not_lt.mpr h]

theorem exec_readCompletion_chan (hs : s.serving = true) (gen : BitVec 8) (data : List (BitVec 8)) :
    exec (.traverseReadCompletion (.chan ch) gen data) s =
      .next ((s.until fun s => (s.readDue ch).isSome).chanRead ch gen data).chansSettle :=
  congrArg Host.Outcome.next (State.when_of_true _ hs)

theorem State.chanRead_stale {gen : BitVec 8} (h : gen ≠ (s.ctx (s.chan ch).ownCtx).gen) (data : List (BitVec 8)) :
    s.chanRead ch gen data = s.modCtx (s.chan ch).ownCtx fun c => { c with staleDrops := c.staleDrops + 1 } := by
  rw [State.chanRead, if_pos (bne_iff_ne.mpr h)]

theorem State.chanRead_due {gen : BitVec 8} {a : Active} {r : TrvRead} (hg : gen = (s.ctx (s.chan ch).ownCtx).gen)
    (hdue : s.readDue ch = some (a, r)) (data : List (BitVec 8)) : s.chanRead ch gen data = s.readDone ch a r data := by
  rw [State.chanRead, hg, bne_self_eq_false, hdue]
  rfl

/-! ### Writes (R225, R239) -/

theorem State.devWrite_shm {a k : Nat} {bs : List Byte} (h : s.place a bs.length = some (.shm k)) :
    s.devWrite a bs = s.modShm fun m => { m with mem := m.mem.writeBytes k bs } := by
  rw [State.devWrite, h]
  rfl

/-- The channel after the write of bytes. -/
def Chan.wrote (x : Chan) (bs : List Byte) (b : Active) : Chan :=
  { x with crc := if x.crcActive = 0 then x.crc else crcRun x.crcActive.toNat x.crc bs,
           bytes := x.bytes + BitVec.ofNat 64 bs.length, wrRetries := 0 }.withCur b

/-- The work after the write of its bytes. -/
def Active.afterWrite (a : Active) : Active :=
  let b := ({ a with out := [], beats := 0 }.advance (a.out.length / a.fmt.dst * a.fmt.src)).gather
  { b with done := b.moved && b.dstPeer.isNone }

theorem State.writeOut_device {a : Active} (h : a.dstPeer = none) : s.writeOut ch a =
    ((s.devWrite a.dstNext a.out).modChan ch fun x => x.wrote a.out a.afterWrite).peerStep ch := by
  cases a
  subst h
  rfl

theorem State.writeOut_shm (hw : s.memWf = true) {a : Active} {k : Nat} (hp : a.dstPeer = none)
    (h : s.place a.dstNext a.out.length = some (.shm k)) : let u := s.writeOut ch a
    u.main.shm.mem.readBytes k a.out.length = a.out ∧
    (∀ i, (i < k ∨ k + a.out.length ≤ i) → u.main.shm.mem.read i = s.main.shm.mem.read i) ∧
    (∀ m, (u.station m).mem = (s.station m).mem) ∧ (u.chan ch).bytes = (s.chan ch).bytes + BitVec.ofNat 64 a.out.length ∧
    (u.chan ch).crc = if (s.chan ch).crcActive = 0 then (s.chan ch).crc else crcRun (s.chan ch).crcActive.toNat (s.chan ch).crc a.out := by
  obtain ⟨-, -, hshm, -, -⟩ := s.memWf_iff.mp hw
  intro u
  have hsame : SameBytes ((s.modShm fun m => { m with mem := m.mem.writeBytes k a.out }).modChan ch
      fun x => x.wrote a.out a.afterWrite) u := by
    change SameBytes _ (s.writeOut ch a)
    rw [State.writeOut_device hp, State.devWrite_shm h]
    exact .peerStep _ ch
  have hmem : u.main.shm.mem = s.main.shm.mem.writeBytes k a.out := congrArg Shm.mem hsame.shm
  have hstill : (u.chan ch).still = ((s.chan ch).wrote a.out a.afterWrite).still := by
    rw [hsame.still, State.modChan_chan, if_pos rfl]
    rfl
  rw [hmem]
  refine ⟨Memory.readBytes_writeBytes hshm k a.out, fun i hi => Memory.read_writeBytes_out hshm hi, fun m => ?_, ?_, ?_⟩
  · exact congrArg (fun v : Vector Station 24 => (v[m]).mem) hsame.stations
  · exact congrArg Chan.bytes hstill
  · exact congrArg Chan.crc hstill

end

/-! ### Failed accesses (R245, R246) -/

section
variable {s : State} {ch : Fin 16} {c : ChanAccess}

theorem exec_accessFail_chan (hs : s.serving = true) (ha : s.access ch = some c) (hf : s.accessFails c = true) :
    exec (.accessFail (.chan ch)) s = .next (((s.chanFail ch).chansSettle.until (State.noDead ch)).chansSettle) := by
  have hnow : (s.until fun s => (s.access ch).any s.accessFails) = s := State.until_of (by rw [ha]; exact hf)
  change execAccessFail (.chan ch) s = _
  rw [execAccessFail, State.when_of_true _ hs]
  dsimp only
  rw [hnow]

/-- A failed access of a channel that classifies no kick. -/
theorem State.chanFail_of (hc : (s.chan ch).classify = none) (ha : s.access ch = some c) (hf : s.accessFails c = true) :
    s.chanFail ch = if c.code = 2 then s.failAccess ch 2 c.adr none
      else if c.code = 1 then s.failWrite ch c.adr c.peer else s.failedRead ch c.adr := by
  rw [State.chanFail, ha]
  dsimp only
  rw [hf, hc]
  rfl

/-- An access that is no fetch and no write is that of the channel's oldest read, which waits for its data. -/
theorem State.access_read (hc : (s.chan ch).classify = none) (ha : s.access ch = some c) (hcode : c.code = 0 ∨ c.code = 3) {a : Active}
    {r : TrvRead} {rest : List TrvRead} (hcur : (s.chan ch).cur = some a) (hreads : a.reads = r :: rest) :
    c.adr = r.addr ∧ r.data = none ∧ r.dead = false := by
  rw [State.access, hc] at ha
  rw [if_neg (by decide)] at ha
  split at ha
  · exact absurd ha (by simp)
  split at ha
  · split at ha
    · exact absurd ha (by simp)
    · obtain rfl := Option.some.inj ha
      exact absurd hcode (by simp)
  rw [hcur] at ha
  dsimp only at ha
  split at ha
  · obtain rfl := Option.some.inj ha
    exact absurd hcode (by simp)
  rw [hreads] at ha
  dsimp only at ha
  split at ha
  · exact absurd ha (by simp)
  next hnot =>
    obtain rfl := Option.some.inj ha
    simp only [Bool.or_eq_true, not_or, Bool.not_eq_true, Option.isSome_eq_false_iff, Option.isNone_iff_eq_none] at hnot
    exact ⟨rfl, hnot.1.2, hnot.1.1⟩

theorem failRead_head {r : TrvRead} {rest : List TrvRead} (hd : r.data = none) (hdead : r.dead = false) :
    failRead r.addr (r :: rest) = { r with dead := true } :: rest := by
  rw [failRead, hd, hdead]
  simp

theorem State.failAccess_retry {access adr : Nat} {peer : Option (Fin 8)} (h : (s.chan ch).retries < s.main.trvRetry.toNat) :
    s.failAccess ch access adr peer = s.modChan ch fun x => { x with retries := x.retries + 1 } := if_pos h

theorem State.failAccess_halt {access adr : Nat} {peer : Option (Fin 8)} (h : s.main.trvRetry.toNat ≤ (s.chan ch).retries) :
    s.failAccess ch access adr peer = s.chanHalt ch stBusError (haltDetail ch access (s.chan ch).starter.station 0) (some (errAddrOf adr peer)) :=
  if_neg (Nat.not_lt.mpr h)

theorem State.failWrite_retry {adr : Nat} {peer : Option (Fin 8)} (h : (s.chan ch).wrRetries < s.main.trvRetry.toNat) :
    s.failWrite ch adr peer = s.modChan ch fun x => { x with wrRetries := x.wrRetries + 1 } := if_pos h

theorem State.failWrite_halt {adr : Nat} {peer : Option (Fin 8)} (h : s.main.trvRetry.toNat ≤ (s.chan ch).wrRetries) :
    s.failWrite ch adr peer = s.chanHalt ch stBusError (haltDetail ch 1 (s.chan ch).starter.station 0) (some (errAddrOf adr peer)) :=
  if_neg (Nat.not_lt.mpr h)

theorem State.failedRead_retry {adr : Nat} (h : (s.chan ch).retries < s.main.trvRetry.toNat) :
    s.failedRead ch adr = s.modChan ch fun x => { x with retries := x.retries + 1 } := if_pos h

theorem State.failedRead_dead {a : Active} {r : TrvRead} {rest : List TrvRead} (h : s.main.trvRetry.toNat ≤ (s.chan ch).retries)
    (hcur : (s.chan ch).cur = some a) (hreads : a.reads = r :: rest) (hd : r.data = none) (hdead : r.dead = false) :
    s.failedRead ch r.addr = s.modChan ch fun x => x.withCur { a with reads := { r with dead := true } :: rest } := by
  rw [State.failedRead, if_neg (Nat.not_lt.mpr h), hcur]
  dsimp only
  rw [hreads, List.isEmpty_cons, if_neg Bool.false_ne_true, hreads, failRead_head hd hdead]

/-- A read that failed for good ends the descriptor, once everything before it in the stream is written (R246). -/
theorem State.chanNext_dead {a : Active} {r : TrvRead} {rest : List TrvRead} (hcur : (s.chan ch).cur = some a)
    (hreads : a.reads = r :: rest) (hdead : r.dead = true) (hgot : a.got = []) (hout : a.out = []) (hr : (s.chan ch).state = .running)
    (hw : (s.chan ch).wantFetch = false) (hdone : a.done = false) (hk : a.kind ≠ 4) :
    s.chanNext ch = some (s.chanHalt ch stBusError (haltDetail ch (if r.index then 3 else 0) (s.chan ch).starter.station 0)
      (some (errAddrOf r.addr a.srcPeer))) := by
  rw [State.chanNext, hr]
  dsimp only
  rw [hw, hcur, Bool.false_and, if_neg Bool.false_ne_true]
  dsimp only
  rw [hdone, decide_eq_false hk, Bool.false_or, if_neg Bool.false_ne_true, State.curEnds, hgot, hout]
  rw [if_neg (by decide), hreads]
  dsimp only
  rw [hdead]
  rfl

/-! ### Halts and ends (R232, R246, R247) -/

theorem State.chanIrq_chan (s : State) (ch k : Fin 16) : (s.chanIrq ch).chan k = s.chan k := by
  have h : (s.chanIrq ch).main.chans = s.main.chans := congrArg LinkView.chans (s.raiseIf_linkView _ _)
  rw [State.chan, h]

theorem State.chanHalt_driver (h : (s.chan ch).starter = .driver) (status : BitVec 16) (detail : BitVec 32) (adr : Option (BitVec 48)) :
    (s.chanHalt ch status detail adr).chan ch =
      { (s.chan ch).over .halted status with errDetail := detail, errAddr := adr.getD (s.chan ch).errAddr } := by
  rw [State.chanHalt, State.reportHalt, h]
  dsimp only
  rw [State.chanIrq_chan, State.modChan_chan, if_pos rfl]
  rfl

theorem State.trigger_chan (s : State) (ch k : Fin 16) : ((s.trigger ch).chan k).state = (s.chan k).state ∧
    ((s.trigger ch).chan k).lastStatus = (s.chan k).lastStatus ∧ ((s.trigger ch).chan k).cur = (s.chan k).cur := by
  unfold State.trigger
  rw [State.chan, State.modMain_main, Fin.getElem_fin, Vector.getElem_ofFn]
  dsimp only
  split
  · split
    · exact ⟨rfl, rfl, rfl⟩
    · exact ⟨rfl, rfl, rfl⟩
  · exact ⟨rfl, rfl, rfl⟩

theorem State.chanEnd_driver (h : (s.chan ch).starter = .driver) : s.chanEnd ch =
    (s.modChan ch fun x => x.over (if (s.chan ch).rearm && (s.chan ch).how != 0 then .armed else .idle) stOk).trigger ch := by
  rw [State.chanEnd, h]

/-- What DESCRIPTOR_END does once the clocks until it have passed. -/
def State.descEnded (ch : Fin 16) (v : State) : State :=
  match (v.chan ch).cur with
  | none => v
  | some a => v.when ((v.chan ch).state == .running && !(v.chan ch).cancelling && a.done && !v.endWaits ch a) fun s =>
    ((s.descSignals ch a).descNext ch a).chansSettle

theorem exec_descriptorEnd_of_serving (hs : s.serving = true) :
    exec (.descriptorEnd ch) s = .next ((s.until fun v => (v.chan ch).cur.all Active.done).descEnded ch) :=
  congrArg Host.Outcome.next (State.when_of_true _ hs)

theorem State.descEnded_waits {a : Active} (hcur : (s.chan ch).cur = some a) (h : a.done = false ∨ (s.chan ch).cancelling = true) :
    s.descEnded ch = s := by
  rw [State.descEnded, hcur]
  refine State.when_of_false _ ?_
  rcases h with h | h <;> rw [h] <;> simp

theorem State.descEnded_done {a : Active} (hcur : (s.chan ch).cur = some a) (hr : (s.chan ch).state = .running)
    (hc : (s.chan ch).cancelling = false) (hd : a.done = true) (hspec : (s.chan ch).spec = none) :
    s.descEnded ch = ((s.descSignals ch a).descNext ch a).chansSettle := by
  rw [State.descEnded, hcur]
  refine State.when_of_true _ ?_
  rw [hr, hc, hd, State.endWaits, hspec]
  rfl

/-- A chain that runs under no epoch holds nothing back: its mark is set at once (R247). -/
theorem State.descSignals_mark {a : Active} (hspec : (s.chan ch).spec = none) (hsig : dSig a.raw = true) (hirq : dIrq a.raw = false)
    (hp : a.dstPeer = none) : s.descSignals ch a = s.setMark (dMark a.raw) (s.main.marks[dMark a.raw] + 1) := by
  rw [State.descSignals, hspec, hsig, hirq, hp]
  rfl

theorem State.descSignals_none {a : Active} (hsig : dSig a.raw = false) (hirq : dIrq a.raw = false) : s.descSignals ch a = s := by
  rw [State.descSignals, hsig, hirq]
  rfl

theorem State.descNext_end {a : Active} (h : a.last = true) : s.descNext ch a = s.chanEnd ch := if_pos h

theorem State.descNext_more {a : Active} (h : a.last = false) (hn : (s.chan ch).descCount.toNat < s.main.chainLimit.toNat) :
    s.descNext ch a = s.modChan ch fun x => { x with cur := none, wantFetch := true, descAddr := dNext a.raw } := by
  rw [State.descNext, h, if_neg Bool.false_ne_true, if_neg (Nat.not_le.mpr hn)]

theorem State.descNext_limit {a : Active} (h : a.last = false) (hn : s.main.chainLimit.toNat ≤ (s.chan ch).descCount.toNat) :
    s.descNext ch a = s.chanHalt ch stChainLimit (haltDetail ch 4 (s.chan ch).starter.station 0) none := by
  rw [State.descNext, h, if_neg Bool.false_ne_true, if_pos hn]

end

/-! ### Kicks (R250) -/

section
variable {s : State} {n : Fin 24} {k : KickReq} {rest : List KickReq}

theorem exec_kick_of_oldest (hk : (s.station n).kicks = k :: rest) : exec (.kick n) s = .next
    (s.when (s.serving && (s.station n).writesBefore k.seq && (s.chan k.ch).pendKick.isNone && (s.chan k.ch).classify.isNone) fun s =>
      (((s.kickArrive n k).modStation n fun t => { t with kicks := rest }).chansSettle).settle n) := by
  change execKick n s = _
  rw [execKick, hk]

/-- A channel that the station's context does not own ignores a kick (R223, R248). -/
theorem State.kickArrive_ignored (he : k.epoch = none)
    (h : (s.chan k.ch).ownValid = false ∨ (s.chan k.ch).ownCtx ≠ (s.station n).ctx) : s.kickArrive n k = s := by
  rw [State.kickArrive, he, if_pos]
  rw [Bool.or_eq_true, Bool.not_eq_true', bne_iff_ne]
  exact h

/-- The pending kick that a kick outside every epoch makes. -/
def State.pendKickOf (s : State) (n : Fin 24) (k : KickReq) : PendKick :=
  { station := n, queue := (s.station n).queue, order := (s.station n).order, head := k.head, arrival := s.stamp }

theorem State.kickArrive_pending (he : k.epoch = none) (hv : (s.chan k.ch).ownValid = true)
    (hc : (s.chan k.ch).ownCtx = (s.station n).ctx) :
    s.kickArrive n k = s.nextStamp.modChan k.ch fun x => { x with pendKick := some (s.pendKickOf n k) } := by
  rw [State.kickArrive, he, if_neg]
  · rfl
  · rw [hv, hc, bne_self_eq_false]
    decide

end

/-! ### The CRCs (R239) -/

theorem crcRun_check : crcRun 1 0xFFFFFFFF [0x31, 0x32, 0x33, 0x34, 0x35, 0x36, 0x37, 0x38, 0x39] ^^^ 0xFFFFFFFF = 0xE3069283 ∧
    crcRun 2 0xFFFFFFFF [0x31, 0x32, 0x33, 0x34, 0x35, 0x36, 0x37, 0x38, 0x39] ^^^ 0xFFFFFFFF = 0xCBF43926 := by
  decide +kernel

/-- Settles O53, by the fetch, the reads, the writes, the failures and the ends of a channel, and by its kicks. -/
theorem channelWork : Obligations.ChannelWork := by
  intro ch s hs x st
  refine ⟨fun hc hr hw hb reply => ?_, fun d => ?_, fun a r rest gen data hcur hreads hdead hpeer hr hroom hg => ?_, fun gen data => ?_,
    fun a r bs => ?_, fun hwf a k hp hplace _ => State.writeOut_shm hwf hp hplace, fun c => exec_accessFail_chan hs, fun c hc ha hf => ?_,
    fun a r rest => State.chanNext_dead, fun status detail adr => ?_, fun a hcur hr hc hd hspec => ?_, ?_, fun a => ?_,
    fun n k rest hk hch hpend hclass => ?_, crcRun_check.1, crcRun_check.2⟩
  · rw [exec_descFetch_due hs hc hr hw hb]
    exact ⟨fun d hd => by rw [hd], fun hn => by rw [hn]⟩
  · intro t f
    have hchan : t.chan ch = { s.chan ch with
        fmt := (s.chan ch).fmt.activate, wantFetch := false, fetchBeats := 0, descCount := (s.chan ch).descCount + 1, retries := 0 } :=
      (s.modChan_chan ch ch _).trans (if_pos rfl)
    have hst : (t.chan ch).starter.station = st := by rw [hchan]
    have hspec : (t.chan ch).spec = x.spec := by rw [hchan]
    rw [show s.loadDesc ch d = t.checkDesc ch d f from s.loadDesc_eq ch d]
    refine ⟨fun b hb => ?_, fun hb e he => State.checkDesc_bound hb (hst ▸ he), fun hb he => ?_⟩
    · rw [State.checkDesc_bad hb, hst]
    · rw [State.checkDesc_in_bounds hb (hst ▸ he), hspec, hst]
      refine ⟨fun h => if_neg ?_, fun hsome hno => if_pos ?_⟩
      · rw [Bool.and_eq_true, Option.isSome_iff_ne_none, Bool.not_eq_true']
        rintro ⟨hsome, hno⟩
        exact h.elim hsome fun hyes => Bool.false_ne_true (hno.symm.trans hyes)
      · rw [hno, Option.isSome_iff_ne_none.mpr hsome]
        rfl
  · have hdue := State.readDue_of hcur hreads hdead hpeer hr hroom
    rw [exec_readCompletion_chan hs, State.until_of (by rw [hdue]; rfl), State.chanRead_due hg hdue, State.readDone]
    refine ⟨fun hp => ?_, fun hp => ?_⟩
    · rw [hp]
      rfl
    · rw [if_neg (by rw [Option.isNone_iff_eq_none]; exact hp)]
  · intro v hg
    rw [exec_readCompletion_chan hs, State.chanRead_stale hg]
  · intro b
    refine ⟨?_, fun hi => ?_, fun hi => ?_⟩
    · cases hi : r.index with
      | true => exact congrArg Active.reads (Active.gotRead_index hi bs)
      | false => exact (congrArg Active.reads (Active.gotRead_data hi bs)).trans (Active.gather_reads _)
    · rw [show b = _ from Active.gotRead_index hi bs]
      exact ⟨rfl, rfl, rfl⟩
    · rw [show b = _ from Active.gotRead_data hi bs]
      refine ⟨Active.gather_idxs _, fun hp => ?_⟩
      exact (Active.gather_bytes (a := { a with reads := a.reads.drop 1, got := a.got ++ bs }) hp).trans (List.append_assoc _ _ _).symm
  · rw [State.chanFail_of hc ha hf]
    refine ⟨fun h hn => ?_, fun h hn => ?_, fun h hn => ?_, fun h hn => ?_, fun h hn => ?_, fun h hn a r rest hcur hreads => ?_⟩
    · rw [if_pos h, State.failAccess_retry hn]
    · rw [if_pos h, State.failAccess_halt hn]
      rfl
    · rw [if_neg (by omega), if_pos h, State.failWrite_retry hn]
    · rw [if_neg (by omega), if_pos h, State.failWrite_halt hn]
    · rw [if_neg (by omega), if_neg (by omega), State.failedRead_retry hn]
    · obtain ⟨hadr, hdata, hdead⟩ := State.access_read hc ha h hcur hreads
      rw [if_neg (by omega), if_neg (by omega), hadr, State.failedRead_dead hn hcur hreads hdata hdead]
  · intro y hdrv
    rw [show y = _ from State.chanHalt_driver hdrv status detail adr]
    exact ⟨rfl, rfl, rfl, rfl, rfl⟩
  · refine ⟨?_, State.descSignals_mark hspec, State.descSignals_none, State.descNext_more, State.descNext_limit, State.descNext_end⟩
    rw [exec_descriptorEnd_of_serving hs, State.until_of (by rw [show (s.chan ch).cur = some a from hcur]; exact hd),
      State.descEnded_done hcur hr hc hd hspec]
  · intro y hdrv
    have hy : y = (s.chanEnd ch).chan ch := rfl
    rw [State.chanEnd_driver hdrv] at hy
    obtain ⟨hstate, hstatus, hcur⟩ := State.trigger_chan (s.modChan ch fun x =>
      x.over (if (s.chan ch).rearm && (s.chan ch).how != 0 then .armed else .idle) stOk) ch ch
    rw [← hy, State.modChan_chan, if_pos rfl] at hstate hstatus hcur
    refine ⟨hstate.trans (if_congr ?_ rfl rfl), hstatus, hcur⟩
    rw [Bool.and_eq_true, bne_iff_ne]
  · intro v hcur h
    rw [exec_descriptorEnd_of_serving hs, State.descEnded_waits hcur h]
  · subst hch
    rw [exec_kick_of_oldest hk]
    refine ⟨fun hbefore => ?_, fun hbefore => ?_, State.kickArrive_ignored, fun he hv hc => ?_⟩
    · rw [State.when_of_true]
      rw [hs, hbefore, show (s.chan k.ch).pendKick = none from hpend, show (s.chan k.ch).classify = none from hclass]
      rfl
    · rw [State.when_of_false]
      rw [hbefore, Bool.and_false, Bool.false_and, Bool.false_and]
    · exact ⟨s.pendKickOf n k, ⟨rfl, rfl, rfl⟩, State.kickArrive_pending he hv hc⟩

end Sys2Proof.Machine

/-!
## The reset commands (chapters 2 and 14)
-/

namespace Sys2Proof.Machine

/-! ### Work under way that a reset cuts off (R35, R347) -/

theorem State.eq_of_sansFlash {s t : State} (h : s.sansFlash = t.sansFlash) : s = { t with nand := s.nand, stamp := s.stamp } :=
  congrArg (fun v : State => { v with nand := s.nand, stamp := s.stamp }) h

theorem State.cutBurn_otp (s : State) :
    s.cutBurn = { s with otp := { s.otp with pmkState := if s.main.idk.burnBusy then 2 else s.otp.pmkState } } := by
  unfold State.cutBurn
  split <;> rfl

theorem State.cutNv_rest (s : State) : s.cutNv = { s with nv := s.cutNv.nv } := rfl

/-- A burn cut off in a state that differs in its arrays and its flash. -/
theorem State.cutBurn_of_rest {s v : State} {nv : Vector (Vector ArrayNv 32) 24}
    (h : v = { s with nv := nv, nand := v.nand, stamp := v.stamp }) : v.cutBurn =
    { s with
      otp := { s.otp with pmkState := if s.main.idk.burnBusy then 2 else s.otp.pmkState }
      nv := nv
      nand := v.cutBurn.nand
      stamp := v.cutBurn.stamp } := by
  generalize v.nand = nand at h
  generalize v.stamp = stamp at h
  subst h
  rw [State.cutBurn_otp]

/-- What a cut leaves: it changes the arrays in PROGRAMMING, a burn under way and the flash. -/
theorem State.cutWork_rest (s : State) : s.cutWork =
    { s with
      otp := { s.otp with pmkState := if s.main.idk.burnBusy then 2 else s.otp.pmkState }
      nv := s.cutNv.nv
      nand := s.cutWork.nand
      stamp := s.cutWork.stamp } := by
  have h := State.eq_of_sansFlash s.cutCells_sansFlash
  rw [State.cutNv_rest] at h
  rw [State.cutWork]
  exact State.cutBurn_of_rest h

theorem State.cutNv_array (s : State) (n : Fin 24) (a : Fin 32) : s.cutNv.arrayNv n a =
    { s.arrayNv n a with state := if (s.arrayNv n a).state = 2 then 0 else (s.arrayNv n a).state } := by
  unfold State.cutNv State.arrayNv
  simp only [Fin.getElem_fin, Vector.getElem_ofFn]
  split <;> rfl

theorem State.cutWork_nand_of_spares {s : State} (h : ∀ u, s.sparesCells u) : s.cutWork.nand = s.nand := by
  rw [State.cutWork, State.cutBurn_rest, State.cutCells_of_spares h, State.cutNv]

/-! ### The AON domain after a reset (R34, R35, R313) -/

theorem State.freshMain_aon (s : State) : s.freshMain.aon = s.aon := rfl

section
variable {s : State} {c : ResetCause}

theorem State.deviceReset_aon_cold (h : c = .cold ∨ c = .borLp) : (s.deviceReset c).aon = s.cutWork.coldAon (s.cutWork.causes c) := by
  unfold State.deviceReset
  rw [State.modPcie_aon, State.freshMain_aon]
  rcases h with rfl | rfl <;> dsimp only

theorem State.deviceReset_aon_warm (h1 : c ≠ .cold) (h2 : c ≠ .borLp) :
    (s.deviceReset c).aon = s.cutWork.warmAon (s.cutWork.causes c) := by
  cases c with
  | cold => exact absurd rfl h1
  | borLp => exact absurd rfl h2
  | borVsys => rfl
  | dormantWake => rfl
  | perst => rfl
  | flr => rfl

theorem State.cutWork_causes (s : State) (c : ResetCause) : s.cutWork.causes c = s.causes c := by
  have hperst : s.cutWork.perstLow = s.perstLow := by rw [State.cutWork_rest]
  have hflr : s.cutWork.flrWait = s.flrWait := by rw [State.cutWork_rest]
  rw [State.causes, State.causes, hperst, hflr]

end

theorem State.coldAon_leaves (s : State) (bits : BitVec 6) : let a := s.coldAon bits
    a.cause = topCause bits ∧ a.history = bits ∧ a.rstCount = 1 ∧ (∀ i : Fin 512, a.ring[i] = 0) ∧ a.fbHead = 0 ∧
      a.padHeld = true ∧ a.padZ = true ∧ a.vsysWarn = 2 := by
  intro a
  have hring : ∀ i : Fin 512, (Vector.replicate 512 (0 : BitVec 128))[i] = 0 := fun i => by
    rw [Fin.getElem_fin, Vector.getElem_replicate]
  have ha : a = s.coldAon bits := rfl
  unfold State.coldAon at ha
  split at ha
  · rw [ha]
    exact ⟨rfl, rfl, rfl, hring, rfl, rfl, rfl, rfl⟩
  · rw [ha]
    exact ⟨rfl, rfl, rfl, hring, rfl, rfl, rfl, rfl⟩

/-- What the pad-hold latches change of the AON domain: themselves alone. -/
theorem Aon.capture_rest (a : Aon) (k : Nat) : a.capture k = { a with
    padHeld := true
    padZ := (a.capture k).padZ
    padFault := (a.capture k).padFault
    padWake := (a.capture k).padWake
    padGpio := (a.capture k).padGpio
    padRx := (a.capture k).padRx } := by
  cases h : a.padHeld with
  | true =>
    rw [Aon.capture, if_pos h, ← h]
  | false =>
    rw [Aon.capture, if_neg (Bool.eq_false_iff.mp h)]

theorem Aon.capture_of_held {a : Aon} (h : a.padHeld = true) (k : Nat) : a.capture k = a := if_pos h

theorem Aon.capture_of_free {a : Aon} (h : a.padHeld = false) (k : Nat) :
    (a.capture k).padZ = false ∧ (a.capture k).padFault = a.faultN ∧ (a.capture k).padWake = a.wakeOut := by
  rw [Aon.capture, if_neg (Bool.eq_false_iff.mp h)]
  exact ⟨rfl, rfl, rfl⟩

theorem State.warmAon_leaves (s : State) (bits : BitVec 6) :
    (s.warmAon bits).cause = topCause bits ∧ (s.warmAon bits).history = s.aon.history ||| bits ∧
      (s.warmAon bits).rstCount = s.aon.rstCount + 1 ∧ (s.warmAon bits).ring = s.aon.ring ∧ (s.warmAon bits).fbHead = s.aon.fbHead ∧
      (s.warmAon bits).bootSel = s.aon.bootSel ∧ (s.warmAon bits).linkId = s.aon.linkId ∧ (s.warmAon bits).mgtAddr = s.aon.mgtAddr ∧
      (s.warmAon bits).flushing = s.aon.flushing ∧ (s.warmAon bits).vsysWarn = s.aon.vsysWarn ∧ (s.warmAon bits).padHeld = true ∧
      (s.warmAon bits).faultN = (s.aon.faultN && s.aon.bootBad) := by
  unfold State.warmAon
  rw [Aon.capture_rest]
  exact ⟨rfl, rfl, rfl, rfl, rfl, rfl, rfl, rfl, rfl, rfl, rfl, rfl⟩

/-- The pads after a reset: held as they were, or with the levels of now (R313). -/
theorem State.warmAon_pads (s : State) (bits : BitVec 6) : let a := s.warmAon bits
    (s.aon.padHeld = false → a.padZ = false ∧ a.padFault = s.aon.faultN ∧ a.padWake = s.aon.wakeOut) ∧
    (s.aon.padHeld = true → a.padZ = s.aon.padZ ∧ a.padFault = s.aon.padFault ∧ a.padWake = s.aon.padWake ∧
      a.padGpio = s.aon.padGpio ∧ a.padRx = s.aon.padRx) := by
  refine ⟨fun h => Aon.capture_of_free h s.stamp, fun h => ?_⟩
  unfold State.warmAon
  rw [Aon.capture_of_held h]
  exact ⟨rfl, rfl, rfl, rfl, rfl⟩

/-! ### The machine after a reset (R35) -/

/-- A reset state has the fuses, arrays and flash that the cut left, and a main domain at its reset values. -/
theorem State.started_leaves {s u : State} {aon : Aon} {p : Pcie} (h : u = ({ s with aon := aon } : State).started p) :
    u.slots = s.slots ∧ u.otp = s.otp ∧ u.nv = s.nv ∧ u.nand = s.nand ∧ u.main.pcie = p ∧ u.main.shm.mem.known = [] ∧
      ∀ n, (u.station n).mem.known = [] := by
  subst h
  refine ⟨rfl, rfl, rfl, rfl, rfl, rfl, fun n => ?_⟩
  rw [State.started_station]
  rfl

theorem State.deviceReset_leaves (s : State) (c : ResetCause) :
    (s.deviceReset c).slots = s.cutWork.slots ∧ (s.deviceReset c).otp = s.cutWork.otp ∧ (s.deviceReset c).nv = s.cutWork.nv ∧
      (s.deviceReset c).nand = s.cutWork.nand ∧ (s.deviceReset c).main.pcie = s.cutWork.main.pcie.afterReset c ∧
      (s.deviceReset c).main.shm.mem.known = [] ∧ ∀ n, ((s.deviceReset c).station n).mem.known = [] :=
  State.started_leaves (s.deviceReset_eq c)

/-! ### Operations that are given up (R36, R219) -/

/-- The parts of a state that a suspect page or block leaves alone. -/
def State.nandWaits (s : State) : Option BootInputs × Vector Lun 32 := (s.flrWait, s.main.nfc.luns)

theorem State.raiseIf_nandWaits (s : State) (c : Bool) (v : Fin 64) : (s.raiseIf c v).nandWaits = s.nandWaits := by
  rw [State.raiseIf_rest]
  rfl

theorem State.suspect_nandWaits (s : State) (u : Fin 32) (o : NandOp) (status : BitVec 16) :
    (s.suspect u o status).nandWaits = s.nandWaits :=
  State.raiseIf_nandWaits _ _ _

theorem State.spoil_nandWaits (s : State) (u : Nat) (o : NandOp) : (s.spoil u o).nandWaits = s.nandWaits := by
  rw [State.eq_of_sansFlash (s.spoil_sansFlash u o)]
  rfl

theorem State.giveUp_of_some {s : State} {u : Fin 32} {f : InFlight} (h : (s.lun u).cur = some f) (status : BitVec 16) :
    s.giveUp u status = (f.ops.foldl (fun s o => (s.suspect u o status).spoil u.val o) s).modLun u fun l =>
      { l.queueReset with cur := some { f with ignored := true } } := by
  rw [State.giveUp, h]

theorem State.giveUp_none {s : State} {u : Fin 32} (h : (s.lun u).cur = none) (status : BitVec 16) : s.giveUp u status = s := by
  rw [State.giveUp, h]

theorem State.suspects_nandWaits (s : State) (u : Fin 32) (status : BitVec 16) (ops : List NandOp) :
    (ops.foldl (fun s o => (s.suspect u o status).spoil u.val o) s).nandWaits = s.nandWaits :=
  foldl_view State.nandWaits (fun v o => ((v.suspect u o status).spoil_nandWaits u.val o).trans (v.suspect_nandWaits u o status)) ops s

theorem State.giveUp_flrWait (s : State) (u : Fin 32) (status : BitVec 16) : (s.giveUp u status).flrWait = s.flrWait := by
  cases h : (s.lun u).cur with
  | none => rw [State.giveUp_none h]
  | some f =>
    rw [State.giveUp_of_some h]
    exact congrArg Prod.fst (s.suspects_nandWaits u status f.ops)

/-- What is given up is no write in flight any more; the other LUNs go on. -/
theorem State.giveUp_writing (s : State) (u k : Fin 32) (status : BitVec 16) :
    ((s.giveUp u status).lun k).writing = if u = k then false else (s.lun k).writing := by
  cases h : (s.lun u).cur with
  | none =>
    rw [State.giveUp_none h]
    split
    next hk => rw [← hk, Lun.writing, h, Option.any_none]
    · rfl
  | some f =>
    have hluns : (f.ops.foldl (fun s o => (s.suspect u o status).spoil u.val o) s).main.nfc.luns = s.main.nfc.luns :=
      congrArg Prod.snd (s.suspects_nandWaits u status f.ops)
    rw [State.giveUp_of_some h]
    change (upd (State.main _).nfc.luns u _)[k].writing = _
    rw [hluns, upd_get]
    split
    · rw [Lun.writing, Option.any_some, Bool.not_true, Bool.and_false, Bool.false_and]
    · rfl

/-- What is still in flight when the wait of an FLR reaches its bound is given up (R36). -/
def State.giveUpWriting (s : State) (u : Fin 32) : State := if (s.lun u).writing then s.giveUp u stTimeoutNand else s

theorem State.giveUpWriting_writing (s : State) (u k : Fin 32) :
    ((s.giveUpWriting u).lun k).writing = if u = k then false else (s.lun k).writing := by
  unfold State.giveUpWriting
  split
  · exact s.giveUp_writing u k _
  next h =>
    split
    next hk => rw [← hk, Bool.eq_false_iff.mpr h]
    · rfl

theorem foldl_giveUpWriting_writing (k : Fin 32) : ∀ (l : List (Fin 32)) (s : State), k ∈ l ∨ (s.lun k).writing = false →
    ((l.foldl State.giveUpWriting s).lun k).writing = false
  | [], _, h => h.resolve_left List.not_mem_nil
  | u :: l, s, h => by
    refine foldl_giveUpWriting_writing k l (s.giveUpWriting u) ?_
    rw [State.giveUpWriting_writing]
    by_cases hk : u = k
    · exact .inr (if_pos hk)
    · rw [if_neg hk]
      exact h.imp_left fun hm => (List.mem_cons.mp hm).resolve_left (Ne.symm hk)

theorem State.giveUpWriting_flrWait (s : State) (u : Fin 32) : (s.giveUpWriting u).flrWait = s.flrWait := by
  unfold State.giveUpWriting
  split
  · exact s.giveUp_flrWait u _
  · rfl

/-! ### The Function Level Reset (R36, R268) -/

theorem State.flrCheck_done {s : State} {b : BootInputs} (hw : s.flrWait = some b) (h : ∀ l, (s.lun l).writing = false) :
    s.flrCheck = (s.deviceReset .flr).startMain b := by
  rw [State.flrCheck, hw]
  refine if_neg ?_
  rw [List.any_eq_true]
  rintro ⟨l, -, hl⟩
  exact Bool.false_ne_true ((h l).symm.trans hl)

theorem State.flrCheck_waits {s : State} {b : BootInputs} (hw : s.flrWait = some b) (h : ∃ l, (s.lun l).writing = true) :
    s.flrCheck = s := by
  obtain ⟨l, hl⟩ := h
  rw [State.flrCheck, hw]
  exact if_pos (List.any_eq_true.mpr ⟨l, List.mem_finRange l, hl⟩)

theorem exec_flrNandWait_waiting {s : State} {b : BootInputs} (h : s.flrWait = some b) : exec .flrNandWait s =
    .next ((((List.finRange 32).foldl State.giveUpWriting s).deviceReset .flr).startMain b) := by
  change execFlrNandWait s = _
  have hwait := (foldl_view State.flrWait State.giveUpWriting_flrWait (List.finRange 32) s).trans h
  rw [execFlrNandWait, h]
  change Host.Outcome.next ((List.finRange 32).foldl State.giveUpWriting s).flrCheck = _
  rw [State.flrCheck_done hwait fun l => foldl_giveUpWriting_writing l _ s (.inl (List.mem_finRange l))]

/-- ABORT for the job of a bound context (R268). -/
def State.abortBound (s : State) (c : Fin 8) : State := if (s.bound c).valid then s.sendAbort (s.bound c).job [0, 1] else s

/-- The state in which an FLR waits or takes effect: every bound job is aborted where the link runs. -/
def State.flrAborted (s : State) : State := if s.stationsOn then (List.finRange 8).foldl State.abortBound s else s

theorem exec_flr_of_running {s : State} (hr : s.running = true) (hw : s.flrWait = none) (b : BootInputs) :
    exec (.flr b) s = .next ({ s.flrAborted with flrWait := some b } : State).flrCheck :=
  congrArg Host.Outcome.next (State.when_of_true _ (by rw [hr, hw]; rfl))

/-- The lanes of an FLR: it takes effect where no write is in flight, and waits otherwise (R36). -/
theorem State.flrCheck_of (t : State) (b : BootInputs) :
    ((∀ l, (t.lun l).writing = false) → ({ t with flrWait := some b } : State).flrCheck =
      (({ t with flrWait := some b } : State).deviceReset .flr).startMain b) ∧
    ((∃ l, (t.lun l).writing = true) → ({ t with flrWait := some b } : State).flrCheck = { t with flrWait := some b }) :=
  ⟨fun h => State.flrCheck_done rfl h, fun h => State.flrCheck_waits rfl h⟩

/-! ### PERST_N and DFT_EN (R34, R369) -/

theorem exec_perst_restarts {s : State} (h : s.perstLow = false) (hp : s.phase.restarts = true) :
    exec .perst s = .next { s.deviceReset .perst with perstLow := true, phase := .inReset } := by
  change execPerst s = _
  rw [execPerst, h, hp, if_neg Bool.false_ne_true, if_pos rfl]

theorem exec_perst_held {s : State} (h : s.perstLow = false) (hr : s.phase.restarts = false) (hp : s.phase.held = true) :
    exec .perst s = .next { s with perstLow := true, aon := s.aon.alsoCause .perst } := by
  change execPerst s = _
  rw [execPerst, h, hr, hp, if_neg Bool.false_ne_true, if_neg Bool.false_ne_true, if_pos rfl]

theorem exec_perst_other {s : State} (hr : s.phase.restarts = false) (hp : s.phase.held = false) :
    exec .perst s = .next { s with perstLow := true } := by
  change execPerst s = _
  rw [execPerst, hr, hp]
  cases h : s.perstLow with
  | true =>
    rw [if_pos rfl]
    exact congrArg (fun v => Host.Outcome.next { s with perstLow := v }) h
  | false => rfl

/-- The main domain held in reset for DFT_EN, past what the cut does (R369). -/
def State.dftHold (s v : State) : State :=
  { v with phase := .dftHeld, aon := { (s.aon.capture s.stamp) with faultN := s.aon.faultN && s.aon.bootBad } }.freshMain

theorem State.dftHold_leaves (s v : State) : (s.dftHold v).phase = .dftHeld ∧ (s.dftHold v).dftHigh = v.dftHigh ∧
    (s.dftHold v).main.time = 0 ∧ (s.dftHold v).main.glb.ready = false ∧ (∀ q, (s.dftHold v).queue q = {}) ∧
    (s.dftHold v).aon.ring = s.aon.ring ∧ (s.dftHold v).aon.cause = s.aon.cause := by
  refine ⟨rfl, rfl, rfl, rfl, fun q => ?_, Aon.capture_ring _ _, ?_⟩
  · change (Vector.replicate 16 ({} : Queue))[q] = {}
    rw [Fin.getElem_fin, Vector.getElem_replicate]
  · change (s.aon.capture s.stamp).cause = s.aon.cause
    rw [Aon.capture_rest]

theorem exec_dftEn_of_out {s : State} (h : s.phase ∈ [Phase.bootPcie, .bootFw, .bootFailed, .serving, .inReset]) :
    exec .dftEn s = .next (({ s with dftHigh := true } : State).cutWork.dftHold ({ s with dftHigh := true } : State).cutWork) := by
  change execDftEn s = _
  rw [execDftEn]
  simp only [List.mem_cons, List.not_mem_nil, or_false] at h
  rcases h with h | h | h | h | h <;> rw [h] <;> rfl

/-! ### What each reset kind keeps and clears -/

section
variable (s : State) (c : ResetCause)

theorem State.deviceReset_array (n : Fin 24) (a : Fin 32) : (s.deviceReset c).arrayNv n a =
    { s.arrayNv n a with state := if (s.arrayNv n a).state = 2 then 0 else (s.arrayNv n a).state } := by
  obtain ⟨-, -, hnv, -⟩ := s.deviceReset_leaves c
  rw [← State.cutNv_array, State.arrayNv, State.arrayNv, hnv, State.cutWork_rest]

theorem State.deviceReset_otp : (s.deviceReset c).otp =
    { s.otp with pmkState := if s.main.idk.burnBusy then 2 else s.otp.pmkState } := by
  obtain ⟨-, hotp, -⟩ := s.deviceReset_leaves c
  rw [hotp, State.cutWork_rest]

theorem State.cutWork_aon : s.cutWork.aon = s.aon := by rw [State.cutWork_rest]

theorem State.deviceReset_cause : (s.deviceReset c).aon.cause = topCause (s.causes c) := by
  by_cases h : c = .cold ∨ c = .borLp
  · rw [State.deviceReset_aon_cold h, State.cutWork_causes]
    exact (State.coldAon_leaves _ _).1
  · obtain ⟨h1, h2⟩ := not_or.mp h
    rw [State.deviceReset_aon_warm h1 h2, State.cutWork_causes]
    exact (State.warmAon_leaves _ _).1

variable {c}

theorem State.deviceReset_cold (h : c = .cold ∨ c = .borLp) : let a := (s.deviceReset c).aon
    a.history = s.causes c ∧ a.rstCount = 1 ∧ (∀ i : Fin 512, a.ring[i] = 0) ∧ a.fbHead = 0 ∧
      a.padHeld = true ∧ a.padZ = true ∧ a.vsysWarn = 2 := by
  rw [State.deviceReset_aon_cold h, State.cutWork_causes]
  exact (State.coldAon_leaves _ _).2

theorem State.deviceReset_warm (h1 : c ≠ .cold) (h2 : c ≠ .borLp) : let a := (s.deviceReset c).aon
    a.history = s.aon.history ||| s.causes c ∧ a.rstCount = s.aon.rstCount + 1 ∧ a.ring = s.aon.ring ∧
      a.fbHead = s.aon.fbHead ∧ a.bootSel = s.aon.bootSel ∧ a.linkId = s.aon.linkId ∧ a.mgtAddr = s.aon.mgtAddr ∧
      a.flushing = s.aon.flushing ∧ a.vsysWarn = s.aon.vsysWarn ∧ a.padHeld = true ∧ a.faultN = (s.aon.faultN && s.aon.bootBad) ∧
      (s.aon.padHeld = false → a.padZ = false ∧ a.padFault = s.aon.faultN ∧ a.padWake = s.aon.wakeOut) ∧
      (s.aon.padHeld = true → a.padZ = s.aon.padZ ∧ a.padFault = s.aon.padFault ∧ a.padWake = s.aon.padWake ∧
        a.padGpio = s.aon.padGpio ∧ a.padRx = s.aon.padRx) := by
  obtain ⟨-, hhist, hcount, hring, hhead, hboot, hlink, hmgt, hflush, hwarn, hheld, hfault⟩ := s.cutWork.warmAon_leaves (s.causes c)
  obtain ⟨hfree, hkeep⟩ := s.cutWork.warmAon_pads (s.causes c)
  rw [s.cutWork_aon] at hhist hcount hring hhead hboot hlink hmgt hflush hwarn hfault hfree hkeep
  rw [State.deviceReset_aon_warm h1 h2, State.cutWork_causes]
  exact ⟨hhist, hcount, hring, hhead, hboot, hlink, hmgt, hflush, hwarn, hheld, hfault, hfree, hkeep⟩

theorem State.deviceReset_pcie (c : ResetCause) : (s.deviceReset c).main.pcie = s.main.pcie.afterReset c := by
  obtain ⟨-, -, -, -, hpcie, -⟩ := s.deviceReset_leaves c
  rw [hpcie, State.cutWork_rest]

theorem Pcie.afterReset_of_ne_flr (x : Pcie) (h : c ≠ .flr) : x.afterReset c = {} := by
  cases c with
  | flr => exact absurd rfl h
  | cold | borLp | borVsys | dormantWake | perst => rfl

/-- A reset keeps the flash where no write is in flight. -/
theorem State.deviceReset_nand (c : ResetCause) (h : ∀ u, s.sparesCells u) : (s.deviceReset c).nand = s.nand := by
  obtain ⟨-, -, -, hnand, -⟩ := s.deviceReset_leaves c
  rw [hnand, State.cutWork_nand_of_spares h]

theorem State.deviceReset_slots (c : ResetCause) : (s.deviceReset c).slots = s.slots := by
  obtain ⟨hslots, -⟩ := s.deviceReset_leaves c
  rw [hslots, State.cutWork_rest]

theorem State.deviceReset_memories (c : ResetCause) :
    (s.deviceReset c).main.shm.mem.known = [] ∧ ∀ n, ((s.deviceReset c).station n).mem.known = [] := by
  obtain ⟨-, -, -, -, -, hshm, hst⟩ := s.deviceReset_leaves c
  exact ⟨hshm, hst⟩

end

/-! ### The commands -/

section
variable {s : State}

theorem exec_borLp_of_dormant (h : s.phase = .dormant) : exec .borLp s = .next { s.deviceReset .borLp with phase := .strapWait } :=
  congrArg Host.Outcome.next (State.when_of_true _ (beq_iff_eq.mpr h))

theorem exec_borVsys_of (h1 : s.phase ≠ .borHeld) (h2 : s.phase ≠ .strapWait) : exec .borVsys s = .next { s.deviceReset .borVsys with
    phase := .borHeld, aon := { (s.deviceReset .borVsys).aon with pwrEn := false, wakeOut := false, supplyTries := 0 } } :=
  congrArg Host.Outcome.next (State.when_of_true _ (by rw [bne_iff_ne.mpr h1, bne_iff_ne.mpr h2]; rfl))

theorem Phase.restarts_of {p : Phase} (h : p ∈ [Phase.bootPcie, .bootFw, .bootFailed, .serving, .pllNever, .pllLost]) :
    p.restarts = true := by
  revert h
  cases p <;> decide

theorem Phase.held_of {p : Phase} (h : p ∈ [Phase.strapWait, .borHeld, .supplyWait, .pllWait, .dftHeld]) :
    p.restarts = false ∧ p.held = true := by
  revert h
  cases p <;> decide

theorem exec_dftEn_leaves (h : s.phase ∈ [Phase.bootPcie, .bootFw, .bootFailed, .serving, .inReset]) :
    ∃ u, exec .dftEn s = .next u ∧ u.phase = .dftHeld ∧ u.dftHigh = true ∧ u.main.time = 0 ∧ u.main.glb.ready = false ∧
      (∀ q, u.queue q = {}) ∧ u.aon.ring = s.aon.ring ∧ u.aon.cause = s.aon.cause := by
  obtain ⟨hphase, hdft, htime, hready, hqueue, hring, hcause⟩ :=
    State.dftHold_leaves ({ s with dftHigh := true } : State).cutWork ({ s with dftHigh := true } : State).cutWork
  rw [State.cutWork_aon] at hring hcause
  refine ⟨_, exec_dftEn_of_out h, hphase, hdft.trans ?_, htime, hready, hqueue, hring, hcause⟩
  rw [State.cutWork_rest]

end

/-- Settles O38, by what a device reset leaves of each part and by the condition of each command. -/
theorem resetCommands : Obligations.ResetCommands :=
  ⟨fun c s => ⟨s.deviceReset_cause c, s.deviceReset_cold, s.deviceReset_warm, fun h => h ▸ s.deviceReset_pcie .flr,
      fun h => (s.deviceReset_pcie c).trans (Pcie.afterReset_of_ne_flr _ h), s.deviceReset_slots c, s.deviceReset_otp c,
      s.deviceReset_array c, s.deviceReset_nand c, (s.deviceReset_memories c).1, (s.deviceReset_memories c).2⟩,
    fun s b => ⟨rfl,
      fun h => ⟨exec_borLp_of_dormant h, exec_perst_other (by rw [h]; rfl) (by rw [h]; rfl)⟩,
      exec_borVsys_of,
      fun h hp => exec_perst_restarts h (Phase.restarts_of hp),
      fun h hp => exec_perst_held h (Phase.held_of hp).1 (Phase.held_of hp).2,
      fun hr hw => by
        obtain ⟨hdone, hwait⟩ := s.flrAborted.flrCheck_of b
        rw [exec_flr_of_running hr hw]
        exact ⟨fun h => congrArg _ (hdone h), fun h => congrArg _ (hwait h)⟩,
      exec_flrNandWait_waiting, exec_dftEn_leaves⟩⟩

end Sys2Proof.Machine

/-!
## The wake sequence and the root PLL (chapters 2 and 14)
-/

namespace Sys2Proof.Machine

/-! ### What follows a reset of a main domain that is powered and clocked (R369, R381) -/

theorem State.startMain_dft {s : State} (h : s.dftHigh = true) (b : BootInputs) : s.startMain b = { s with phase := .dftHeld } := by
  rw [State.startMain, if_pos h]

theorem State.startMain_perst {s : State} (hd : s.dftHigh = false) (hp : s.perstLow = true) (b : BootInputs) :
    s.startMain b = { s with phase := .inReset } := by
  rw [State.startMain, if_neg (Bool.eq_false_iff.mp hd), if_pos hp]

theorem State.startMain_boot {s : State} (hd : s.dftHigh = false) (hp : s.perstLow = false) (b : BootInputs) :
    s.startMain b = s.startBoot b := by
  rw [State.startMain, if_neg (Bool.eq_false_iff.mp hd), if_neg (Bool.eq_false_iff.mp hp)]

/-! ### The rails and the PLL (R300, R301) -/

/-- The state with its rails good. -/
def State.railsUp (s : State) : State := s.modAon fun a => { a with pwrEn := true, wakeOut := true, supplyTries := 0 }

/-- The state after a check of the rails that failed. -/
def State.railsDown (s : State) : State :=
  s.modAon fun a => { a with pwrEn := false, wakeOut := true, supplyTries := s.aon.supplyTries + 1 }

/-- The third failed check is the last (R301): what is written and asserted then. -/
def State.supplyFailed (s : State) (b : BootInputs) : State :=
  (((({ s with phase := .supplyDead } : State).modAon fun a => { a with supplyTries := 0, bootBad := true }).assertFault).fbEntry 0 0x004
    (flag 64 0 (!b.vcoreOk) ||| flag 64 1 (!b.vsramOk))).flush 0x004

theorem State.wakeSequence_good {b : BootInputs} (s : State) (h : (b.vcoreOk && b.vsramOk) = true) :
    s.wakeSequence b = if b.pllOk then s.railsUp.startMain b else { s.railsUp with phase := .pllWait } := by
  rw [State.wakeSequence, if_pos h]
  rfl

theorem State.wakeSequence_bad {b : BootInputs} (s : State) (h : (b.vcoreOk && b.vsramOk) = false) :
    s.wakeSequence b = if s.aon.supplyTries + 1 < 3 then { s.railsDown with phase := .supplyWait } else s.railsDown.supplyFailed b := by
  rw [State.wakeSequence, if_neg (Bool.eq_false_iff.mp h)]
  rfl

theorem State.supplyFailed_leaves (s : State) (b : BootInputs) : (s.supplyFailed b).phase = .supplyDead ∧
    (s.supplyFailed b).aon.faultN = true ∧ (s.supplyFailed b).aon.pwrEn = s.aon.pwrEn ∧ (s.supplyFailed b).main = s.main := by
  unfold State.supplyFailed
  refine ⟨?_, ?_, ?_, ?_⟩
  · rw [State.flush_phase]
    rfl
  · rw [State.flush_aon]
    rfl
  · rw [State.flush_aon]
    rfl
  · rw [State.flush_main]
    rfl

theorem State.wakeSequence_bad_leaves {b : BootInputs} {s : State} (h : (b.vcoreOk && b.vsramOk) = false) :
    (s.aon.supplyTries < 2 → (s.wakeSequence b).phase = .supplyWait ∧ (s.wakeSequence b).aon.supplyTries = s.aon.supplyTries + 1) ∧
    (s.aon.supplyTries = 2 → (s.wakeSequence b).phase = .supplyDead ∧ (s.wakeSequence b).aon.faultN = true) ∧
    (s.wakeSequence b).aon.pwrEn = false ∧ (s.wakeSequence b).main = s.main := by
  obtain ⟨hphase, hfault, hpwr, hmain⟩ := s.railsDown.supplyFailed_leaves b
  rw [s.wakeSequence_bad h]
  refine ⟨fun ht => ?_, fun ht => ?_, ?_, ?_⟩
  · rw [if_pos (by omega)]
    exact ⟨rfl, rfl⟩
  · rw [if_neg (by omega)]
    exact ⟨hphase, hfault⟩
  · split
    · rfl
    · exact hpwr
  · split
    · rfl
    · exact hmain

/-! ### The commands -/

section
variable {s : State} {b : BootInputs}

theorem linkId_of_straps (straps : BitVec 7) : (Fin.ofNat 8 (field straps 4 2) : Fin 8) = (straps.extractLsb' 2 3).toFin := by
  refine Fin.ext ?_
  change field straps 4 2 % 8 = (straps.extractLsb' 2 3).toNat
  rw [field_eq, BitVec.extractLsb'_toNat, Nat.shiftRight_eq_div_pow]
  omega

theorem exec_strapLatch_of (h : s.phase = .strapWait) (straps : BitVec 7) : exec (.strapLatch straps b) s = .next ((s.modAon fun a =>
    { a with bootSel := straps.extractLsb' 0 2, linkId := (straps.extractLsb' 2 3).toFin, mgtAddr := straps.extractLsb' 5 2 }).wakeSequence b) := by
  rw [← linkId_of_straps]
  exact congrArg Host.Outcome.next (State.when_of_true _ (beq_iff_eq.mpr h))

theorem exec_dormantWake_of (h : s.phase = .dormant) (bus : BitVec 7) : exec (.dormantWake { bus := bus, boot := b }) s =
    .next (if bus = 0x48 + s.aon.mgtAddr.setWidth 7 then (s.deviceReset .dormantWake).wakeSequence b else s) := by
  refine congrArg Host.Outcome.next ?_
  change (s.when (s.phase == .dormant && bus == s.aon.mgtBus) _) = _
  rw [h, State.when]
  refine if_congr ?_ rfl rfl
  rw [beq_self_eq_true, Bool.true_and, beq_iff_eq, Aon.mgtBus]

theorem exec_perstNRelease_of (h : s.phase = .inReset) (hd : s.dftHigh = false) : exec (.perstNRelease b) s =
    .next (if b.pllOk then ({ s with perstLow := false } : State).startBoot b else { s with perstLow := false, phase := .pllWait }) := by
  change execPerstNRelease b s = _
  rw [execPerstNRelease]
  dsimp only
  rw [if_pos (beq_iff_eq.mpr h), State.startMain_boot (s := { s with perstLow := false }) hd rfl]

theorem exec_dftEnLow_of (h : s.phase = .dftHeld) : exec (.dftEnLow b) s =
    .next (if s.perstLow then { s with dftHigh := false, phase := .inReset } else ({ s with dftHigh := false } : State).startBoot b) := by
  change execDftEnLow b s = _
  rw [execDftEnLow, h]
  rfl

theorem exec_pllUnlock_of (h : s.running = true ∨ s.phase = .inReset ∨ s.phase = .dftHeld) : exec .pllUnlock s =
    .next (((({ s with phase := .pllLost } : State).setLink .down).assertFault.fbEntry 0 0x002 1).flush 0x002) := by
  refine congrArg Host.Outcome.next (State.when_of_true _ ?_)
  rcases h with h | h | h <;> rw [h] <;> simp

end

/-- Settles O39, by the outcome of the rail check and of the PLL, and by the phase in which each command acts. -/
theorem startSequence : Obligations.StartSequence := by
  intro s b straps up
  refine ⟨fun hv hr hp => ?_, fun hv hr hp => ?_, State.wakeSequence_bad_leaves, fun h => exec_strapLatch_of h straps, fun h => ?_,
    fun h => ?_, fun bus h => exec_dormantWake_of h bus, exec_perstNRelease_of, exec_dftEnLow_of, exec_pllUnlock_of, fun h => ?_⟩
  · rw [s.wakeSequence_good (by rw [hv, hr]; rfl), if_pos hp]
    exact ⟨fun hd => State.startMain_dft (s := s.railsUp) hd b, fun hd hl => State.startMain_perst (s := s.railsUp) hd hl b,
      fun hd hl => State.startMain_boot (s := s.railsUp) hd hl b⟩
  · rw [s.wakeSequence_good (by rw [hv, hr]; rfl), if_neg (Bool.eq_false_iff.mp hp)]
    rfl
  · exact congrArg Host.Outcome.next (State.when_of_true _ (beq_iff_eq.mpr h))
  · exact congrArg Host.Outcome.next (State.when_of_true _ (beq_iff_eq.mpr h))
  · exact congrArg Host.Outcome.next (State.when_of_true _ (beq_iff_eq.mpr h))

end Sys2Proof.Machine

/-!
## The boot ROM and the start of the firmware (chapters 2, 10 and 16)
-/

namespace Sys2Proof.Machine

/-! ### The bytes of a copy of the boot image (R38, R220) -/

theorem length_lfsrBytes (n : Nat) (x : BitVec 32) : (lfsrBytes n x).length = n := by
  induction n generalizing x with
  | zero => rfl
  | succ n ih => rw [lfsrBytes, List.length_cons, ih]

theorem length_keystream (r : BitVec 64) (u row n : Nat) : (keystream r u row n).length = n := by
  unfold keystream
  dsimp only
  split
  · exact length_lfsrBytes _ _
  · exact List.length_replicate

theorem State.length_codeword (s : State) (u row k profile n : Nat) : (s.codeword u row k profile n).length = n := by
  unfold State.codeword xorBytes State.flash Memory.readBytes
  rw [List.length_zipWith, List.length_map, List.length_map, List.length_range, List.length_drop, length_keystream]
  omega

theorem State.length_blockZero {s : State} {page k : Nat} {bs : List Byte} (h : s.blockZero page k = some bs) : bs.length = 4096 := by
  unfold State.blockZero at h
  dsimp only at h
  split at h
  · obtain rfl := Option.some.inj h
    exact List.length_replicate
  · split at h
    · obtain rfl := Option.some.inj h
      exact s.length_codeword _ _ _ _ _
    · exact absurd h (by simp)

theorem State.length_copyWord {s : State} {c : Nat} {r : CopyRead} {i : Nat} {bs : List Byte} (h : s.copyWord c r i = .ok bs) :
    bs.length = 4096 := by
  unfold State.copyWord at h
  dsimp only at h
  split at h
  · exact absurd h (by simp)
  split at h
  · exact absurd h (by simp)
  split at h
  next bs' hb =>
    obtain rfl := Except.ok.inj h
    exact State.length_blockZero hb
  · exact absurd h (by simp)

/-- Codewords that could all be read: the first one, and the others behind it. -/
theorem State.copyWords_ok {s : State} {c : Nat} {r : CopyRead} {n i : Nat} {bs : List Byte} (h : s.copyWords c r (n + 1) i = .ok bs) :
    ∃ first rest, s.copyWord c r i = .ok first ∧ s.copyWords c r n (i + 1) = .ok rest ∧ bs = first ++ rest := by
  rw [State.copyWords] at h
  split at h
  · exact absurd h (by simp)
  next first hfirst =>
    split at h
    · exact absurd h (by simp)
    next rest hrest => exact ⟨first, rest, hfirst, hrest, (Except.ok.inj h).symm⟩

theorem State.length_copyWords {s : State} {c : Nat} {r : CopyRead} : ∀ {n i : Nat} {bs : List Byte},
    s.copyWords c r n i = .ok bs → bs.length = 4096 * n
  | 0, _, _, h => by
    obtain rfl := Except.ok.inj h
    rfl
  | n + 1, i, bs, h => by
    obtain ⟨first, rest, hfirst, hrest, rfl⟩ := State.copyWords_ok h
    rw [List.length_append, State.length_copyWord hfirst, State.length_copyWords hrest]
    omega

theorem take_drop_of_take {a b : List Byte} (h : a.take 128 = b.take 128) {lo n : Nat} (hn : lo + n ≤ 128) :
    (a.drop lo).take n = (b.drop lo).take n := by
  have cut : ∀ l : List Byte, (l.drop lo).take n = ((l.take 128).drop lo).take n := fun l => by
    rw [List.drop_take, List.take_take, Nat.min_eq_left (by omega)]
  rw [cut a, cut b, h]

/-- The header check reads the first 128 bytes. -/
theorem imageHeaderOk_congr {a b : List Byte} (h : a.take 128 = b.take 128) (len : Nat) : imageHeaderOk len a = imageHeaderOk len b := by
  have h0 : a.take 4 = b.take 4 := take_drop_of_take h (lo := 0) (n := 4) (by omega)
  unfold imageHeaderOk leAt
  dsimp only
  rw [h0, take_drop_of_take h (lo := 4) (n := 2) (by omega), take_drop_of_take h (lo := 6) (n := 2) (by omega),
    take_drop_of_take h (lo := 8) (n := 4) (by omega), take_drop_of_take h (lo := 88) (n := 40) (by omega)]

/-- An image that a copy gives has a valid header and signature for its length (R38, R344). -/
theorem State.copyImage_ok {s : State} {c : Nat} {r : CopyRead} {img : List Byte} (h : s.copyImage c r = .ok img) :
    imageHeaderOk img.length img = true ∧ s.imageSigned img.length img = true := by
  unfold State.copyImage at h
  dsimp only at h
  split at h
  · exact absurd h (by simp)
  next first hfirst =>
    split at h
    · exact absurd h (by simp)
    next hok =>
      generalize leAt first 8 4 = len at h hok
      simp only [Bool.or_eq_true, Bool.not_eq_true', not_or, Bool.not_eq_false, decide_eq_true_eq] at hok
      obtain ⟨⟨hlen, hheader⟩, -⟩ := hok
      split at h
      · exact absurd h (by simp)
      next bs hbs =>
        split at h
        next hsigned =>
          obtain rfl := Except.ok.inj h
          have hmin : 256 ≤ len := by
            rw [imageLenOk, Bool.and_eq_true, Bool.and_eq_true, decide_eq_true_eq] at hlen
            exact hlen.1.1
          have hbytes := State.length_copyWords hbs
          have htake : (bs.take len).length = len := by
            rw [List.length_take]
            omega
          obtain ⟨n, hn⟩ : ∃ n, (len + 4095) / 4096 = n + 1 := ⟨(len + 4095) / 4096 - 1, by omega⟩
          rw [hn] at hbs
          obtain ⟨first', rest, hfirst', -, rfl⟩ := State.copyWords_ok hbs
          obtain rfl : first = first' := Except.ok.inj (hfirst.symm.trans hfirst')
          have hfl := State.length_copyWord hfirst
          have hhead : ((first ++ rest).take len).take 128 = first.take 128 := by
            rw [List.take_take, Nat.min_eq_left (by omega), List.take_append_of_le_length (by omega)]
          rw [htake]
          exact ⟨(imageHeaderOk_congr hhead len).trans hheader, hsigned⟩
        · exact absurd h (by simp)

theorem firstImage_mem : ∀ {l : List (Except (BitVec 4) (List Byte))} {img : List Byte}, firstImage l = some img → .ok img ∈ l
  | .ok _ :: _, _, h => by
    obtain rfl := Option.some.inj h
    exact List.mem_cons_self
  | .error _ :: _, _, h => List.mem_cons_of_mem _ (firstImage_mem h)

theorem State.firstImage_ok {s : State} {b : BootInputs} {p : TargetParam} {img : List Byte}
    (h : firstImage (s.copyImages b p) = some img) : imageHeaderOk img.length img = true ∧ s.imageSigned img.length img = true := by
  obtain ⟨c, -, hc⟩ := List.mem_map.mp (firstImage_mem h)
  exact State.copyImage_ok (s := s.geometry p) hc

/-! ### Which image the ROM takes (R37, R38, R43) -/

/-- The state in which the ROM looks at straps, OTP and images: the link trains, RESET is in the field book. -/
def State.booted (s : State) : State :=
  ({ (if s.main.pcie.link = .down then s.setLink .training else s) with phase := .bootFw, aon := { s.aon with certReady := true } } : State).fbEntry
    1 0x001 (BitVec.ofNat 64 (s.aon.cause.toNat + 65536 * s.aon.history.toNat + 0x100000000 * s.aon.rstCount.toNat))

theorem State.booted_rest (s : State) : s.booted.aon.bootSel = s.aon.bootSel ∧ s.booted.otp = s.otp := by
  unfold State.booted
  split <;> exact ⟨rfl, rfl⟩

theorem State.startBoot_eq (s : State) (b : BootInputs) : s.startBoot b =
    if s.aon.bootSel = 3 then s.booted.bootFail 0 0x01
    else if s.otp.shmGroups = 0 then s.booted.bootFail 1 0x02
    else if s.otp.stationMap = 0 then s.booted.bootFail 1 0x03
    else if s.aon.bootSel = 1 then s.booted.bootFromPcie
    else s.booted.bootFromNand b := by
  have hlink : s.when (s.main.pcie.link == .down) (fun s => s.setLink .training) =
      if s.main.pcie.link = .down then s.setLink .training else s := if_congr beq_iff_eq rfl rfl
  obtain ⟨-, hotp⟩ := s.booted_rest
  rw [← hotp]
  unfold State.startBoot State.booted
  rw [hlink]

/-- The images of the copies, where there is a geometry. -/
def State.bootImages (s : State) (b : BootInputs) : List (Except (BitVec 4) (List Byte)) :=
  (b.param.map (s.copyImages b)).getD (List.replicate 4 (.error 5))

/-- The state with the outcomes of the copies in GLB_BOOT_LOG. -/
def State.copiesLogged (s : State) (b : BootInputs) : State :=
  s.modGlb fun g => { g with bootLog := BitVec.ofNat 20 (tryCopies 0 ((s.bootImages b).map copyOutcome)).1 }

theorem State.bootFromNand_some {s : State} {b : BootInputs} {img : List Byte} (h : firstImage (s.bootImages b) = some img) :
    s.bootFromNand b = (s.copiesLogged b).handOver img := by
  unfold State.bootFromNand
  dsimp only
  rw [show firstImage ((b.param.map (s.copyImages b)).getD (List.replicate 4 (.error 5))) = some img from h]
  rfl

theorem State.bootFromNand_none {s : State} {b : BootInputs} (h : firstImage (s.bootImages b) = none) :
    s.bootFromNand b = if s.aon.bootSel = 2 then (s.copiesLogged b).bootFromPcie
      else if b.param.isSome then (s.copiesLogged b).bootFail 3 0x05 else (s.copiesLogged b).bootFail 2 0x04 := by
  unfold State.bootFromNand
  dsimp only
  rw [show firstImage ((b.param.map (s.copyImages b)).getD (List.replicate 4 (.error 5))) = none from h]
  rfl

theorem State.handOver_leaves (s : State) (img : List Byte) : (s.handOver img).phase = .bootFw ∧
    (s.handOver img).main.glb.bootStage = 6 ∧
    (s.handOver img).main.idk.fwHash = word 256 (sha256 (img.take (img.length - 64))) ∧
    (s.handOver img).main.idk.fwVersion = word 64 ((img.drop 16).take 8) := by
  refine ⟨?_, ?_, ?_, ?_⟩ <;> rw [State.handOver] <;> rfl

/-! ### Terminal failures (R41) -/

theorem State.bootFail_main (s : State) (stage : BitVec 4) (err : BitVec 8) : (s.bootFail stage err).main =
    { s.main with glb := { s.main.glb with bootFailed := true, booting := false, bootStage := stage, bootErr := err } } := by
  unfold State.bootFail
  rw [State.flush_main]
  rfl

theorem State.bootFail_leaves (s : State) (stage : BitVec 4) (err : BitVec 8) : let u := s.bootFail stage err
    u.phase = .bootFailed ∧ u.aon.faultN = true ∧ u.aon.flushing.isSome = true ∧ u.aon.fbHead = s.aon.fbHead + 1 ∧
      u.aon.ring[s.aon.fbHead] = fbWord (s.time.setWidth 48) 1 0x010
        (BitVec.ofNat 64 (stage.toNat + 256 * err.toNat + 65536 * s.main.glb.bootLog.toNat)) := by
  unfold State.bootFail
  refine ⟨?_, ?_, State.flush_flushing _ _, ?_, ?_⟩
  · rw [State.flush_phase]
    rfl
  · rw [State.flush_aon]
    rfl
  · rw [State.flush_aon]
    rfl
  · rw [State.flush_aon]
    exact Vector.getElem_set_self _

/-! ### GLB_BOOT_GO (R39) -/

/-- An image over PCI Express that is not taken: its outcome is logged, and BOOT_ERR is 6. -/
def State.imageFailed (s : State) (o : Nat) : State :=
  s.modGlb fun g => { g with bootLog := (g.bootLog &&& 0x0FFFF) ||| BitVec.ofNat 20 (65536 * o), bootErr := 6 }

/-- The outcome of an image over PCI Express logged (R39). -/
def State.imageLogged (s : State) (o : Nat) : State :=
  s.modGlb fun g => { g with bootLog := (g.bootLog &&& 0x0FFFF) ||| BitVec.ofNat 20 (65536 * o) }

section
variable {s : State} {reply : HostReply} {bs : List Byte}

theorem exec_glbBootGo_ignored (h : s.phase ≠ .bootPcie) : exec (.glbBootGo reply) s = .next s :=
  congrArg Host.Outcome.next (if_neg (by rwa [beq_iff_eq]))

theorem exec_glbBootGo_data (h : s.phase = .bootPcie) : exec (.glbBootGo (.data bs)) s =
    .next (if s.imageOutcome s.main.glb.bootLen.toNat (.data bs) = 1
      then (s.imageLogged (s.imageOutcome s.main.glb.bootLen.toNat (.data bs)).toNat).handOver (padTo s.main.glb.bootLen.toNat bs)
      else s.imageFailed (s.imageOutcome s.main.glb.bootLen.toNat (.data bs)).toNat) :=
  congrArg Host.Outcome.next (if_pos (beq_iff_eq.mpr h))

theorem exec_glbBootGo_busError (h : s.phase = .bootPcie) : exec (.glbBootGo .busError) s =
    .next (s.imageFailed (s.imageOutcome s.main.glb.bootLen.toNat .busError).toNat) :=
  congrArg Host.Outcome.next (if_pos (beq_iff_eq.mpr h))

theorem exec_glbBootGo_failed (h : s.phase = .bootPcie) {o : BitVec 4} (ho : s.imageOutcome s.main.glb.bootLen.toNat reply = o)
    (hne : o ≠ 1) : exec (.glbBootGo reply) s = .next (s.imageFailed o.toNat) := by
  cases reply with
  | data bs => rw [exec_glbBootGo_data h, ho, if_neg hne]
  | busError => rw [exec_glbBootGo_busError h, ho]

theorem imageLenOk_iff (len : Nat) : imageLenOk len = true ↔ 256 ≤ len ∧ len ≤ 0x100000 ∧ len % 16 = 0 := by
  simp [imageLenOk, and_assoc]

theorem State.imageOutcome_length {len : Nat} (h : imageLenOk len = false) : s.imageOutcome len reply = 4 := by
  unfold State.imageOutcome
  rw [h]
  rfl

theorem State.imageOutcome_busError {len : Nat} (h : imageLenOk len = true) : s.imageOutcome len .busError = 6 := by
  rw [State.imageOutcome, h]
  rfl

theorem State.imageOutcome_data {len : Nat} (h : imageLenOk len = true) (hl : bs.length = len) : s.imageOutcome len (.data bs) =
    if imageHeaderOk len bs then if s.imageSigned len bs then 1 else 3 else 4 := by
  rw [State.imageOutcome, h, padTo_of_length hl, if_neg (by decide)]
  cases hh : imageHeaderOk len bs <;> simp [hh]

end

/-! ### Discovery (R198) -/

/-- The bits of a target's LUNs are set, and no other one is lost. -/
theorem foldl_lunBits (us : List (Fin 32)) (m : BitVec 32) (i : Nat) :
    (us.foldl (fun (m : BitVec 32) (u : Fin 32) => m ||| BitVec.twoPow 32 u.val) m).getLsbD i =
      (m.getLsbD i || us.any fun u => u.val == i) := by
  induction us generalizing m with
  | nil => rw [List.foldl_nil, List.any_nil, Bool.or_false]
  | cons u us ih =>
    rw [List.foldl_cons, ih, BitVec.getLsbD_or, BitVec.getLsbD_twoPow, List.any_cons, decide_eq_true u.isLt, Bool.true_and, Bool.or_assoc]
    rfl

/-- One CE_N discovered: its index, its channel and its target. -/
def State.discoverAt (first : Option TargetParam) (targets : Vector TargetReply 16) (s : State) (i : Fin 16) : State :=
  s.discoverOne first (i.val / 4) (i.val % 4) targets[i]

/-- What is found of a target that does not answer: it is absent, and an entry says so. -/
theorem State.discoverAt_absent {first : Option TargetParam} {targets : Vector TargetReply 16} {i : Fin 16}
    (h : targetParam targets[i] = none) (s : State) :
    (s.discoverAt first targets i).main = s.main ∧ (s.discoverAt first targets i).aon.fbHead = s.aon.fbHead + 1 := by
  unfold State.discoverAt State.discoverOne
  rw [h]
  exact ⟨rfl, rfl⟩

/-- A LUN that is present stays present. -/
theorem State.discoverAt_present {first : Option TargetParam} {targets : Vector TargetReply 16} (s : State) (i : Fin 16) {k : Nat}
    (h : s.main.nfc.present.getLsbD k = true) : (s.discoverAt first targets i).main.nfc.present.getLsbD k = true := by
  unfold State.discoverAt State.discoverOne
  dsimp only
  split
  · split
    · change (List.foldl _ s.main.nfc.present _).getLsbD k = true
      rw [foldl_lunBits, h, Bool.true_or]
    · exact h
  · exact h

/-- The first target that answers is present: the geometry is its own. -/
theorem State.discoverAt_first {targets : Vector TargetReply 16} {i : Fin 16} {p : TargetParam} (h : targetParam targets[i] = some p)
    (s : State) : (s.discoverAt (some p) targets i).main.nfc.present.getLsbD (i.val / 4 + 8 * (i.val % 4)) = true := by
  have hlt : i.val / 4 + 8 * (i.val % 4) < 32 := by omega
  have hsame : sameGeometry p p = true := by simp [sameGeometry]
  unfold State.discoverAt State.discoverOne
  rw [h]
  dsimp only
  rw [if_pos hsame]
  change (List.foldl _ s.main.nfc.present _).getLsbD _ = true
  rw [foldl_lunBits, targetLuns, List.any_cons]
  simp [Nat.mod_eq_of_lt hlt]

theorem foldl_discoverAt_absent {first : Option TargetParam} {targets : Vector TargetReply 16} (h : ∀ i : Fin 16, targetParam targets[i] = none) :
    ∀ (l : List (Fin 16)) (s : State), (l.foldl (State.discoverAt first targets) s).main = s.main ∧
      (l.foldl (State.discoverAt first targets) s).aon.fbHead = s.aon.fbHead + Fin.ofNat 512 l.length
  | [], s => ⟨rfl, (Fin.add_zero _).symm⟩
  | i :: l, s => by
    obtain ⟨hmain, hhead⟩ := State.discoverAt_absent (first := first) (h i) s
    obtain ⟨hm, hh⟩ := foldl_discoverAt_absent h l (s.discoverAt first targets i)
    refine ⟨hm.trans hmain, ?_⟩
    rw [List.foldl_cons, hh, hhead, List.length_cons]
    refine Fin.ext ?_
    change ((s.aon.fbHead.val + 1 % 512) % 512 + l.length % 512) % 512 = (s.aon.fbHead.val + (l.length + 1) % 512) % 512
    omega

theorem foldl_discoverAt_present {first : Option TargetParam} {targets : Vector TargetReply 16} {k : Nat} (l : List (Fin 16)) (s : State)
    (h : s.main.nfc.present.getLsbD k = true) : (l.foldl (State.discoverAt first targets) s).main.nfc.present.getLsbD k = true :=
  List.foldlRecOn l _ (motive := fun s : State => s.main.nfc.present.getLsbD k = true) h fun s h i _ => s.discoverAt_present i h

theorem foldl_discoverAt_first {targets : Vector TargetReply 16} {i : Fin 16} {p : TargetParam} (h : targetParam targets[i] = some p)
    (s : State) : ((List.finRange 16).foldl (State.discoverAt (some p) targets) s).main.nfc.present.getLsbD (i.val / 4 + 8 * (i.val % 4)) = true := by
  obtain ⟨before, after, hsplit⟩ := List.append_of_mem (List.mem_finRange i)
  rw [hsplit, List.foldl_append, List.foldl_cons]
  exact foldl_discoverAt_present after _ (State.discoverAt_first h _)

/-! ### The start of the firmware (R40, R221) -/

/-- The geometry of the first target that answers, where one does. -/
def State.discoverStart (s : State) (targets : Vector TargetReply 16) : State :=
  match (targets.toList.filterMap targetParam).head? with
  | some p => s.geometry p
  | none => s

theorem State.discover_eq (s : State) (targets : Vector TargetReply 16) : s.discover targets =
    ((List.finRange 16).foldl (State.discoverAt (targets.toList.filterMap targetParam).head? targets) (s.discoverStart targets)).modNfc
      fun n => { n with ready := true } := rfl

theorem State.firmwareStart_leaves (s : State) (found : Discovery) : let u := s.firmwareStart found
    u.phase = .serving ∧ u.main.glb.ready = true ∧ u.main.glb.booting = false ∧ u.main.glb.bootStage = 7 ∧
      u.main.nfc.ready = true ∧ u.main.nfc.rtChosen = !(u.main.nfc.rt0.any tableOk) ∧
      u.main.nfc.rtBad = (!(u.main.nfc.rt0.any tableOk) && !(u.main.nfc.rt1.any tableOk)) ∧
      u.main.nfc.present = (s.discover found.targets).main.nfc.present ∧ u.aon.fbHead = (s.discover found.targets).aon.fbHead + 1 := by
  have hready : (s.discover found.targets).main.nfc.ready = true := rfl
  unfold State.firmwareStart
  generalize s.discover found.targets = v at hready
  exact ⟨rfl, rfl, rfl, rfl, hready, rfl, rfl, rfl, rfl⟩

theorem filterMap_targetParam_absent {targets : Vector TargetReply 16} (h : ∀ i : Fin 16, targetParam targets[i] = none) :
    (targets.toList.filterMap targetParam).head? = none := by
  rw [List.head?_eq_none_iff, List.filterMap_eq_nil_iff]
  intro t ht
  obtain ⟨i, hi, rfl⟩ := Vector.mem_iff_getElem.mp (Vector.mem_toList_iff.mp ht)
  exact h ⟨i, hi⟩

theorem State.discover_absent {targets : Vector TargetReply 16} (h : ∀ i : Fin 16, targetParam targets[i] = none) (s : State) :
    (s.discover targets).main.nfc.present = s.main.nfc.present ∧ (s.discover targets).aon.fbHead = s.aon.fbHead + 16 := by
  have hstart : s.discoverStart targets = s := by rw [State.discoverStart, filterMap_targetParam_absent h]
  obtain ⟨hmain, hhead⟩ := foldl_discoverAt_absent (first := none) h (List.finRange 16) s
  rw [State.discover_eq, hstart, filterMap_targetParam_absent h]
  refine ⟨?_, hhead⟩
  rw [State.modNfc_main, hmain]

theorem filterMap_targetParam_first {targets : Vector TargetReply 16} {i : Fin 16} {p : TargetParam} (h : targetParam targets[i] = some p)
    (hb : ∀ j : Fin 16, j < i → targetParam targets[j] = none) : (targets.toList.filterMap targetParam).head? = some p := by
  have hlen : i.val < targets.toList.length := by rw [Vector.length_toList]; exact i.isLt
  rw [List.head?_filterMap, List.findSome?_eq_some_iff]
  refine ⟨targets.toList.take i.val, targets.toList[i.val], targets.toList.drop (i.val + 1), ?_, ?_, fun x hx => ?_⟩
  · rw [← List.drop_eq_getElem_cons hlen, List.take_append_drop]
  · rw [Vector.getElem_toList]
    exact h
  · obtain ⟨j, hj, rfl⟩ := List.mem_take_iff_getElem.mp hx
    rw [Vector.getElem_toList]
    exact hb ⟨j, by omega⟩ (Fin.mk_lt_of_lt_val (by omega))

theorem State.discover_first {targets : Vector TargetReply 16} {i : Fin 16} {p : TargetParam} (h : targetParam targets[i] = some p)
    (hb : ∀ j : Fin 16, j < i → targetParam targets[j] = none) (s : State) :
    (s.discover targets).main.nfc.present.getLsbD (i.val / 4 + 8 * (i.val % 4)) = true := by
  rw [State.discover_eq, filterMap_targetParam_first h hb]
  exact foldl_discoverAt_first h _

/-! ### The obligation -/

/-- With straps and OTP good, the ROM boots as BOOT_SEL says. -/
theorem State.startBoot_straps {s : State} {b : BootInputs} (hg : s.otp.shmGroups ≠ 0) (hm : s.otp.stationMap ≠ 0) :
    (s.aon.bootSel = 1 → s.startBoot b = s.booted.bootFromPcie) ∧
    (s.aon.bootSel = 0 ∨ s.aon.bootSel = 2 → s.startBoot b = s.booted.bootFromNand b) := by
  refine ⟨fun h => ?_, fun h => ?_⟩
  · rw [s.startBoot_eq, if_neg (by rw [h]; decide), if_neg hg, if_neg hm, if_pos h]
  · have h3 : s.aon.bootSel ≠ 3 := by rcases h with h | h <;> rw [h] <;> decide
    have h1 : s.aon.bootSel ≠ 1 := by rcases h with h | h <;> rw [h] <;> decide
    rw [s.startBoot_eq, if_neg h3, if_neg hg, if_neg hm, if_neg h1]

/-- A boot from NAND that finds an image. -/
theorem State.bootFromNand_image {s : State} {b : BootInputs} {p : TargetParam} {img : List Byte} (hp : b.param = some p)
    (h : firstImage (s.copyImages b p) = some img) : s.bootFromNand b = (s.copiesLogged b).handOver img :=
  State.bootFromNand_some (by rw [State.bootImages, hp]; exact h)

/-- A boot from NAND that finds none. -/
theorem State.bootFromNand_no_image {s : State} {b : BootInputs} (h : ∀ p, b.param = some p → firstImage (s.copyImages b p) = none) :
    (b.param = none → (s.bootFromNand b).main.glb.bootLog = 0x05555) ∧
    (s.aon.bootSel = 2 → (s.bootFromNand b).phase = .bootPcie) ∧
    (s.aon.bootSel = 0 → (s.bootFromNand b).phase = .bootFailed ∧
      (s.bootFromNand b).main.glb.bootErr = if b.param.isSome then 0x05 else 0x04) := by
  have hnone : firstImage (s.bootImages b) = none := by
    rw [State.bootImages]
    cases hp : b.param with
    | none => rfl
    | some p => exact h p hp
  rw [State.bootFromNand_none hnone]
  refine ⟨fun hp => ?_, fun hsel => ?_, fun hsel => ?_⟩
  · have hlog : (s.copiesLogged b).main.glb.bootLog = 0x05555 := by
      change BitVec.ofNat 20 (tryCopies 0 ((s.bootImages b).map copyOutcome)).1 = _
      rw [State.bootImages, hp]
      rfl
    rw [hp]
    split
    · exact hlog
    · rw [if_neg (by decide), State.bootFail_main]
      exact hlog
  · rw [if_pos hsel]
    rfl
  · rw [if_neg (by rw [hsel]; decide)]
    split
    · rw [State.bootFail_main]
      exact ⟨(State.bootFail_leaves _ _ _).1, rfl⟩
    · rw [State.bootFail_main]
      exact ⟨(State.bootFail_leaves _ _ _).1, rfl⟩

/-- Settles O40, by the order of the ROM's checks, the bytes of a copy, and what discovery finds. -/
theorem bootResults : Obligations.BootResults := by
  intro s b reply found linked booted
  obtain ⟨hsel, hotp⟩ := s.booted_rest
  refine ⟨fun h => ?_, fun h hg => ?_, fun h hg hm => ?_, fun hg hm => ?_, fun stage err => ?_, fun h => ?_, exec_glbBootGo_ignored, fun h => ?_⟩
  · rw [s.startBoot_eq, if_pos h]
    rfl
  · rw [s.startBoot_eq, if_neg h, if_pos hg]
    rfl
  · rw [s.startBoot_eq, if_neg h, if_neg hg, if_pos hm]
    rfl
  · obtain ⟨hpcie, hnand⟩ := State.startBoot_straps (b := b) hg hm
    refine ⟨hpcie, fun h => ?_⟩
    rw [hnand h]
    refine ⟨fun p img hp himg => ?_, fun hno => ?_⟩
    · have himg : firstImage (s.booted.copyImages b p) = some img := himg
      obtain ⟨hheader, hsigned⟩ := State.firstImage_ok himg
      rw [State.bootFromNand_image hp himg]
      refine ⟨hheader, ?_, _, rfl, State.handOver_leaves _ img⟩
      rw [State.imageSigned, ← hotp]
      exact hsigned
    · have hnone := State.bootFromNand_no_image (s := s.booted) hno
      rw [hsel] at hnone
      exact hnone
  · intro u
    obtain ⟨hphase, hfault, hflush, hhead, hring⟩ := s.bootFail_leaves stage err
    exact ⟨hphase, hfault, hflush, hhead, hring, s.bootFail_main stage err⟩
  · intro len failed
    refine ⟨fun hl => ?_, fun h1 h2 h3 => ?_⟩
    · have hlen : imageLenOk len = false := by
        rw [Bool.eq_false_iff, Ne, imageLenOk_iff]
        omega
      exact exec_glbBootGo_failed h (State.imageOutcome_length hlen) (by decide)
    · have hlen : imageLenOk len = true := (imageLenOk_iff len).mpr ⟨h1, h2, h3⟩
      refine ⟨exec_glbBootGo_failed h (State.imageOutcome_busError hlen) (by decide), fun bs hbs => ⟨fun hh => ?_, fun hh hsig => ?_, fun hh hsig => ?_⟩⟩
      · refine exec_glbBootGo_failed h (o := 4) ?_ (by decide)
        rw [State.imageOutcome_data hlen hbs, hh]
        rfl
      · refine exec_glbBootGo_failed h (o := 3) ?_ (by decide)
        rw [State.imageOutcome_data hlen hbs, hh, hsig]
        rfl
      · have ho : s.imageOutcome s.main.glb.bootLen.toNat (.data bs) = 1 := by
          rw [State.imageOutcome_data hlen hbs, hh, hsig]
          rfl
        obtain ⟨hphase, hstage, hhash, -⟩ := State.handOver_leaves (s.imageLogged 1) bs
        refine ⟨_, exec_glbBootGo_data h, ?_⟩
        rw [if_pos ho, padTo_of_length hbs, ho]
        exact ⟨hphase, hstage, hhash.trans (by rw [hbs])⟩
  · obtain ⟨hphase, hready, hbooting, hstage, hnfc, hchosen, hbad, hpresent, hhead⟩ := s.firmwareStart_leaves found
    refine ⟨congrArg Host.Outcome.next (State.when_of_true _ (beq_iff_eq.mpr h)), _,
      congrArg Host.Outcome.next (State.when_of_true _ (beq_iff_eq.mpr h)), hphase, hready, hbooting, hstage, hnfc, hchosen, hbad,
      fun habsent => ?_, fun i p hp hfirst => ?_⟩
    · obtain ⟨hsame, hcount⟩ := State.discover_absent habsent s
      refine ⟨hpresent.trans hsame, hhead.trans ?_⟩
      rw [hcount]
      refine Fin.ext ?_
      change ((s.aon.fbHead.val + 16) % 512 + 1) % 512 = (s.aon.fbHead.val + 17) % 512
      omega
    · rw [hpresent]
      exact State.discover_first hp hfirst s

end Sys2Proof.Machine

namespace Sys2Proof.Machine

/-! ## The groups and doublewords of a request (R6) -/

/-- A request that stays within one group of g bytes reaches into that group alone. -/
theorem groupsOf_of_within {g off n : Nat} (hn : 0 < n) (h : off % g + n ≤ g) : groupsOf g off n = [off / g * g] := by
  have hlast : (off + n + g - 1) / g = off / g + 1 := by
    have hoff : off = off / g * g + off % g := by rw [Nat.mul_comm, Nat.div_add_mod]
    refine Nat.div_eq_of_lt_le ?_ ?_
    · rw [Nat.add_mul]
      omega
    · rw [Nat.add_mul, Nat.add_mul]
      omega
  rw [groupsOf, hlast, Nat.add_sub_cancel_left]
  rfl

theorem toNat_ofNat24 {a : Nat} (h : a < 2 ^ 24) : (BitVec.ofNat 24 a).toNat = a := Nat.mod_eq_of_lt h

theorem reqByte_add (off : Nat) (lanes : List (Option Byte)) (i : Nat) : reqByte off lanes (off + i) = (lanes[i]?).join := by
  rw [reqByte, if_pos (Nat.le_add_right _ _), Nat.add_sub_cancel_left]

theorem reqByte_of_lt {off a : Nat} (lanes : List (Option Byte)) (h : a < off) : reqByte off lanes a = none := by
  rw [reqByte, if_neg (by omega)]

theorem reqByte_of_past {off a : Nat} {lanes : List (Option Byte)} (h : off + lanes.length ≤ a) : reqByte off lanes a = none := by
  rw [reqByte, if_pos (by omega), List.getElem?_eq_none (by omega)]
  rfl

/-- A doubleword with a byte enable clear is none. -/
theorem reqWord_of_none {off a i : Nat} {lanes : List (Option Byte)} (hi : i < 4) (h : reqByte off lanes (a + i) = none) :
    reqWord off lanes a = none := by
  rw [reqWord]
  interval_cases i
  · rw [show reqByte off lanes a = none from h]
  · rw [h]
    cases reqByte off lanes a <;> rfl
  · rw [h]
    cases reqByte off lanes a <;> cases reqByte off lanes (a + 1) <;> rfl
  · rw [h]
    cases reqByte off lanes a <;> cases reqByte off lanes (a + 1) <;> cases reqByte off lanes (a + 2) <;> rfl

theorem reqWord_of_lt {off a : Nat} (lanes : List (Option Byte)) (h : a < off) : reqWord off lanes a = none :=
  reqWord_of_none (i := 0) (by decide) (reqByte_of_lt lanes h)

theorem reqWord_of_past {off a : Nat} {lanes : List (Option Byte)} (h : off + lanes.length ≤ a) : reqWord off lanes a = none :=
  reqWord_of_none (i := 0) (by decide) (reqByte_of_past h)

/-- A doubleword whose four bytes are enabled. -/
theorem reqWord_of_some {off a : Nat} {lanes : List (Option Byte)} {b0 b1 b2 b3 : Byte} (h0 : reqByte off lanes a = some b0)
    (h1 : reqByte off lanes (a + 1) = some b1) (h2 : reqByte off lanes (a + 2) = some b2) (h3 : reqByte off lanes (a + 3) = some b3) :
    reqWord off lanes a = some (b3 ++ b2 ++ b1 ++ b0) := by
  rw [reqWord, h0, h1, h2, h3]

/-- The doubleword at the start of a request. -/
theorem reqWord_start (off : Nat) (b0 b1 b2 b3 : Byte) (rest : List (Option Byte)) :
    reqWord off (some b0 :: some b1 :: some b2 :: some b3 :: rest) off = some (b3 ++ b2 ++ b1 ++ b0) :=
  reqWord_of_some (reqByte_add off _ 0) (reqByte_add off _ 1) (reqByte_add off _ 2) (reqByte_add off _ 3)

/-- The doubleword behind the first one of a request. -/
theorem reqWord_second (off : Nat) (l0 l1 l2 l3 : Option Byte) (b0 b1 b2 b3 : Byte) (rest : List (Option Byte)) :
    reqWord off (l0 :: l1 :: l2 :: l3 :: some b0 :: some b1 :: some b2 :: some b3 :: rest) (off + 4) =
      some (b3 ++ b2 ++ b1 ++ b0) :=
  reqWord_of_some (reqByte_add off _ 4) (reqByte_add off _ 5) (reqByte_add off _ 6) (reqByte_add off _ 7)

/-- The doubleword at the start of a request of four lanes, where one of them is not enabled. -/
theorem reqWord_start_of_disabled {lanes : List (Option Byte)} (hlen : lanes.length = 4) (h : none ∈ lanes) (off : Nat) :
    reqWord off lanes off = none := by
  obtain ⟨i, hi, hnone⟩ := List.getElem_of_mem h
  refine reqWord_of_none (i := i) (by omega) ?_
  rw [reqByte_add, List.getElem?_eq_getElem hi, hnone]
  rfl

/-! ## A request within the two doublewords from a multiple of 8 (R6, R7) -/

section
variable {a : Nat} {lanes : List (Option Byte)} (s : State) (reply : HostReply)

/-- A host write of BAR0 that stays within one doubleword pair. -/
theorem exec_registerWrite_bar0 {n : Nat} (hlen : lanes.length = n) (ha : a < 2 ^ 24) (h0 : 0 < n) (h : a % 8 + n ≤ 8) :
    exec (.registerWrite { off := BitVec.ofNat 24 a, lanes := lanes } reply) s =
      .next (({ s with readUr := false } : State).writePair reply a lanes (a / 8 * 8)) := by
  change (.next (({ s with readUr := false } : State).barWrite reply (BitVec.ofNat 24 a).toNat lanes) :
    Host.Outcome State Fault Refusal) = _
  rw [toNat_ofNat24 ha, State.barWrite, hlen, groupsOf_of_within h0 h]
  rfl

/-- A pair of doublewords of which the request has none. -/
theorem State.writePair_none {b : Nat} (hlo : reqWord a lanes b = none) (hhi : reqWord a lanes (b + 4) = none) :
    s.writePair reply a lanes b = s := by
  simp only [State.writePair, hlo, hhi, State.writeOpt, ite_self]

/-- The lower doubleword alone. -/
theorem State.writePair_low {b : Nat} {v : BitVec 32} (hlo : reqWord a lanes b = some v) (hhi : reqWord a lanes (b + 4) = none) :
    s.writePair reply a lanes b = if s.isWide b then s.write64 b (.low v) else s.write32 reply b v := by
  simp only [State.writePair, hlo, hhi, State.writeOpt]

/-- The upper doubleword alone. -/
theorem State.writePair_high {b : Nat} {v : BitVec 32} (hlo : reqWord a lanes b = none) (hhi : reqWord a lanes (b + 4) = some v) :
    s.writePair reply a lanes b = if s.isWide b then s.write64 b (.high v) else s.write32 reply (b + 4) v := by
  simp only [State.writePair, hlo, hhi, State.writeOpt]

/-- Both doublewords of a 64-bit register. -/
theorem State.writePair_both {b : Nat} {v w : BitVec 32} (hlo : reqWord a lanes b = some v)
    (hhi : reqWord a lanes (b + 4) = some w) (hwide : s.isWide b = true) :
    s.writePair reply a lanes b = s.write64 b (.both (w ++ v)) := by
  simp only [State.writePair, hlo, hhi, hwide, if_true]

end

/-- A host write of one aligned doubleword of BAR0. -/
theorem exec_registerWrite_one {a : Nat} (b0 b1 b2 b3 : Byte) (reply : HostReply) (s : State) (h4 : a % 4 = 0) (ha : a < 2 ^ 24) :
    exec (.registerWrite { off := BitVec.ofNat 24 a, lanes := [some b0, some b1, some b2, some b3] } reply) s =
      .next (if ({ s with readUr := false } : State).isWide (a / 8 * 8) then
        ({ s with readUr := false } : State).write64 (a / 8 * 8)
          (if a % 8 = 0 then .low (b3 ++ b2 ++ b1 ++ b0) else .high (b3 ++ b2 ++ b1 ++ b0))
      else ({ s with readUr := false } : State).write32 reply a (b3 ++ b2 ++ b1 ++ b0)) := by
  rw [exec_registerWrite_bar0 (n := 4) s reply rfl ha (by decide) (by omega)]
  by_cases h8 : a % 8 = 0
  · have hb : a / 8 * 8 = a := by omega
    rw [hb, State.writePair_low _ _ (reqWord_start a b0 b1 b2 b3 []) (reqWord_of_past (Nat.le_refl (a + 4))), if_pos h8]
  · have hb : a / 8 * 8 + 4 = a := by omega
    rw [State.writePair_high _ _ (reqWord_of_lt _ (by omega)) (by rw [hb]; exact reqWord_start a b0 b1 b2 b3 []), hb, if_neg h8]

/-! ## Offsets without a register (R5) -/

theorem stnOf_eq_none_of_le {a : Nat} (h : 0x280000 ≤ a) : stnOf a = none := by
  rw [stnOf, dif_neg (by omega)]

section
variable {a : Nat} (ha : a / 0x10000 ∈ [0x04, 0x0E, 0x0F, 0x28, 0x3F, 0xFF])
include ha

theorem stnOf_of_bare : stnOf a = none := by
  simp only [List.mem_cons, List.not_mem_nil, or_false] at ha
  by_cases h : a < 0x100000
  · exact stnOf_eq_none_of_lt h
  · exact stnOf_eq_none_of_le (by omega)

/-- A 32-bit write in a block that takes none. -/
theorem State.write32_of_bare (s : State) (reply : HostReply) (v : BitVec 32) : s.write32 reply a v = s := by
  simp only [State.write32, stnOf_of_bare ha]
  simp only [List.mem_cons, List.not_mem_nil, or_false] at ha
  rcases ha with ha | ha | ha | ha | ha | ha <;> rw [ha] <;> exact ite_self _

/-- A 64-bit write in a block that takes none. -/
theorem State.write64_of_bare (s : State) (w : W64) : s.write64 a w = s := by
  simp only [State.write64, stnOf_of_bare ha]
  simp only [List.mem_cons, List.not_mem_nil, or_false] at ha
  rcases ha with ha | ha | ha | ha | ha | ha <;> rw [ha] <;> exact ite_self _

end

/-! ## BAR4 and the configuration space (R47, R48, R53) -/

/-- A host write of one aligned doubleword of BAR4. -/
theorem exec_registerWrite_bar4 {a : Nat} (lanes : List (Option Byte)) (hlen : lanes.length = 4) (h4 : a % 4 = 0)
    (ha : a < 0x10000) (reply : HostReply) (s : State) :
    exec (.registerWrite { window := .bar4, off := BitVec.ofNat 24 a, lanes := lanes } reply) s =
      .next (State.doorbellPut a lanes ({ s with readUr := false } : State) a) := by
  change (.next (({ s with readUr := false } : State).doorbellPageWrite (BitVec.ofNat 24 a).toNat lanes) :
    Host.Outcome State Fault Refusal) = _
  rw [toNat_ofNat24 (by omega), State.doorbellPageWrite, hlen, groupsOf_of_within (by decide) (by omega),
    show a / 4 * 4 = a by omega, List.filter_cons_of_pos (by simpa using ha)]
  rfl

/-- A doubleword of BAR4 with its bytes enabled. -/
theorem State.doorbellPut_word {a : Nat} {lanes : List (Option Byte)} {v : BitVec 32} (h : reqWord a lanes a = some v) (s : State) :
    State.doorbellPut a lanes s a = if a % 0x1000 = 0 then s.act (execSqTail (Fin.ofNat 16 (a / 0x1000)) v)
      else if a % 0x1000 = 4 then s.act (execCqHead (Fin.ofNat 16 (a / 0x1000)) v)
      else s.doorbell fun s => s.badDoorbell (Fin.ofNat 16 (a / 0x1000)) := by
  simp only [State.doorbellPut, h]

theorem ofNat_page (q : Fin 16) {k : Nat} (hk : k < 0x1000) : Fin.ofNat 16 ((0x1000 * q.val + k) / 0x1000) = q := by
  refine Fin.ext ?_
  change (0x1000 * q.val + k) / 0x1000 % 16 = q.val
  omega

/-- A queue's page of BAR4 written: SQ_TAIL, CQ_HEAD, and the rest of the page. -/
theorem exec_registerWrite_page (q : Fin 16) (b0 b1 b2 b3 : Byte) (reply : HostReply) (s : State) {a : Nat} (h4 : a % 4 = 0)
    (ha : a < 0x1000) :
    exec (.registerWrite
        { window := .bar4, off := BitVec.ofNat 24 (0x1000 * q.val + a), lanes := [some b0, some b1, some b2, some b3] } reply) s =
      if a = 0 then exec (.sqTail q (b3 ++ b2 ++ b1 ++ b0)) { s with readUr := false }
      else if a = 4 then exec (.cqHead q (b3 ++ b2 ++ b1 ++ b0)) { s with readUr := false }
      else .next (({ s with readUr := false } : State).doorbell fun s => s.badDoorbell q) := by
  have hmod : (0x1000 * q.val + a) % 0x1000 = a := by omega
  rw [exec_registerWrite_bar4 _ rfl (by omega) (by omega), State.doorbellPut_word (reqWord_start _ b0 b1 b2 b3 []), hmod,
    ofNat_page q ha]
  split
  · rfl
  · split <;> rfl

/-- A doubleword written to the power state. -/
theorem exec_registerWrite_powerState {s : State} (hrun : s.running = true) (b : Byte) (reply : HostReply) :
    exec (.registerWrite { window := .config .powerState, off := 0, lanes := [some b, some 0, some 0, some 0] } reply) s =
      .next (({ s with readUr := false } : State).writePowerState ((0 : Byte) ++ (0 : Byte) ++ (0 : Byte) ++ b)) := by
  change (.next (({ s with readUr := false } : State).configWrite .powerState 0 [some b, some 0, some 0, some 0]) :
    Host.Outcome State Fault Refusal) = _
  rw [State.configWrite, show ({ s with readUr := false } : State).running = true from hrun, Bool.not_true,
    if_neg Bool.false_ne_true, show [some b, some (0 : Byte), some 0, some 0].length = 4 from rfl,
    show groupsOf 4 0 4 = [0] by decide]
  rfl

/-! ## What reads back from registers of type RW (R8) -/

theorem State.write32_of_block {s : State} (hs : s.serving = true) (reply : HostReply) {a : Nat} (ha : a < 0x100000)
    (v : BitVec 32) : s.write32 reply a v = s.blockWrite reply (a / 0x10000) (a % 0x10000) v := by
  have hstn := stnOf_eq_none_of_lt ha
  have htakes := State.takesWrite_of_serving hs a
  rw [State.write32, htakes, hstn]
  generalize a / 0x10000 = block
  rfl

/-- While READY is 1, a block that answers shows its registers. -/
theorem State.reg_of_serving {s : State} (hs : s.serving = true) {a : Nat} {b : Bool} (h : s.answers a = (s.serving || b)) :
    s.reg a = s.bar0 a := by
  rw [State.reg, h, hs, Bool.true_or, if_pos rfl]

/-- The word of a 64-bit register as it reads. -/
theorem State.liveWord_of_wide {s : State} {a : Nat} {x : BitVec 64} (h : s.wide (a / 8 * 8) = some x) :
    s.liveWord a = x.extractLsb' (32 * (a % 8 / 4)) 32 := by
  delta State.liveWord
  rw [h]

/-- A 32-bit register's word as it reads. -/
theorem State.liveWord_of_r32 {s : State} {a : Nat} {v : BitVec 32} (hwide : s.wide (a / 8 * 8) = none) (h : s.reg a = .r32 v) :
    s.liveWord a = v := by
  delta State.liveWord
  rw [hwide, h]

theorem State.wide_of_r32 {s : State} {a : Nat} {v : BitVec 32} (h : s.reg a = .r32 v) : s.wide a = none := by
  delta State.wide
  rw [h, ite_self]

theorem State.wide_of_r64 {s : State} {a : Nat} {x : BitVec 64} (h8 : a % 8 = 0) (h : s.reg a = .r64 x) : s.wide a = some x := by
  delta State.wide
  rw [if_pos h8, h]

/-- While READY is 1, a 32-bit register that shares its 8 bytes with no 64-bit one reads as its block shows it. -/
theorem State.liveWord_of_serving {s : State} (hs : s.serving = true) {a : Nat} {b c : Bool} {v w : BitVec 32}
    (ha : s.answers a = (s.serving || b)) (hpair : s.answers (a / 8 * 8) = (s.serving || c)) (hw : s.bar0 (a / 8 * 8) = .r32 w)
    (hv : s.bar0 a = .r32 v) : s.liveWord a = v :=
  State.liveWord_of_r32 (State.wide_of_r32 ((State.reg_of_serving hs hpair).trans hw)) ((State.reg_of_serving hs ha).trans hv)

theorem idleCount_eq (w : BitVec 32) : BitVec.ofNat 32 (fld w 0 16 : BitVec 16).toNat = (w.extractLsb' 0 16).setWidth 32 := by
  rw [BitVec.ofNat_toNat]
  rfl

section
variable {s : State} (hs : s.serving = true) (reply : HostReply) (w : BitVec 32)
include hs

/-- The idle and drain counts of PWR_ read back. -/
theorem State.liveWord_write32_pwr :
    ∀ r ∈ [0x030004, 0x030008, 0x03000C, 0x030014], (s.write32 reply r w).liveWord r = (w.extractLsb' 0 16).setWidth 32 := by
  intro r hr
  simp only [List.mem_cons, List.not_mem_nil, or_false] at hr
  obtain rfl | rfl | rfl | rfl := hr <;> rw [State.write32_of_block hs reply (by decide), ← idleCount_eq]
  · exact State.liveWord_of_serving (s := s.modPwr fun p => { p with idleTrim := fld w 0 16 }) hs rfl rfl rfl rfl
  · exact State.liveWord_of_serving (s := s.modPwr fun p => { p with idleHold := fld w 0 16 }) hs rfl rfl rfl rfl
  · exact State.liveWord_of_serving (s := s.modPwr fun p => { p with idleDormant := fld w 0 16 }) hs rfl rfl rfl rfl
  · exact State.liveWord_of_serving (s := s.modPwr fun p => { p with drainWait := fld w 0 16 }) hs rfl rfl rfl rfl

/-- GLB_BOOT_LEN reads back. -/
theorem State.liveWord_write32_bootLen : (s.write32 reply 0x040 w).liveWord 0x040 = w := by
  rw [State.write32_of_block hs reply (by decide)]
  exact State.liveWord_of_serving (s := s.modGlb fun g => { g with bootLen := w }) hs rfl rfl rfl rfl

/-- The period of a tick generator reads as its active value, which a write leaves (R12). -/
theorem State.liveWord_write32_period : (s.write32 reply 0x0D0100 w).liveWord 0x0D0100 = s.liveWord 0x0D0100 := by
  rw [State.write32_of_block hs reply (by decide),
    State.liveWord_of_serving (v := (s.main.gens[(0 : Fin 4)]).period.active) hs rfl rfl rfl rfl]
  refine State.liveWord_of_serving (s := s.modGen 0 fun x => { x with period := x.period.stage fun _ => if w.toNat < 16 then 16 else w })
    hs rfl rfl rfl ?_
  change RegVal.r32 ((upd s.main.gens 0 _)[(0 : Fin 4)]).period.active = _
  rw [upd_get_same]
  rfl

end

/-- The low word of a chain's head keeps its bits. -/
theorem head_low (hi lo : BitVec 32) : ((hi ++ lo : BitVec 64) &&& 0x000000FFFFFFFFFF).extractLsb' 0 32 = lo := by
  refine BitVec.eq_of_getLsbD_eq fun i hi' => ?_
  have hmask : (0x000000FFFFFFFFFF : BitVec 64).getLsbD i = true := by
    interval_cases i <;> rfl
  rw [BitVec.getLsbD_extractLsb', Nat.zero_add, BitVec.getLsbD_and, hmask, BitVec.getLsbD_append]
  simp [hi']

/-- TRV_CHn_HEAD of channel 0 reads back its low word. -/
theorem State.liveWord_write64_head {s : State} (hs : s.serving = true) (hi lo : BitVec 32) :
    (s.write64 0x050018 (.both (hi ++ lo))).liveWord 0x050018 = lo := by
  have hstn : stnOf 0x050018 = none := stnOf_eq_none_of_lt (by decide)
  have hput : s.write64 0x050018 (.both (hi ++ lo)) =
      s.modChan 0 fun x => { x with head := (hi ++ lo : BitVec 64) &&& 0x000000FFFFFFFFFF } := by
    rw [State.write64, State.takesWrite_of_serving hs, hstn]
    rfl
  have hreg : (s.write64 0x050018 (.both (hi ++ lo))).reg 0x050018 = .r64 ((hi ++ lo : BitVec 64) &&& 0x000000FFFFFFFFFF) := by
    rw [hput]
    refine (State.reg_of_serving (s := s.modChan 0 _) hs (b := s.running && false) rfl).trans ?_
    change RegVal.r64 ((upd s.main.chans 0 _)[(0 : Fin 16)]).head = _
    rw [upd_get_same]
  rw [State.liveWord_of_wide (State.wide_of_r64 (by decide) hreg)]
  exact head_low hi lo

/-! ## The settled statement -/

/-- Settles O36, by the one pair of doublewords that an aligned request touches. -/
theorem registerWrites : Obligations.RegisterWrites := by
  intro a b0 b1 b2 b3 c0 c1 c2 c3 reply s h4 hlt off lo one v
  have ha : a < 2 ^ 24 := by omega
  refine ⟨fun hw => ?_, fun hw => ?_, fun h8 hw => ?_, fun lanes hlen hnone => ?_, fun h8 hbare => ?_, fun q => ⟨?_, ?_, ?_⟩,
    fun hrun => ⟨?_, ?_⟩, rfl, fun hs w => ⟨?_, ?_, ?_, ?_⟩, fun hs m x => ?_, fun hrun hidle hbusy x => ?_,
    fun hrun k adr data => ⟨?_, ?_, ?_⟩⟩
  · rw [exec_registerWrite_one b0 b1 b2 b3 reply s h4 ha, if_neg (by rw [hw]; decide)]
  · rw [exec_registerWrite_one b0 b1 b2 b3 reply s h4 ha, if_pos hw]
  · have hb : a / 8 * 8 = a := by omega
    rw [exec_registerWrite_bar0 (n := 8) s reply rfl ha (by decide) (by omega), hb]
    exact congrArg Host.Outcome.next
      (State.writePair_both v reply (reqWord_start a b0 b1 b2 b3 _) (reqWord_second a _ _ _ _ c0 c1 c2 c3 []) hw)
  · rw [exec_registerWrite_bar0 s reply hlen ha (by decide) (by omega)]
    refine congrArg Host.Outcome.next ?_
    by_cases h8 : a % 8 = 0
    · have hb : a / 8 * 8 = a := by omega
      rw [hb]
      exact State.writePair_none _ _ (reqWord_start_of_disabled hlen hnone a) (reqWord_of_past (by omega))
    · have hb : a / 8 * 8 + 4 = a := by omega
      exact State.writePair_none _ _ (reqWord_of_lt _ (by omega)) (by rw [hb]; exact reqWord_start_of_disabled hlen hnone a)
  · have hb : a / 8 * 8 = a := by omega
    rw [exec_registerWrite_one b0 b1 b2 b3 reply s h4 ha, hb, State.write64_of_bare hbare, State.write32_of_bare hbare, ite_self]
  · exact exec_registerWrite_page (a := 0) q b0 b1 b2 b3 reply s (by decide) (by decide)
  · exact exec_registerWrite_page (a := 4) q b0 b1 b2 b3 reply s (by decide) (by decide)
  · intro hs h8 hpage
    rw [exec_registerWrite_page q b0 b1 b2 b3 reply s h4 hpage, if_neg (by omega), if_neg (by omega),
      State.doorbell_of_serving (s := v) hs]
    rfl
  · exact exec_registerWrite_powerState hrun 3 reply
  · exact exec_registerWrite_powerState hrun 0 reply
  · exact State.liveWord_write32_pwr hs reply w
  · exact State.liveWord_write32_bootLen hs reply w
  · exact State.liveWord_write64_head hs _ lo
  · exact State.liveWord_write32_period hs reply w
  · rw [exec_hqMark, hs]
    rfl
  · rw [exec_glbHostwin, hrun, State.when_true, hidle, hbusy]
    rfl
  · obtain ⟨hx, -, -, -⟩ := State.hostMsix_parts s fun x => x.setEntry k adr data false
    refine ⟨s.hostMsix fun x => x.setEntry k adr data false, congrArg Host.Outcome.next (State.when_of_true _ hrun), ?_⟩
    rw [hx]
    exact ⟨Vector.getElem_set_self _, Vector.getElem_set_self _, by simp [Msix.setEntry, setBit]⟩
  · obtain ⟨hx, -, -, -⟩ := State.hostMsix_parts s fun x => { x with functionMask := false }
    refine ⟨s.hostMsix fun x => { x with functionMask := false }, congrArg Host.Outcome.next (State.when_of_true _ hrun), ?_⟩
    rw [hx]
  · obtain ⟨hx, -, -, -⟩ := State.hostMsix_parts s fun x => { x with enable := true }
    refine ⟨s.hostMsix fun x => { x with enable := true }, congrArg Host.Outcome.next (State.when_of_true _ hrun), ?_⟩
    rw [hx]

end Sys2Proof.Machine

namespace Sys2Proof.Machine

/-! ## Registers do not show what a read notes (R14) -/

section
variable (s : State) (d : List Byte) (l : List (Nat × BitVec 32)) (a : Nat)

/-- A state with other bytes read and other snapshots taken. -/
def State.noted : State := { s with readData := d, main := { s.main with snaps := l } }

/-- The definition is unfolded as a function: over an unknown offset the kernel must not evaluate `stnOf`. -/
theorem State.noted_bar0 : (s.noted d l).bar0 a = s.bar0 a := by
  suffices h : ∀ g, g = State.bar0 → g (s.noted d l) a = g s a from h _ rfl
  intro g hg
  delta State.bar0 at hg
  rw [hg]
  beta_reduce
  generalize stnOf a = n
  generalize a / 0x10000 = block
  cases n <;> rfl

theorem State.noted_answers : (s.noted d l).answers a = s.answers a := by
  suffices h : ∀ g, g = State.answers → g (s.noted d l) a = g s a from h _ rfl
  intro g hg
  delta State.answers at hg
  rw [hg]
  beta_reduce
  generalize stnOf a = n
  generalize a / 0x10000 = block
  cases n <;> rfl

theorem State.noted_reg : (s.noted d l).reg a = s.reg a := by
  rw [State.reg, State.reg, State.noted_bar0, State.noted_answers]

end

/-! ## The bytes of a group of 8 (R6) -/

/-- A byte of a part of a word. -/
theorem byteOf_extractLsb' {w : Nat} (x : BitVec w) (k n i : Nat) (hi : 8 * i + 8 ≤ n) :
    byteOf (x.extractLsb' (8 * k) n) i = byteOf x (k + i) := by
  refine BitVec.eq_of_getLsbD_eq fun j hj => ?_
  simp only [byteOf, BitVec.getLsbD_extractLsb', hj, decide_true, Bool.true_and, show 8 * i + j < n by omega]
  congr 1
  omega

/-- The lower four bytes. -/
theorem take_toBytes (x : BitVec 64) : (toBytes x 8).take 4 = toBytes (x.extractLsb' 0 32) 4 := by
  refine List.ext_getElem (by simp) fun i hi _ => ?_
  have hlt : i < 4 := by simpa using hi
  rw [List.getElem_take, getElem_toBytes, getElem_toBytes, byteOf_extractLsb' x 0 32 i (by omega), Nat.zero_add]

/-- The upper four bytes. -/
theorem drop_toBytes (x : BitVec 64) : (toBytes x 8).drop 4 = toBytes (x.extractLsb' 32 32) 4 := by
  refine List.ext_getElem (by simp) fun i hi _ => ?_
  have hlt : i < 4 := by simpa using hi
  rw [List.getElem_drop, getElem_toBytes, getElem_toBytes, byteOf_extractLsb' x 4 32 i (by omega)]

section
variable (s : State) {a : Nat}

/-- A read of BAR0 that stays within one group of 8 bytes. -/
theorem State.barRead_of_within {n : Nat} (hn : 0 < n) (h : a % 8 + n ≤ 8) :
    s.barRead a n = { (s.readGroup (a / 8 * 8) (a < a / 8 * 8 + 4) (a / 8 * 8 + 4 < a + n)).2 with
      readData := ((toBytes (s.readGroup (a / 8 * 8) (a < a / 8 * 8 + 4) (a / 8 * 8 + 4 < a + n)).1 8).drop (a % 8)).take n } := by
  have hdrop : a - a / 8 * 8 = a % 8 := by omega
  have htake : a + n - max a (a / 8 * 8) = n := by omega
  rw [State.barRead, groupsOf_of_within hn h, List.foldl_cons, List.foldl_nil, State.readPart, hdrop, htake, List.nil_append]

variable (h8 : a % 8 = 0)
include h8

theorem State.barRead_low : s.barRead a 4 =
    { (s.readGroup a true false).2 with readData := toBytes ((s.readGroup a true false).1.extractLsb' 0 32) 4 } := by
  have hb : a / 8 * 8 = a := by omega
  rw [State.barRead_of_within s (by decide) (by omega), hb, h8, List.drop_zero, take_toBytes, decide_eq_true (by omega : a < a + 4),
    decide_eq_false (by omega : ¬ a + 4 < a + 4)]

theorem State.barRead_high : s.barRead (a + 4) 4 =
    { (s.readGroup a false true).2 with readData := toBytes ((s.readGroup a false true).1.extractLsb' 32 32) 4 } := by
  have hb : (a + 4) / 8 * 8 = a := by omega
  have hmod : (a + 4) % 8 = 4 := by omega
  rw [State.barRead_of_within s (by decide) (by omega), hb, hmod, drop_toBytes, List.take_of_length_le (by rw [length_toBytes]),
    decide_eq_false (by omega : ¬ a + 4 < a + 4), decide_eq_true (by omega : a + 4 < a + 4 + 4)]

theorem State.barRead_both : s.barRead a 8 =
    { (s.readGroup a true true).2 with readData := toBytes (s.readGroup a true true).1 8 } := by
  have hb : a / 8 * 8 = a := by omega
  rw [State.barRead_of_within s (by decide) (by omega), hb, h8, List.drop_zero, List.take_of_length_le (by rw [length_toBytes]),
    decide_eq_true (by omega : a < a + 4), decide_eq_true (by omega : a + 4 < a + 8)]

end

/-! ## A group of 8 bytes with a 64-bit register (R13, R14) -/

section
variable {s : State} {a : Nat} (hf : inFieldBook a = false)
include hf

theorem State.readGroup_rs_low {x : BitVec 64} (h : s.reg a = .rs x) (high : Bool) :
    s.readGroup a true high = (x, s.modMain fun m => m.snap a (x.extractLsb' 32 32)) := by
  simp only [State.readGroup, hf, h]
  rfl

theorem State.readGroup_rs_high {x : BitVec 64} (h : s.reg a = .rs x) :
    s.readGroup a false true = ((s.main.snapOf a).getD (x.extractLsb' 32 32) ++ (0 : BitVec 32), s) := by
  simp only [State.readGroup, hf, h]
  rfl

theorem State.readGroup_r64 {x : BitVec 64} (h : s.reg a = .r64 x) (low high : Bool) : s.readGroup a low high = (x, s) := by
  simp only [State.readGroup, hf, h]
  rfl

/-- No 64-bit register: the lower doubleword alone. -/
theorem State.readGroup_word_low (h : ∀ x, s.reg a ≠ .rs x ∧ s.reg a ≠ .r64 x) :
    s.readGroup a true false = ((0 : BitVec 32) ++ (s.readReg32 a).1, (s.readReg32 a).2) := by
  cases hreg : s.reg a with
  | rs x => exact absurd hreg (h x).1
  | r64 x => exact absurd hreg (h x).2
  | absent =>
    simp only [State.readGroup, hf, hreg]
    rfl
  | r32 x =>
    simp only [State.readGroup, hf, hreg]
    rfl

/-- No 64-bit register: the upper doubleword alone. -/
theorem State.readGroup_word_high (h : ∀ x, s.reg a ≠ .rs x ∧ s.reg a ≠ .r64 x) :
    s.readGroup a false true = ((s.readReg32 (a + 4)).1 ++ (0 : BitVec 32), (s.readReg32 (a + 4)).2) := by
  cases hreg : s.reg a with
  | rs x => exact absurd hreg (h x).1
  | r64 x => exact absurd hreg (h x).2
  | absent =>
    simp only [State.readGroup, hf, hreg]
    rfl
  | r32 x =>
    simp only [State.readGroup, hf, hreg]
    rfl

end

/-! ## Doublewords that no read changes (R5, R6) -/

/-- The two doublewords of 8 bytes lie in one block. -/
theorem stnOf_add_four {a : Nat} (h8 : a % 8 = 0) (h : stnOf a = none) : stnOf (a + 4) = none := by
  have hrange : a < 0x100000 ∨ 0x280000 ≤ a := by
    by_contra hno
    rw [stnOf, dif_pos (by omega), if_pos (by omega)] at h
    cases h
  obtain hlt | hle := hrange
  · exact stnOf_eq_none_of_lt (by omega)
  · exact stnOf_eq_none_of_le (by omega)

theorem State.noteStation_of_none {s : State} {a : Nat} (h : stnOf a = none) : s.noteStation a = s := by
  rw [State.noteStation, h]
  rfl

/-- A doubleword that is no SERn_DATA and no SERn_STAT reads as it is. -/
theorem State.readReg32_of_plain {s : State} {a : Nat} (hstn : stnOf a = none) (h0 : a ≠ 0x080000) (h1 : a ≠ 0x080100)
    (h2 : a ≠ 0x080004) (h3 : a ≠ 0x080104) : s.readReg32 a = (s.liveWord a, s) := by
  simp only [State.readReg32, if_neg h0, if_neg h1, if_neg h2, if_neg h3, State.noteStation_of_none hstn]

theorem extractLsb'_append_low (x y : BitVec 32) : (x ++ y : BitVec 64).extractLsb' 0 32 = y := by
  refine BitVec.eq_of_getLsbD_eq fun i hi => ?_
  rw [BitVec.getLsbD_extractLsb', BitVec.getLsbD_append]
  simp [hi]

theorem extractLsb'_append_high (x y : BitVec 32) : (x ++ y : BitVec 64).extractLsb' 32 32 = x := by
  refine BitVec.eq_of_getLsbD_eq fun i hi => ?_
  rw [BitVec.getLsbD_extractLsb', BitVec.getLsbD_append]
  simp [hi]

section
variable {s : State} {a : Nat} (h8 : a % 8 = 0) (h0 : a ≠ 0x080000) (h1 : a ≠ 0x080100) (hstn : stnOf a = none)
  (hf : inFieldBook a = false) (hrs : ∀ x, s.reg a ≠ .rs x)
include h8 h0 h1 hstn hf hrs

/-- The lower doubleword of 8 bytes without an RS register. -/
theorem State.barRead_plain_low : s.barRead a 4 = { s with readData := toBytes (s.liveWord a) 4 } := by
  have hb : a / 8 * 8 = a := by omega
  rw [State.barRead_low s h8]
  by_cases hwide : ∃ x, s.reg a = .r64 x
  · obtain ⟨x, hx⟩ := hwide
    have hw : s.wide (a / 8 * 8) = some x := by
      rw [hb]
      exact State.wide_of_r64 h8 hx
    rw [State.readGroup_r64 hf hx, State.liveWord_of_wide hw, h8]
  · rw [State.readGroup_word_low hf fun x => ⟨hrs x, fun h => hwide ⟨x, h⟩⟩,
      State.readReg32_of_plain hstn h0 h1 (by omega) (by omega), extractLsb'_append_low]

/-- The upper doubleword of 8 bytes without an RS register. -/
theorem State.barRead_plain_high : s.barRead (a + 4) 4 = { s with readData := toBytes (s.liveWord (a + 4)) 4 } := by
  have hb : (a + 4) / 8 * 8 = a := by omega
  have hmod : (a + 4) % 8 = 4 := by omega
  rw [State.barRead_high s h8]
  by_cases hwide : ∃ x, s.reg a = .r64 x
  · obtain ⟨x, hx⟩ := hwide
    have hw : s.wide ((a + 4) / 8 * 8) = some x := by
      rw [hb]
      exact State.wide_of_r64 h8 hx
    rw [State.readGroup_r64 hf hx, State.liveWord_of_wide hw, hmod]
  · rw [State.readGroup_word_high hf fun x => ⟨hrs x, fun h => hwide ⟨x, h⟩⟩,
      State.readReg32_of_plain (stnOf_add_four h8 hstn) (by omega) (by omega) (by omega) (by omega), extractLsb'_append_high]

end

/-! ## The field book (R358) -/

section
variable {s : State} {a : Nat} (hs : s.serving = true) (hf : inFieldBook a = true)
include hs hf

/-- A read of bytes 0 to 7 of an entry latches its bytes 8 to 15. -/
theorem State.readGroup_entry_low (h16 : a % 16 = 0) (low high : Bool) : s.readGroup a low high =
    (s.fbBytes a, s.modMain fun m => { m with fbLatches := noteAt m.fbLatches a (s.fbBytes (a + 8)) }) := by
  have hb : a / 16 * 16 = a := by omega
  rw [State.readGroup, if_pos hf, State.readEntry, hb, hs, if_neg (by decide), if_pos rfl]

/-- A read of bytes 8 to 15 of an entry returns what was latched. -/
theorem State.readGroup_entry_high (h16 : a % 16 = 8) (low high : Bool) : s.readGroup a low high =
    ((notedAt s.main.fbLatches (a - 8)).getD (s.fbBytes a), s) := by
  have hb : a / 16 * 16 = a - 8 := by omega
  rw [State.readGroup, if_pos hf, State.readEntry, hb, hs, if_neg (by decide), if_neg (by omega)]

end

/-! ## The reads as commands -/

section
variable {a : Nat} (ha : a < 2 ^ 24) (s : State)
include ha

theorem exec_lowWordRead_bar0 (n : Nat) : exec (.lowWordRead { off := BitVec.ofNat 24 a, len := n }) s =
    .next (({ s with readUr := false } : State).barRead a n) := by
  change (.next (({ s with readUr := false } : State).barRead (BitVec.ofNat 24 a).toNat n) : Host.Outcome State Fault Refusal) = _
  rw [toNat_ofNat24 ha]

theorem exec_fieldBookEntryRead (h8 : a % 8 = 0) : exec (.fieldBookEntryRead (BitVec.ofNat 24 a)) s =
    .next { (s.readGroup a true true).2 with readData := toBytes (s.readGroup a true true).1 8 } := by
  have hb : a / 8 * 8 = a := by omega
  change (.next (s.barRead ((BitVec.ofNat 24 a).toNat / 8 * 8) 8) : Host.Outcome State Fault Refusal) = _
  rw [toNat_ofNat24 ha, hb, State.barRead_both s h8]

end

/-- The Pending Bit Array in BAR2. -/
theorem State.bytesOf_msixByte_pba {s : State} (hrun : s.running = true) : bytesOf s.msixByte 0x800 8 = toBytes s.main.msix.pba 8 := by
  refine List.map_congr_left fun i hi => ?_
  have hlt : i < 8 := List.mem_range.mp hi
  rw [State.msixByte, hrun, if_pos rfl]
  by_cases h4 : i < 4
  · rw [show (0x800 + i) / 4 * 4 = 0x800 by omega, show (0x800 + i) % 4 = i by omega]
    change byteOf (s.main.msix.pba.extractLsb' (8 * 0) 32) i = _
    rw [byteOf_extractLsb' _ _ _ _ (by omega), Nat.zero_add]
  · rw [show (0x800 + i) / 4 * 4 = 0x804 by omega, show (0x800 + i) % 4 = i - 4 by omega]
    change byteOf (s.main.msix.pba.extractLsb' (8 * 4) 32) (i - 4) = _
    rw [byteOf_extractLsb' _ _ _ _ (by omega), show 4 + (i - 4) = i by omega]

/-! ## The settled statement -/

section
variable {a : Nat} (h8 : a % 8 = 0) (ha : a + 16 ≤ 2 ^ 24) {s : State} (hf : inFieldBook a = false) {x : BitVec 64}
include h8 hf

/-- The high word alone returns the snapshot. -/
theorem State.barRead_high_snap {t : State} (hreg : t.reg a = .rs x) {y : BitVec 32} (hsnap : t.main.snapOf a = some y) :
    (t.barRead (a + 4) 4).readData = toBytes y 4 := by
  rw [State.barRead_high _ h8]
  dsimp only
  rw [State.readGroup_rs_high hf hreg, hsnap, Option.getD_some, extractLsb'_append_high]

include ha

/-- The low word of an RS register, and then its high word alone. -/
theorem exec_lowWordRead_rs_words (hreg : ({ s with readUr := false } : State).reg a = .rs x) :
    ∃ u t, exec (.lowWordRead { off := BitVec.ofNat 24 a, len := 4 }) s = .next u ∧
      u.readData = toBytes (x.extractLsb' 0 32) 4 ∧ (∀ r, r ≠ a → u.main.snapOf r = s.main.snapOf r) ∧
      u = { s with readUr := false, readData := u.readData, main := { s.main with snaps := u.main.snaps } } ∧
      exec (.lowWordRead { off := BitVec.ofNat 24 (a + 4), len := 4 }) u = .next t ∧ t.readData = toBytes (x.extractLsb' 32 32) 4 := by
  have hu := State.noted_reg ({ s with readUr := false } : State) (toBytes (x.extractLsb' 0 32) 4)
    (noteAt s.main.snaps a (x.extractLsb' 32 32)) a
  rw [hreg] at hu
  refine ⟨({ s with readUr := false } : State).noted (toBytes (x.extractLsb' 0 32) 4) (noteAt s.main.snaps a (x.extractLsb' 32 32)),
    _, ?_, rfl, fun r hr => notedAt_noteAt_ne _ _ hr, rfl, exec_lowWordRead_bar0 (by omega) _ 4, ?_⟩
  · rw [exec_lowWordRead_bar0 (by omega), State.barRead_low _ h8, State.readGroup_rs_low hf hreg]
    rfl
  · exact State.barRead_high_snap h8 hf hu (notedAt_noteAt_same _ _ _)

/-- Both words of an RS register at once. -/
theorem exec_lowWordRead_rs_both (hreg : ({ s with readUr := false } : State).reg a = .rs x) :
    ∃ u, exec (.lowWordRead { off := BitVec.ofNat 24 a, len := 8 }) s = .next u ∧ u.readData = toBytes x 8 ∧
      u.main.snapOf a = some (x.extractLsb' 32 32) := by
  refine ⟨_, exec_lowWordRead_bar0 (by omega) s 8, ?_, ?_⟩ <;> rw [State.barRead_both _ h8, State.readGroup_rs_low hf hreg]
  exact notedAt_noteAt_same _ _ _

/-- The high word of an RS register alone, where no snapshot of it was taken. -/
theorem exec_lowWordRead_rs_high (hreg : ({ s with readUr := false } : State).reg a = .rs x) (hsnap : s.main.snapOf a = none) :
    exec (.lowWordRead { off := BitVec.ofNat 24 (a + 4), len := 4 }) s =
      .next { s with readUr := false, readData := toBytes (x.extractLsb' 32 32) 4 } := by
  rw [exec_lowWordRead_bar0 (by omega), State.barRead_high _ h8, State.readGroup_rs_high hf hreg,
    show ({ s with readUr := false } : State).main.snapOf a = none from hsnap, Option.getD_none, extractLsb'_append_high]

end

section
variable {a : Nat} (ha : a + 8 < 2 ^ 24) {s : State} (hs : s.serving = true) (hf : inFieldBook a = true)
include ha hs hf

/-- Bytes 8 to 15 of an entry. -/
theorem exec_fieldBookEntryRead_high (h16 : a % 16 = 8) : exec (.fieldBookEntryRead (BitVec.ofNat 24 a)) s =
    .next { s with readData := toBytes ((notedAt s.main.fbLatches (a - 8)).getD (s.fbBytes a)) 8 } := by
  rw [exec_fieldBookEntryRead (by omega) s (by omega), State.readGroup_entry_high hs hf h16]

/-- Bytes 0 to 7 of an entry, and then its bytes 8 to 15. -/
theorem exec_fieldBookEntryRead_halves (h16 : a % 16 = 0) :
    ∃ u, exec (.fieldBookEntryRead (BitVec.ofNat 24 a)) s = .next u ∧ u.readData = toBytes (s.fbBytes a) 8 ∧
      (∀ r, r ≠ a → notedAt u.main.fbLatches r = notedAt s.main.fbLatches r) ∧
      u = { s with readData := u.readData, main := { s.main with fbLatches := u.main.fbLatches } } ∧
      exec (.fieldBookEntryRead (BitVec.ofNat 24 (a + 8))) u = .next { u with readData := toBytes (s.fbBytes (a + 8)) 8 } := by
  have hf' : inFieldBook (a + 8) = true := by
    rw [inFieldBook, Bool.and_eq_true, decide_eq_true_iff, decide_eq_true_iff] at hf ⊢
    omega
  have hlt : a + 16 < 2 ^ 24 := by
    rw [inFieldBook, Bool.and_eq_true, decide_eq_true_iff, decide_eq_true_iff] at hf
    omega
  have hhalf : ∀ {u : State}, u.serving = true → notedAt u.main.fbLatches a = some (s.fbBytes (a + 8)) →
      exec (.fieldBookEntryRead (BitVec.ofNat 24 (a + 8))) u = .next { u with readData := toBytes (s.fbBytes (a + 8)) 8 } := by
    intro u hu hn
    rw [exec_fieldBookEntryRead_high (a := a + 8) (by omega) hu hf' (by omega), Nat.add_sub_cancel, hn, Option.getD_some]
  refine ⟨{ s with
      readData := toBytes (s.fbBytes a) 8
      main := { s.main with fbLatches := noteAt s.main.fbLatches a (s.fbBytes (a + 8)) } },
    ?_, rfl, fun r hr => notedAt_noteAt_ne _ _ hr, rfl, hhalf hs (notedAt_noteAt_same _ _ _)⟩
  rw [exec_fieldBookEntryRead (by omega) s (by omega), State.readGroup_entry_low hs hf h16]
  rfl

end

/-- Settles O37, by what stands at the 8 bytes that a read reaches. -/
theorem registerReads : Obligations.RegisterReads := by
  intro a s h8 ha h0 h1 read v
  refine ⟨fun hf => ⟨fun x hreg => ⟨exec_lowWordRead_rs_words h8 ha hf hreg, exec_lowWordRead_rs_both h8 ha hf hreg,
    exec_lowWordRead_rs_high h8 ha hf hreg⟩, fun hrs hstn k hk => ?_⟩,
    fun hs hf => ⟨exec_fieldBookEntryRead_halves (by omega) hs hf, fun h16 hn => ?_⟩,
    fun n => ⟨fun hrun => ?_, rfl, rfl⟩⟩
  · simp only [List.mem_cons, List.not_mem_nil, or_false] at hk
    obtain rfl | rfl := hk
    · exact (exec_lowWordRead_bar0 (by omega) s 4).trans
        (congrArg Host.Outcome.next (State.barRead_plain_low h8 h0 h1 hstn hf hrs))
    · exact (exec_lowWordRead_bar0 (by omega) s 4).trans
        (congrArg Host.Outcome.next (State.barRead_plain_high h8 h0 h1 hstn hf hrs))
  · rw [exec_fieldBookEntryRead_high (by omega) hs hf h16, hn, Option.getD_none]
  · exact congrArg (fun d => Host.Outcome.next { v with readData := d }) (State.bytesOf_msixByte_pba (s := v) hrun)

end Sys2Proof.Machine

namespace Sys2Proof.Machine

/-! ## What an acknowledgement frees (R257) -/

theorem Port.ack_of_absent {x : Port} {a : BitVec 8} (h : ∀ g ∈ x.replay, g.seq ≠ a) : x.ack a = x := by
  have hnone : (x.replay.findIdx? fun f => f.seq == a) = none :=
    List.findIdx?_eq_none_iff.mpr fun g hg => beq_eq_false_iff_ne.mpr (h g hg)
  simp only [Port.ack, hnone]

/-- The flits up to the first one of the number are acknowledged. -/
theorem Port.ack_of_first {x : Port} {a : BitVec 8} {pre post : List SentFlit} {g : SentFlit} (hx : x.replay = pre ++ g :: post)
    (hg : g.seq = a) (hpre : ∀ y ∈ pre, y.seq ≠ a) : x.ack a = { x with replay := post, naks := 0 } := by
  have hnone : (pre.findIdx? fun f => f.seq == a) = none :=
    List.findIdx?_eq_none_iff.mpr fun y hy => beq_eq_false_iff_ne.mpr (hpre y hy)
  have hsome : (x.replay.findIdx? fun f => f.seq == a) = some pre.length := by
    rw [hx, List.findIdx?_append, hnone, List.findIdx?_cons, hg, beq_self_eq_true]
    simp
  have hdrop : x.replay.drop (pre.length + 1) = post := by
    rw [hx, ← List.drop_drop, List.drop_left]
    rfl
  simp only [Port.ack, hsome, hdrop]

theorem Port.ack_rest (x : Port) (a : BitVec 8) : x.ack a = { x with replay := (x.ack a).replay, naks := (x.ack a).naks } := by
  unfold Port.ack
  split <;> rfl

theorem Port.nakSeen_cntReplay (x : Port) (a : BitVec 8) : (x.nakSeen a).cntReplay = x.cntReplay + 1 := by
  change (x.ack a).cntReplay + 1 = _
  rw [Port.ack_rest]

theorem Port.nakSeen_wire (x : Port) (a : BitVec 8) : (x.nakSeen a).wire = x.wire ++ (x.ack a).replay.map SentFlit.bytes := by
  change (x.ack a).wire ++ _ = _
  rw [show (x.ack a).wire = x.wire by rw [Port.ack_rest]]

/-- A full replay buffer holds every flit back (R257). -/
theorem State.pumpPort_of_full {s : State} {p : Fin 2} (h : 64 ≤ (s.port p).replay.length) : ∀ k, State.pumpPort k s p = s
  | 0 => rfl
  | k + 1 => by
    rw [State.pumpPort]
    exact if_pos h

/-! ## Idle flits (R255, R257) -/

theorem Port.returned_rest (x : Port) : x.returned =
    { x with retCtl := x.returned.retCtl, retReq := x.returned.retReq, retRsp := x.returned.retRsp } := by
  unfold Port.returned
  dsimp only
  split
  · rfl
  · split <;> rfl

/-- What a discarded flit leaves of its port: it is NAKed, once (R257). -/
theorem Port.discard_parts (x : Port) : x.discard.nakSent = true ∧ x.discard.rxSeq = x.rxSeq ∧ x.discard.cntCrc = x.cntCrc ∧
    x.discard.wire = x.wire ++ [flitBytes x.txSeq (x.rxSeq - 1) 3 true false x.creditReturn.1 x.creditReturn.2 0] := by
  have hrest := Port.returned_rest { x with nakSent := true }
  refine ⟨?_, ?_, ?_, rfl⟩
  · change (Port.returned { x with nakSent := true }).nakSent = _
    rw [hrest]
  · change (Port.returned { x with nakSent := true }).rxSeq = _
    rw [hrest]
  · change (Port.returned { x with nakSent := true }).cntCrc = _
    rw [hrest]

/-- A NAK is sent unless one was sent before. -/
def Port.nakOnce (x : Port) : Port := if x.nakSent then x else x.discard

theorem Port.nakOnce_parts (x : Port) : x.nakOnce.nakSent = true ∧ x.nakOnce.rxSeq = x.rxSeq ∧ x.nakOnce.cntCrc = x.cntCrc ∧
    x.nakOnce.wire = x.wire ++ if x.nakSent then []
      else [flitBytes x.txSeq (x.rxSeq - 1) 3 true false x.creditReturn.1 x.creditReturn.2 0] := by
  unfold Port.nakOnce
  split
  case isTrue h => exact ⟨h, rfl, rfl, (List.append_nil _).symm⟩
  case isFalse => exact x.discard_parts

theorem State.modPort_port (s : State) (p : Fin 2) (f : Port → Port) : (s.modPort p f).port p = f (s.port p) := upd_get_same _ _ _

theorem State.modPort_congr {s : State} {p : Fin 2} {f g : Port → Port} (h : f (s.port p) = g (s.port p)) :
    s.modPort p f = s.modPort p g := by
  unfold State.port at h
  simp only [State.modPort, State.modLink, State.modMain, upd, h]

/-- A state in which one port changed. -/
theorem State.modPort_self (s : State) (p : Fin 2) (f : Port → Port) : s.modPort p f = s.modPort p fun _ => (s.modPort p f).port p :=
  State.modPort_congr (s.modPort_port p f).symm

/-! ## Flits that arrive (R255 to R257) -/

section
variable {p : Fin 2} {s : State} (hs : s.stationsOn = true)
include hs

theorem exec_flit_down (h : (s.port p).state = 0) (f : BitVec 512) : exec (.flit p f) s = .next s :=
  congrArg Host.Outcome.next (State.when_of_false _ (by rw [hs, h]; rfl))

theorem exec_nak_down (h : (s.port p).state = 0) (a : BitVec 8) : exec (.nak p a) s = .next s :=
  congrArg Host.Outcome.next (State.when_of_false _ (by rw [hs, h]; rfl))

theorem exec_ackInterval_down (h : (s.port p).state = 0) : exec (.ackInterval p) s = .next s :=
  congrArg Host.Outcome.next (State.when_of_false _ (by rw [hs, h]; rfl))

/-- A flit that fails its CRC. -/
theorem exec_flit_bad (h : (s.port p).state = 2) {f : BitVec 512}
    (hbad : ¬ crc32 ((toBytes f 64).take 60) = word 32 ((toBytes f 64).drop 60)) : exec (.flit p f) s =
      .next (s.modPort p fun x => { x.nakOnce with cntCrc := x.cntCrc + 1 }) := by
  refine congrArg Host.Outcome.next ((State.when_of_true _ (by rw [hs, h]; rfl)).trans ?_)
  exact if_pos (bne_iff_ne.mpr hbad)

/-- A good flit out of order. -/
theorem exec_flit_outOfOrder (h : (s.port p).state = 2) {f : BitVec 512}
    (hgood : crc32 ((toBytes f 64).take 60) = word 32 ((toBytes f 64).drop 60)) (hseq : (toBytes f 64).getD 0 0 ≠ (s.port p).rxSeq) :
    exec (.flit p f) s = .next (s.modPort p Port.nakOnce) := by
  refine congrArg Host.Outcome.next ((State.when_of_true _ (by rw [hs, h]; rfl)).trans ?_)
  dsimp only
  rw [if_neg (by rw [hgood, bne_self_eq_false]; decide), if_pos (bne_iff_ne.mpr hseq)]
  rfl

/-- A good flit in order. -/
theorem exec_flit_inOrder (h : (s.port p).state = 2) {f : BitVec 512}
    (hgood : crc32 ((toBytes f 64).take 60) = word 32 ((toBytes f 64).drop 60)) (hseq : (toBytes f 64).getD 0 0 = (s.port p).rxSeq) :
    exec (.flit p f) s = .next (s.takeFlit p (toBytes f 64)).linkSettle := by
  refine congrArg Host.Outcome.next ((State.when_of_true _ (by rw [hs, h]; rfl)).trans ?_)
  dsimp only
  rw [if_neg (by rw [hgood, bne_self_eq_false]; decide), if_neg (by rw [hseq, bne_self_eq_false]; decide)]

theorem exec_ackInterval_up (h : (s.port p).state ≠ 0) : exec (.ackInterval p) s = .next (s.modPort p fun x => x.idleFlit false) :=
  congrArg Host.Outcome.next (State.when_of_true _ (by rw [hs, Bool.true_and]; exact bne_iff_ne.mpr h))

theorem exec_nak_up (h : (s.port p).state ≠ 0) (a : BitVec 8) :
    exec (.nak p a) s = .next ((((s.modPort p fun x => x.nakSeen a).pumpAll p).checkNaks p).linkSettle) :=
  congrArg Host.Outcome.next (State.when_of_true _ (by rw [hs, Bool.true_and]; exact bne_iff_ne.mpr h))

end

/-! ## The fall of a port (R258, R270) -/

/-- The parts of a port that a fallen one keeps while the other port sends. -/
structure PortCore where
  state : BitVec 2
  cause : BitVec 3
  replay : List SentFlit
  outReq : List OutMsg
  rxReq : Option RxMsg

/-- These parts of a port. -/
def Port.core (x : Port) : PortCore :=
  { state := x.state, cause := x.cause, replay := x.replay, outReq := x.outReq, rxReq := x.rxReq }

/-- What the traffic of the other port leaves of a state. -/
structure FallView where
  core : PortCore
  irqStat : BitVec 5
  binds : Vector BindRegs 8
  ctxs : Vector Ctx 8

/-- What the traffic of the other port leaves, as port p sees it. -/
def State.fallView (p : Fin 2) (s : State) : FallView :=
  { core := (s.port p).core, irqStat := s.main.link.irqStat, binds := s.main.link.binds, ctxs := s.main.ctxs }

theorem State.modPort_fallView {p : Fin 2} (s : State) {q : Fin 2} {f : Port → Port} (h : q ≠ p ∨ ∀ x : Port, (f x).core = x.core) :
    (s.modPort q f).fallView p = s.fallView p := by
  have hcore : ((s.modPort q f).port p).core = (s.port p).core := by
    change ((upd s.main.link.ports q f)[p]).core = _
    by_cases hq : q = p
    · subst hq
      rw [upd_get_same]
      exact h.elim (fun hne => absurd rfl hne) fun hf => hf _
    · rw [upd_get_ne _ _ hq]
  exact congrArg (fun k => { s.fallView p with core := k }) hcore

theorem Port.freeSlots_core (x : Port) (vc n : Nat) : (x.freeSlots vc n).core = x.core := by
  unfold Port.freeSlots
  split <;> rfl

theorem Port.idleFlit_core (x : Port) (nak : Bool) : (x.idleFlit nak).core = x.core := by
  change x.returned.core = x.core
  rw [Port.returned_rest]
  rfl

theorem Port.creditFlits_core (n : Nat) (x : Port) : (Port.creditFlits n x).core = x.core := by
  induction n generalizing x with
  | zero => rfl
  | succ n ih =>
    rw [Port.creditFlits]
    split
    · rfl
    · rw [ih, Port.idleFlit_core]

theorem Port.returnIdle_core (x : Port) : x.returnIdle.core = x.core := by
  unfold Port.returnIdle
  split
  · exact Port.creditFlits_core _ _
  · rfl

section
variable {p q : Fin 2} (hq : q ≠ p)
include hq

theorem State.pumpPort_fallView (n : Nat) (s : State) : (State.pumpPort n s q).fallView p = s.fallView p := by
  induction n generalizing s with
  | zero => rfl
  | succ n ih =>
    rw [State.pumpPort]
    dsimp only
    split
    · rfl
    · split
      · rfl
      · rw [ih]
        split
        · rw [State.modPort_fallView _ (.inr fun x => Port.freeSlots_core x _ _), State.modPort_fallView _ (.inl hq)]
        · exact State.modPort_fallView _ (.inl hq)

theorem State.pumpAll_fallView (s : State) : (s.pumpAll q).fallView p = s.fallView p := by
  unfold State.pumpAll
  rw [State.modPort_fallView _ (.inr Port.returnIdle_core), State.modPort_fallView _ (.inr Port.returnIdle_core),
    State.pumpPort_fallView hq]

theorem State.sendOn_fallView (s : State) (m : Msg) : (s.sendOn q m).fallView p = s.fallView p := by
  unfold State.sendOn
  split
  · unfold State.queueMsg
    rw [State.pumpAll_fallView hq, State.modPort_fallView _ (.inl hq)]
  · rfl

theorem State.sendAbort_fallView (s : State) (job : BitVec 12) : (s.sendAbort job [q]).fallView p = s.fallView p := by
  unfold State.sendAbort
  dsimp only
  by_cases hup : (s.port q).state = 2
  · rw [List.filter_cons_of_pos (by simpa using hup), List.filter_nil, if_neg (List.cons_ne_nil _ _), List.foldl_cons, List.foldl_nil,
      State.sendOn_fallView hq]
    rfl
  · rw [List.filter_cons_of_neg (by simpa using hup), List.filter_nil, if_pos rfl, List.foldl_nil]

end

theorem otherPort_ne (p : Fin 2) : otherPort p ≠ p := by
  revert p
  decide

/-- One context's part of a port's fall. -/
def State.fallCtx (p : Fin 2) (s : State) (c : Fin 8) : State :=
  if (s.bound c).valid && (s.ctx c).reset.isNone then (s.sendAbort (s.bound c).job [otherPort p]).triggerReset c 3 else s

theorem State.portDown_of_up {s : State} {p : Fin 2} (h : (s.port p).state ≠ 0) (cause : BitVec 3) : s.portDown p cause =
    (List.finRange 8).foldl (State.fallCtx p)
      ((((s.modPort p fun x => { x.restart with state := 0, trained := false, cause := cause }).cutFrom p).linkEvent
        (BitVec.twoPow 5 p.val)).fbEntry 4 0x050 (BitVec.ofNat 64 (p.val + 65536 * cause.toNat))) := by
  rw [State.portDown, if_neg h]
  rfl

/-- A trigger keeps the port, the flags and the bindings. -/
theorem State.fallCtx_link (p : Fin 2) (s : State) (c : Fin 8) : { (s.fallCtx p c).fallView p with ctxs := s.main.ctxs } = s.fallView p := by
  unfold State.fallCtx
  split
  · rw [State.triggerReset_rest]
    exact congrArg (fun v => { v with ctxs := s.main.ctxs }) (State.sendAbort_fallView (otherPort_ne p) s _)
  · rfl

section
variable (p : Fin 2) (s : State) (c : Fin 8)

theorem State.sendAbort_ctx (job : BitVec 12) (k : Fin 8) : (s.sendAbort job [otherPort p]).ctx k = s.ctx k :=
  congrArg (fun v : FallView => v.ctxs[k]) (State.sendAbort_fallView (otherPort_ne p) s job)

theorem State.fallCtx_ctx_ne {k : Fin 8} (h : c ≠ k) : (s.fallCtx p c).ctx k = s.ctx k := by
  unfold State.fallCtx
  split
  · rw [State.triggerReset_ctx_ne _ h, State.sendAbort_ctx]
  · rfl

theorem State.fallCtx_ctx_hit (hv : (s.bound c).valid = true) (hr : (s.ctx c).reset = none) :
    ((s.fallCtx p c).ctx c).reset.isSome = true ∧ ((s.fallCtx p c).ctx c).cause = 3 := by
  rw [State.fallCtx, hv, hr, if_pos (by rfl), State.triggerReset_ctx_same (by rw [State.sendAbort_ctx]; exact hr)]
  exact ⟨rfl, rfl⟩

/-- A context without a binding, or one that resets, keeps its record. -/
theorem State.fallCtx_ctx_kept {k : Fin 8} (h : (s.bound k).valid = false ∨ (s.ctx k).reset.isSome = true) :
    (s.fallCtx p c).ctx k = s.ctx k := by
  by_cases hc : c = k
  · subst hc
    have hcond : ((s.bound c).valid && (s.ctx c).reset.isNone) = false := by
      obtain h | h := h
      · rw [h, Bool.false_and]
      · rw [Option.isNone_eq_false_iff.mpr h, Bool.and_false]
    rw [State.fallCtx, if_neg (by rw [hcond]; decide)]
  · exact s.fallCtx_ctx_ne p c hc

theorem State.fallCtx_bound (k : Fin 8) : (s.fallCtx p c).bound k = s.bound k :=
  congrArg (fun v : FallView => v.binds[k].set.active) (s.fallCtx_link p c)

end

section
variable (p : Fin 2) (l : List (Fin 8)) (s : State)

theorem foldl_fallCtx_link (x : Vector Ctx 8) :
    { (l.foldl (State.fallCtx p) s).fallView p with ctxs := x } = { s.fallView p with ctxs := x } :=
  foldl_view (fun t => { t.fallView p with ctxs := x }) (fun t c => congrArg (fun v => { v with ctxs := x }) (t.fallCtx_link p c)) l s

theorem foldl_fallCtx_kept {k : Fin 8} (h : (s.bound k).valid = false ∨ (s.ctx k).reset.isSome = true) :
    (l.foldl (State.fallCtx p) s).ctx k = s.ctx k := by
  induction l generalizing s with
  | nil => rfl
  | cons c l ih =>
    have hstep := s.fallCtx_ctx_kept p c h
    rw [List.foldl_cons, ih _ (by rw [State.fallCtx_bound, hstep]; exact h), hstep]

theorem foldl_fallCtx_hit {k : Fin 8} (hk : k ∈ l) (hv : (s.bound k).valid = true) (hr : (s.ctx k).reset = none) :
    ((l.foldl (State.fallCtx p) s).ctx k).reset.isSome = true ∧ ((l.foldl (State.fallCtx p) s).ctx k).cause = 3 := by
  induction l generalizing s with
  | nil => cases hk
  | cons c l ih =>
    rw [List.foldl_cons]
    by_cases hc : c = k
    · subst hc
      have hhit := s.fallCtx_ctx_hit p c hv hr
      rw [foldl_fallCtx_kept p l _ (.inr hhit.1)]
      exact hhit
    · refine ih _ ((List.mem_cons.mp hk).resolve_left (Ne.symm hc)) ?_ ?_
      · rw [State.fallCtx_bound]
        exact hv
      · rw [State.fallCtx_ctx_ne _ _ _ hc]
        exact hr

end

/-- The state of a port's fall before its contexts reset. -/
def State.fallStart (s : State) (p : Fin 2) (cause : BitVec 3) : State :=
  (((s.modPort p fun x => { x.restart with state := 0, trained := false, cause := cause }).cutFrom p).linkEvent
    (BitVec.twoPow 5 p.val)).fbEntry 4 0x050 (BitVec.ofNat 64 (p.val + 65536 * cause.toNat))

theorem State.raiseIf_fallView (p : Fin 2) (s : State) (b : Bool) (v : Fin 64) : (s.raiseIf b v).fallView p = s.fallView p := by
  unfold State.raiseIf State.raise
  split
  · dsimp only
    split <;> rfl
  · rfl

theorem twoPow_port (p : Fin 2) : BitVec.twoPow 5 p.val = if p = 0 then 1 else 2 := by
  revert p
  decide

theorem State.fallStart_view (s : State) (p : Fin 2) (cause : BitVec 3) : (s.fallStart p cause).fallView p =
    { core := { state := 0, cause := cause, replay := [], outReq := [], rxReq := none }
      irqStat := s.main.link.irqStat ||| BitVec.twoPow 5 p.val
      binds := s.main.link.binds
      ctxs := s.main.ctxs } := by
  have hcore : (((s.modPort p fun x => { x.restart with state := 0, trained := false, cause := cause }).cutFrom p).port p).core =
      { state := 0, cause := cause, replay := [], outReq := [], rxReq := none } := by
    change ((upd _ (otherPort p) _)[p] : Port).core = _
    rw [upd_get_ne _ _ (otherPort_ne p)]
    change ((upd s.main.link.ports p _)[p]).core = _
    rw [upd_get_same]
    rfl
  change (State.raiseIf _ _ _).fallView p = _
  rw [State.raiseIf_fallView]
  exact congrArg (fun k => FallView.mk k (s.main.link.irqStat ||| BitVec.twoPow 5 p.val) s.main.link.binds s.main.ctxs) hcore

/-- What a port's fall leaves. -/
theorem State.portDown_leaves {s : State} {p : Fin 2} (h : (s.port p).state ≠ 0) (cause : BitVec 3) :
    let u := s.portDown p cause
    (u.port p).state = 0 ∧ (u.port p).cause = cause ∧ (u.port p).replay = [] ∧ (u.port p).outReq = [] ∧ (u.port p).rxReq = none ∧
      u.main.link.irqStat = s.main.link.irqStat ||| (if p = 0 then 1 else 2) ∧
      ∀ k, ((s.bound k).valid = true → (s.ctx k).reset = none → (u.ctx k).reset.isSome = true ∧ (u.ctx k).cause = 3) ∧
        ((s.bound k).valid = false → u.ctx k = s.ctx k) := by
  intro u
  have hu : u = (List.finRange 8).foldl (State.fallCtx p) (s.fallStart p cause) := State.portDown_of_up h cause
  have hstart := s.fallStart_view p cause
  have hlink := foldl_fallCtx_link p (List.finRange 8) (s.fallStart p cause) s.main.ctxs
  rw [← hu, hstart] at hlink
  have hctx : ∀ k, (s.fallStart p cause).ctx k = s.ctx k := fun k => congrArg (fun v : FallView => v.ctxs[k]) hstart
  have hbound : ∀ k, (s.fallStart p cause).bound k = s.bound k := fun k => congrArg (fun v : FallView => v.binds[k].set.active) hstart
  rw [← twoPow_port]
  refine ⟨congrArg (fun v => v.core.state) hlink, congrArg (fun v => v.core.cause) hlink, congrArg (fun v => v.core.replay) hlink,
    congrArg (fun v => v.core.outReq) hlink, congrArg (fun v => v.core.rxReq) hlink, congrArg (fun v => v.irqStat) hlink, fun k => ⟨?_, ?_⟩⟩
  · intro hv hr
    rw [hu]
    exact foldl_fallCtx_hit p _ _ (List.mem_finRange k) (by rw [hbound]; exact hv) (by rw [hctx]; exact hr)
  · intro hv
    rw [hu, foldl_fallCtx_kept p _ _ (.inl (by rw [hbound]; exact hv)), hctx]

/-! ## Bindings (R263) -/

theorem State.badWindow_iff (s : State) (b : Binding) : s.badWindow b = true ↔ b.base.toNat % 64 ≠ 0 ∨ b.bound.toNat % 64 ≠ 0 ∨
    b.bound.toNat = 0 ∨ 0x10000000 < b.base.toNat + b.bound.toNat ∨
    (s.main.shm.split = true ∧ oneGroup b.base.toNat b.bound.toNat = false) ∨ s.shmPresent b.base.toNat b.bound.toNat = false := by
  simp only [State.badWindow, Bool.or_eq_true, bne_iff_ne, decide_eq_true_iff, Bool.and_eq_true, Bool.not_eq_true', or_assoc]

/-- Whether another valid binding has the job. -/
def State.jobTaken (s : State) (c : Fin 8) (job : BitVec 12) : Bool :=
  (List.finRange 8).any fun k => k != c && (s.bound k).valid && (s.bound k).job == job

theorem State.jobTaken_iff (s : State) (c : Fin 8) (job : BitVec 12) :
    s.jobTaken c job = true ↔ ∃ k, k ≠ c ∧ (s.bound k).valid = true ∧ (s.bound k).job = job := by
  simp only [State.jobTaken, List.any_eq_true, List.mem_finRange, true_and, Bool.and_eq_true, bne_iff_ne, beq_iff_eq, and_assoc]

theorem exec_bindingActivate {s : State} {c : Fin 8} {b : Binding} (h : s.main.link.binds[c].set.pending = some b) :
    exec (.bindingActivate c) s = .next (s.when (s.serving && !s.ctxRuns c) fun s =>
      State.noticeCheck <| s.modBind c fun x =>
        { set := { x.set with active := { b with valid := b.valid && !s.badWindow b && !s.jobTaken c b.job }, pending := none },
          badBind := x.badBind || s.badWindow b, bindConflict := x.bindConflict || s.jobTaken c b.job }) := by
  change execBindingActivate c s = _
  rw [execBindingActivate, h]
  rfl

theorem State.noticeCheck_binds (s : State) : s.noticeCheck.main.link.binds = s.main.link.binds := by
  rw [State.noticeCheck_rest]

theorem State.serving_of_stationsOn {s : State} (h : s.stationsOn = true) : s.serving = true := (Bool.and_eq_true_iff.mp h).1

section
variable {s : State} {c : Fin 8} {b : Binding} (hs : s.serving = true) (h : s.main.link.binds[c].set.pending = some b)
include h

theorem exec_bindingActivate_running (hr : s.ctxRuns c = true) : exec (.bindingActivate c) s = .next s := by
  rw [exec_bindingActivate h, State.when_of_false _ (by rw [hr, Bool.not_true, Bool.and_false])]

include hs

/-- A binding that becomes active. -/
theorem exec_bindingActivate_idle (hr : s.ctxRuns c = false) :
    ∃ u, exec (.bindingActivate c) s = .next u ∧
      u.main.link.binds[c] =
        { set := { s.main.link.binds[c].set with
            active := { b with valid := b.valid && !s.badWindow b && !s.jobTaken c b.job }
            pending := none }
          badBind := s.main.link.binds[c].badBind || s.badWindow b
          bindConflict := s.main.link.binds[c].bindConflict || s.jobTaken c b.job } ∧
      ∀ k, k ≠ c → u.main.link.binds[k] = s.main.link.binds[k] := by
  refine ⟨_, (exec_bindingActivate h).trans (congrArg Host.Outcome.next (State.when_of_true _ (by rw [hs, hr]; rfl))), ?_, fun k hk => ?_⟩ <;>
    rw [State.noticeCheck_binds]
  · exact upd_get_same _ _ _
  · exact upd_get_ne _ _ (Ne.symm hk)

end

/-! ## The settled statement -/

/-- Settles O57; a fall is followed through the contexts that it resets. -/
theorem linkPorts : Obligations.LinkPorts := by
  intro p f a c s hs x bs good idle nakFlit
  have hserve := State.serving_of_stationsOn hs
  obtain ⟨hsent, hseqKept, hcnt, hwire⟩ := x.nakOnce_parts
  refine ⟨fun h => ⟨exec_flit_down hs h f, exec_nak_down hs h a, exec_ackInterval_down hs h⟩,
    fun h => ⟨fun hbad => ?_, fun hgood hseq => ?_, exec_flit_inOrder hs h⟩,
    fun h => ⟨⟨_, exec_ackInterval_up hs h, s.modPort_self p _, s.modPort_port p _⟩, exec_nak_up hs h a⟩,
    ⟨x.nakSeen_cntReplay a, rfl, rfl, x.nakSeen_wire a, Port.ack_of_absent, fun pre g post => Port.ack_of_first⟩,
    State.pumpPort_of_full, fun h => ?_, fun h => ?_, fun h => ?_, ?_, fun h ht => ⟨?_, fun w => ?_⟩,
    fun cause h => State.portDown_leaves h cause, ?_, ?_, fun b hb => ⟨exec_bindingActivate_running hb, fun hr => ?_⟩⟩
  · refine ⟨_, exec_flit_bad hs h hbad, s.modPort_self p _, ?_⟩
    rw [State.modPort_port]
    exact ⟨rfl, hsent, hseqKept, hwire⟩
  · refine ⟨_, exec_flit_outOfOrder hs h hgood hseq, s.modPort_self p _, ?_⟩
    rw [State.modPort_port]
    exact ⟨hcnt, hsent, hseqKept, hwire⟩
  · refine congrArg Host.Outcome.next (State.when_of_true _ ?_)
    rw [hs, Bool.true_and, Bool.or_eq_true, decide_eq_true_iff]
    exact h
  · exact congrArg Host.Outcome.next (State.when_of_true _ (by rw [hs, h]; rfl))
  · exact congrArg Host.Outcome.next (State.when_of_false _ (by rw [h, Bool.and_false]))
  · exact congrArg Host.Outcome.next (State.when_of_true _ hserve)
  · exact congrArg Host.Outcome.next (State.when_of_true _ (by rw [hs, h, ht]; rfl))
  · exact congrArg Host.Outcome.next (State.when_of_true _ (by rw [hs, h, ht]; rfl))
  · exact congrArg Host.Outcome.next (State.when_of_true _ hserve)
  · exact congrArg Host.Outcome.next (State.when_of_true _ hserve)
  · intro m n bad conflict
    obtain ⟨u, hu, hc, hrest⟩ := exec_bindingActivate_idle hserve hb hr
    have hbad : s.badWindow b = true ↔ bad := s.badWindow_iff b
    have hconf : s.jobTaken c b.job = true ↔ conflict := s.jobTaken_iff c b.job
    refine ⟨u, hu, ?_⟩
    rw [State.bound, hc, ← hbad, ← hconf]
    refine ⟨rfl, rfl, ?_, ?_, ?_, hrest⟩ <;> simp [and_assoc]

end Sys2Proof.Machine

namespace Sys2Proof.Machine

/-! ## A message that arrives (R256, R260) -/

section
variable {p : Fin 2} {s : State} (m : Msg) (op : MsgOp)

theorem State.message_down (h : (s.port p).state ≠ 2) : s.message p m op = s :=
  State.when_of_false _ (by rw [decide_eq_false h, Bool.and_false])

theorem State.message_up (hs : s.stationsOn = true) (h : (s.port p).state = 2) :
    s.message p m op = (s.arrive p { m with op := op }).linkSettle :=
  State.when_of_true _ (by rw [hs, decide_eq_true h]; rfl)

/-- A message with a destination goes on through the port of its route, where it is another chip's. -/
theorem State.arrive_routed {r : Fin 2} (ha : m.op ≠ .abort) (hh : m.op ≠ .hello) (hd : m.dst ≠ s.chipId)
    (hr : s.routeOf m.dst = some r) : s.arrive p m = s.sendOn r m := by
  unfold State.arrive
  split
  · exact absurd ‹_› ha
  · exact absurd ‹_› hh
  · rw [if_pos (bne_iff_ne.mpr hd), hr]

theorem State.arrive_unreachable (ha : m.op ≠ .abort) (hh : m.op ≠ .hello) (hd : m.dst ≠ s.chipId)
    (hr : s.routeOf m.dst = none) : s.arrive p m = s.modPort p fun x => { x with cntBad := x.cntBad + 1 } := by
  unfold State.arrive
  split
  · exact absurd ‹_› ha
  · exact absurd ‹_› hh
  · rw [if_pos (bne_iff_ne.mpr hd), hr]

end

/-- The message commands that have a destination and a channel, with their operation. -/
def directed : List (MsgOp × (Fin 2 → Msg → Instr)) :=
  [(.write, .write), (.read, .read), (.flush, .flush), (.readResp, .readResp), (.flushAck, .flushAck), (.errResp, .errResp)]

/-- Such a command is the arrival of its message, which is neither ABORT nor HELLO. -/
theorem exec_directed {row : MsgOp × (Fin 2 → Msg → Instr)} (h : row ∈ directed) :
    row.1 ≠ .abort ∧ row.1 ≠ .hello ∧ ∀ p m s, exec (row.2 p m) s = .next (s.message p m row.1) := by
  simp only [directed, List.mem_cons, List.not_mem_nil, or_false] at h
  obtain rfl | rfl | rfl | rfl | rfl | rfl := h <;> exact ⟨by decide, by decide, fun _ _ _ => rfl⟩

/-! ## Messages for this chip (R265, R267) -/

section
variable {p : Fin 2} {s : State} {m : Msg} (hs : s.stationsOn = true) (hp : (s.port p).state = 2) (hd : m.dst = s.chipId)
include hs hp hd

/-- A message for this chip takes its effect here. -/
theorem State.message_here {op : MsgOp} {away here : State}
    (h : s.arrive p { m with op := op } = if m.dst != s.chipId then away else here) : s.message p m op = here.linkSettle := by
  rw [State.message_up m op hs hp, h, if_neg (by rw [hd, bne_self_eq_false]; decide)]

theorem exec_write_here : exec (.write p m) s = .next (s.onWrite { m with op := .write }).linkSettle :=
  congrArg Host.Outcome.next (State.message_here hs hp hd rfl)

theorem exec_read_here : exec (.read p m) s = .next (s.onRead { m with op := .read }).linkSettle :=
  congrArg Host.Outcome.next (State.message_here hs hp hd rfl)

theorem exec_flush_here : exec (.flush p m) s = .next (s.onFlush { m with op := .flush }).linkSettle :=
  congrArg Host.Outcome.next (State.message_here hs hp hd rfl)

theorem exec_readResp_here : exec (.readResp p m) s = .next (s.onReadResp { m with op := .readResp }).linkSettle :=
  congrArg Host.Outcome.next (State.message_here hs hp hd rfl)

theorem exec_flushAck_here : exec (.flushAck p m) s = .next (s.onFlushAck { m with op := .flushAck }).linkSettle :=
  congrArg Host.Outcome.next (State.message_here hs hp hd rfl)

theorem exec_errResp_here : exec (.errResp p m) s = .next (s.onErrResp { m with op := .errResp }).linkSettle :=
  congrArg Host.Outcome.next (State.message_here hs hp hd rfl)

theorem exec_markAdd_here : exec (.markAdd p m) s = .next (s.onMarkAdd { m with ch := 0, op := .markAdd }).linkSettle :=
  congrArg Host.Outcome.next (State.message_here (m := { m with ch := 0 }) hs hp hd rfl)

end

section
variable {s : State} {m : Msg}

theorem Binding.allows_iff (b : Binding) (m : Msg) (right : Nat) :
    b.allows m right = true ↔ m.off.toNat + m.len.toNat + 1 ≤ b.bound.toNat ∧ b.rights.getLsbD right = true := by
  rw [Binding.allows, Bool.and_eq_true, decide_eq_true_iff]

theorem Binding.not_allows {b : Binding} {m : Msg} {right : Nat}
    (h : ¬ m.off.toNat + m.len.toNat + 1 ≤ b.bound.toNat ∨ b.rights.getLsbD right = false) : b.allows m right = false := by
  rw [← Bool.not_eq_true, Binding.allows_iff, not_and_or, Bool.not_eq_true]
  exact h

section
variable {c : Fin 8} (hc : s.jobCtx m.job = some c)
include hc

theorem State.onWrite_allowed (h : (s.bound c).allows m 1 = true) :
    s.onWrite m = s.spaceWrite .shm ((s.bound c).base.toNat + m.off.toNat) (padTo (m.len.toNat + 1) m.data) := by
  simp only [State.onWrite, hc, h, if_true]

theorem State.onWrite_denied (h : (s.bound c).allows m 1 = false) : s.onWrite m = s.refuse m.src m.ch m.off := by
  simp only [State.onWrite, hc, h, Bool.false_eq_true, if_false]

theorem State.onRead_allowed (h : (s.bound c).allows m 0 = true) : s.onRead m = s.sendMsg
    { s.reply m .readResp with
      len := m.len, data := s.spaceRead .shm ((s.bound c).base.toNat + m.off.toNat) (m.len.toNat + 1) } := by
  simp only [State.onRead, hc, h, if_true]

theorem State.onRead_denied (h : (s.bound c).allows m 0 = false) : s.onRead m = s.sendMsg (s.reply m .errResp) := by
  simp only [State.onRead, hc, h, Bool.false_eq_true, if_false]

theorem State.onMarkAdd_bound : s.onMarkAdd m = s.setMark m.mark (s.main.marks[m.mark] + 1) := by
  simp only [State.onMarkAdd, hc, State.addMark]

end

section
variable (hc : s.jobCtx m.job = none)
include hc

theorem State.onWrite_unbound : s.onWrite m = s.refuse m.src m.ch m.off := by simp only [State.onWrite, hc]

theorem State.onRead_unbound : s.onRead m = s.sendMsg (s.reply m .errResp) := by simp only [State.onRead, hc]

theorem State.onMarkAdd_unbound : s.onMarkAdd m = s.refuse m.src m.ch m.off := by simp only [State.onMarkAdd, hc]

end

theorem State.onFlush_refused {note : Fin 8 × Fin 16 × BitVec 28}
    (h : (s.main.link.refusedNotes.find? fun x => x.1 == m.src && x.2.1 == m.ch) = some note) :
    s.onFlush m = (s.modLink fun l => { l with refusedNotes := l.refusedNotes.erase note }).sendMsg
      { s.reply m .flushAck with refused := true, off := note.2.2 } := by
  simp only [State.onFlush, h]

theorem State.onFlush_clean (h : (s.main.link.refusedNotes.find? fun x => x.1 == m.src && x.2.1 == m.ch) = none) :
    s.onFlush m = s.sendMsg (s.reply m (if (s.jobCtx m.job).isSome then .flushAck else .errResp)) := by
  simp only [State.onFlush, h]
  split <;> rfl

end

theorem State.raiseIf_link (s : State) (b : Bool) (v : Fin 64) : (s.raiseIf b v).main.link = s.main.link := by
  unfold State.raiseIf State.raise
  split
  · dsimp only
    split <;> rfl
  · rfl

/-- What a refused access leaves of the link (R265). -/
theorem State.refuse_link (s : State) (src : Fin 8) (ch : Fin 16) (off : BitVec 28) : (s.refuse src ch off).main.link =
    { s.main.link with
      cntRefused := s.main.link.cntRefused + 1
      refusedNotes := if s.main.link.refusedNotes.any fun x => x.1 == src && x.2.1 == ch then s.main.link.refusedNotes
        else s.main.link.refusedNotes ++ [(src, ch, off)]
      irqStat := s.main.link.irqStat ||| 8 } :=
  State.raiseIf_link _ _ _

/-! ## Responses at the requester (R266, R267, R285) -/

section
variable {s : State} {k : Fin 64} {gen : BitVec 8} {f : State → TagUse → Active → State}

theorem State.lostTag_of_unknown (h : ∀ x ∈ s.main.link.lost, ¬ (x.1 = k ∧ x.2.2 = gen)) : s.lostTag k gen = s := by
  have hnone : (s.main.link.lost.find? fun x => x.1 == k && x.2.2 == gen) = none := by
    refine List.find?_eq_none.mpr fun x hx => ?_
    rw [Bool.and_eq_true, beq_iff_eq, beq_iff_eq]
    exact h x hx
  simp only [State.lostTag, hnone]

/-- A response that is not its tag's. -/
theorem State.onTag_lost (h : ∀ u, s.main.link.tags[k] = some u → gen ≠ u.gen) : s.onTag k gen f = s.lostTag k gen := by
  cases hu : s.main.link.tags[k] with
  | none => simp only [State.onTag, hu]
  | some u =>
    simp only [State.onTag, hu]
    exact if_pos (bne_iff_ne.mpr (h u hu))

section
variable {u : TagUse} (hu : s.main.link.tags[k] = some u) (hg : gen = u.gen)
include hu hg

/-- A response of a stale generation. -/
theorem State.onTag_stale (h : u.gen ≠ (s.ctx u.ctx).gen) :
    s.onTag k gen f = (s.setTag k none).modCtx u.ctx fun x => { x with staleDrops := x.staleDrops + 1 } := by
  simp only [State.onTag, hu]
  rw [if_neg (by rw [hg, bne_self_eq_false]; decide)]
  exact if_pos (bne_iff_ne.mpr h)

/-- A response that its channel waits for. -/
theorem State.onTag_awaited {a : Active} (h : u.gen = (s.ctx u.ctx).gen) (hcur : (s.chan u.ch).cur = some a)
    (hrun : (s.chan u.ch).state = .running) (ha : a.awaits k = true) : s.onTag k gen f = f (s.setTag k none) u a := by
  have hstale : ¬ (u.gen != ((s.setTag k none).ctx u.ctx).gen) = true := by
    rw [show (s.setTag k none).ctx u.ctx = s.ctx u.ctx from rfl, ← h, bne_self_eq_false]
    decide
  have hcur' : ((s.setTag k none).chan u.ch).cur = some a := hcur
  have hrun' : (((s.setTag k none).chan u.ch).state == .running && a.awaits k) = true := by
    rw [show ((s.setTag k none).chan u.ch).state = .running from hrun, ha]
    rfl
  simp only [State.onTag, hu]
  rw [if_neg (by rw [hg, bne_self_eq_false]; decide), if_neg hstale, hcur']
  exact if_pos hrun'

end

/-- An attempt of a peer READ that failed. -/
theorem State.tagFails_read {t : TagUse} (h : t.isFlush = false) (a : Active) : State.tagFails k s t a =
    if (s.chan t.ch).retries < s.main.trvRetry.toNat
    then s.modChan t.ch fun x => { x with retries := x.retries + 1 }.withCur { a with reads := loseReply k false a.reads }
    else s.modChan t.ch fun x => x.withCur { a with reads := loseReply k true a.reads } := by
  rw [State.tagFails, h]
  by_cases hr : (s.chan t.ch).retries < s.main.trvRetry.toNat
  · rw [if_pos hr, if_neg Bool.false_ne_true, decide_eq_false (Nat.not_le.mpr hr)]
    rfl
  · rw [if_neg hr, if_neg Bool.false_ne_true, decide_eq_true (Nat.not_lt.mp hr)]
    rfl

end

theorem exec_responseTimeout_free {s : State} {k : Fin 64} (h : s.main.link.tags[k] = none) : exec (.responseTimeout k) s = .next s := by
  change (Host.Outcome.next (s.when s.stationsOn _) : Host.Outcome State Fault Refusal) = _
  rw [State.when]
  split
  · simp only [h]
  · rfl

theorem exec_responseTimeout_awaited {s : State} (hs : s.stationsOn = true) {k : Fin 64} {u : TagUse} {a : Active}
    (hu : s.main.link.tags[k] = some u) (hcur : (s.chan u.ch).cur = some a) (hrun : (s.chan u.ch).state = .running)
    (ha : a.awaits k = true) : exec (.responseTimeout k) s = .next (State.tagFails k (s.setTag k none) u a).linkSettle := by
  have hcur' : ((s.setTag k none).chan u.ch).cur = some a := hcur
  have hrun' : (((s.setTag k none).chan u.ch).state == .running && a.awaits k) = true := by
    rw [show ((s.setTag k none).chan u.ch).state = .running from hrun, ha]
    rfl
  refine congrArg Host.Outcome.next ((State.when_of_true _ hs).trans ?_)
  simp only [hu]
  rw [hcur']
  exact if_pos hrun'

/-! ## Control messages (R254, R269) -/

/-- The context that an ABORT resets. -/
def State.abortHit (s : State) (m : Msg) : Option (Fin 8) := (s.jobCtx m.job).filter fun c => (s.ctx c).reset.isNone

/-- An ABORT noted, and sent on through the other port. -/
def State.forwardAbort (s : State) (p : Fin 2) (m : Msg) : State :=
  ((s.modLink fun l => { l with
    abortLog := abortWord m (s.abortHit m).isSome
    seen := (m.origin, m.aseq) :: l.seen.filter fun x => x.1 != m.origin }).linkEvent 4).sendOn (1 - p) { m with op := .abort }

section
variable {p : Fin 2} {s : State} {m : Msg} (hs : s.stationsOn = true)
include hs

/-- An ABORT of this chip, or one that was seen. -/
theorem exec_abort_seen (hp : (s.port p).state = 2) (h : m.origin = s.chipId ∨ (m.origin, m.aseq) ∈ s.main.link.seen) :
    exec (.abort p m) s = .next s.linkSettle := by
  refine congrArg Host.Outcome.next ((State.message_up m .abort hs hp).trans (congrArg State.linkSettle ?_))
  have hcond : (m.origin == s.chipId || s.main.link.seen.any fun x => x == (m.origin, m.aseq)) = true := by
    simpa using h
  exact if_pos hcond

/-- A new ABORT of another chip. -/
theorem exec_abort_new (hp : (s.port p).state = 2) (ho : m.origin ≠ s.chipId) (hn : (m.origin, m.aseq) ∉ s.main.link.seen) :
    exec (.abort p m) s = .next ((s.abortHit m).elim (s.forwardAbort p m) fun c => (s.forwardAbort p m).triggerReset c 2).linkSettle := by
  refine congrArg Host.Outcome.next ((State.message_up m .abort hs hp).trans (congrArg State.linkSettle ?_))
  have hcond : (m.origin == s.chipId || s.main.link.seen.any fun x => x == (m.origin, m.aseq)) = false := by
    rw [Bool.or_eq_false_iff, List.any_eq_false]
    exact ⟨beq_eq_false_iff_ne.mpr ho, fun x hx => by rw [beq_iff_eq]; rintro rfl; exact hn hx⟩
  change s.onAbort p { m with op := .abort } = _
  rw [State.onAbort, if_neg (by rw [hcond]; decide)]
  dsimp only
  change (match s.abortHit m with | some c => (s.forwardAbort p m).triggerReset c 2 | none => s.forwardAbort p m) = _
  cases s.abortHit m <;> rfl

/-- A new ABORT of a job that a context runs. -/
theorem exec_abort_hit (hp : (s.port p).state = 2) (ho : m.origin ≠ s.chipId) (hn : (m.origin, m.aseq) ∉ s.main.link.seen)
    {c : Fin 8} (hc : s.jobCtx m.job = some c) (hr : (s.ctx c).reset = none) :
    exec (.abort p m) s = .next ((s.forwardAbort p m).triggerReset c 2).linkSettle := by
  have hhit : s.abortHit m = some c := by
    rw [State.abortHit, hc, Option.filter_some, hr]
    rfl
  rw [exec_abort_new hs hp ho hn, hhit, Option.elim_some]

/-- A new ABORT of a job that no context runs. -/
theorem exec_abort_miss (hp : (s.port p).state = 2) (ho : m.origin ≠ s.chipId) (hn : (m.origin, m.aseq) ∉ s.main.link.seen)
    (hc : s.jobCtx m.job = none) : exec (.abort p m) s = .next (s.forwardAbort p m).linkSettle := by
  have hhit : s.abortHit m = none := by rw [State.abortHit, hc, Option.filter_none]
  rw [exec_abort_new hs hp ho hn, hhit, Option.elim_none]

theorem exec_hello (h : (s.port p).state = 1) (ht : (s.port p).trained = true) : exec (.hello p m) s =
    .next (if m.src = s.chipId then (s.modPort p fun x =>
      { x.restart with state := 0, trained := false, cause := 5, idConflict := true }).linkEvent 16
      else s.modPort p fun x => { x with state := 2, neighbour := m.src, idConflict := false }).linkSettle := by
  refine congrArg Host.Outcome.next ((State.when_of_true _ hs).trans (congrArg State.linkSettle ?_))
  rw [State.onHello, h, ht]
  rfl

end

/-! ## The settled statement -/

section
variable {p : Fin 2} {m : Msg} {s : State} (hs : s.stationsOn = true) (hp : (s.port p).state = 2) (hd : m.dst = s.chipId)
include hs hp hd

/-- The three responses with a tag, where no other condition decides. -/
theorem exec_responses_of_onTag {t : State} (h : ∀ f, s.onTag m.tag m.gen f = t) :
    ∀ row ∈ [Instr.readResp, .flushAck, .errResp], exec (row p m) s = .next t.linkSettle := by
  intro row hrow
  simp only [List.mem_cons, List.not_mem_nil, or_false] at hrow
  obtain rfl | rfl | rfl := hrow
  · exact (exec_readResp_here hs hp hd).trans (congrArg (fun u => Host.Outcome.next (State.linkSettle u)) (h _))
  · exact (exec_flushAck_here hs hp hd).trans (congrArg (fun u => Host.Outcome.next (State.linkSettle u)) (h _))
  · exact (exec_errResp_here hs hp hd).trans (congrArg (fun u => Host.Outcome.next (State.linkSettle u)) (h _))

section
variable {u : TagUse} {a : Active} (hu : s.main.link.tags[m.tag] = some u) (hg : m.gen = u.gen) (h : u.gen = (s.ctx u.ctx).gen)
  (hcur : (s.chan u.ch).cur = some a) (hrun : (s.chan u.ch).state = .running) (ha : a.awaits m.tag = true)
include hu hg h hcur hrun ha

theorem exec_readResp_awaited (hf : u.isFlush = false) : exec (.readResp p m) s =
    .next ((s.setTag m.tag none).modChan u.ch fun x => { x with retries := 0 }.withCur
      (Active.takeReplies a.reads.length { a with reads := setReply m.tag m.data a.reads })).linkSettle := by
  rw [exec_readResp_here hs hp hd, State.onReadResp, State.onTag_awaited hu hg h hcur hrun ha, if_neg (by rw [hf]; decide)]

theorem exec_flushAck_awaited (hf : u.isFlush = true) : exec (.flushAck p m) s =
    .next (if m.refused then (s.setTag m.tag none).chanHalt u.ch stBusError
        (haltDetail u.ch 1 (s.chan u.ch).starter.station 0) (some (errAddrOf m.off.toNat a.dstPeer))
      else (s.setTag m.tag none).modChan u.ch fun x => x.withCur { a with tag := none, done := true, flushing := false }).linkSettle := by
  rw [exec_flushAck_here hs hp hd, State.onFlushAck, State.onTag_awaited hu hg h hcur hrun ha, if_neg (by rw [hf]; decide)]
  rfl

theorem exec_errResp_awaited : exec (.errResp p m) s = .next (State.tagFails m.tag (s.setTag m.tag none) u a).linkSettle := by
  rw [exec_errResp_here hs hp hd, State.onErrResp, State.onTag_awaited hu hg h hcur hrun ha]

end

end

/-- Settles O56, message by message. -/
theorem linkMessages : Obligations.LinkMessages := by
  intro p m tag s hs rows
  refine ⟨fun h => ⟨fun row hrow => ?_, congrArg Host.Outcome.next (State.message_down { m with ch := 0 } _ h),
      congrArg Host.Outcome.next (State.message_down _ _ h)⟩,
    fun hp hd row hrow => ?_, ?_, fun t a ht => State.tagFails_read ht a, fun t a hu => exec_responseTimeout_awaited hs hu,
    exec_responseTimeout_free, exec_abort_seen hs, ?_, fun h ht => ⟨fun hne => ?_, fun he => ?_⟩⟩
  · rw [(exec_directed hrow).2.2, State.message_down _ _ h]
  · obtain ⟨habort, hhello, hexec⟩ := exec_directed hrow
    refine ⟨fun r hr => ?_, fun hr => ?_⟩ <;> rw [hexec, State.message_up m row.1 hs hp]
    · rw [State.arrive_routed { m with op := row.1 } habort hhello hd hr]
    · rw [State.arrive_unreachable { m with op := row.1 } habort hhello hd hr]
  · intro hp hd refused
    refine ⟨?_, fun note hnote => ?_, fun hc => ⟨?_, ?_, ?_⟩, fun src ch off => ?_, fun row hrow h => ?_, State.lostTag_of_unknown, ?_⟩
    · intro c hc b inside
      refine ⟨fun hin hright => ?_, fun hno => ?_, fun hin hright => ?_, fun hno => ?_, ?_, fun hn => ?_⟩
      · rw [exec_write_here hs hp hd,
          State.onWrite_allowed (m := { m with op := .write }) hc ((Binding.allows_iff _ _ _).mpr ⟨hin, hright⟩)]
      · rw [exec_write_here hs hp hd, State.onWrite_denied (m := { m with op := .write }) hc (Binding.not_allows hno)]
      · rw [exec_read_here hs hp hd,
          State.onRead_allowed (m := { m with op := .read }) hc ((Binding.allows_iff _ _ _).mpr ⟨hin, hright⟩)]
        rfl
      · rw [exec_read_here hs hp hd, State.onRead_denied (m := { m with op := .read }) hc (Binding.not_allows hno)]
        rfl
      · rw [exec_markAdd_here hs hp hd, State.onMarkAdd_bound (m := { m with ch := 0, op := .markAdd }) hc]
      · rw [exec_flush_here hs hp hd, State.onFlush_clean (m := { m with op := .flush }) hn, hc]
        rfl
    · rw [exec_flush_here hs hp hd, State.onFlush_refused (m := { m with op := .flush }) hnote]
      rfl
    · rw [exec_write_here hs hp hd, State.onWrite_unbound (m := { m with op := .write }) hc]
    · rw [exec_markAdd_here hs hp hd, State.onMarkAdd_unbound (m := { m with ch := 0, op := .markAdd }) hc]
    · refine ⟨?_, fun hn => ?_⟩
      · rw [exec_read_here hs hp hd, State.onRead_unbound (m := { m with op := .read }) hc]
        rfl
      · rw [exec_flush_here hs hp hd, State.onFlush_clean (m := { m with op := .flush }) hn, hc]
        rfl
    · rw [State.refuse_link]
      refine ⟨rfl, rfl, fun hno => if_neg ?_⟩
      rw [List.any_eq_true]
      rintro ⟨x, hx, hsame⟩
      exact hno x hx (by simpa using hsame)
    · exact exec_responses_of_onTag hs hp hd (fun f => State.onTag_lost h) row hrow
    · intro u hu hg v
      refine ⟨fun h => exec_responses_of_onTag hs hp hd fun f => State.onTag_stale hu hg h, fun a h hcur hrun ha =>
        ⟨exec_readResp_awaited hs hp hd hu hg h hcur hrun ha, fun hf hr => ?_, fun hf hr => ?_,
          exec_errResp_awaited hs hp hd hu hg h hcur hrun ha⟩⟩
      · rw [exec_flushAck_awaited hs hp hd hu hg h hcur hrun ha hf, if_neg (by rw [hr]; decide)]
      · rw [exec_flushAck_awaited hs hp hd hu hg h hcur hrun ha hf, if_pos hr]
  · intro hp ho hn noted forwarded
    exact ⟨fun c => exec_abort_hit hs hp ho hn, exec_abort_miss hs hp ho hn⟩
  · rw [exec_hello hs h ht, if_neg hne]
  · rw [exec_hello hs h ht, if_pos he]

end Sys2Proof.Machine

namespace Sys2Proof.Machine

/-! ## The order of the commands of a channel (R212) -/

/-- Whether a command counts as speculative in the order of a channel. -/
def NandOp.yields (o : NandOp) : Bool := o.spec.isSome && o.owner != .ctrl

theorem NandOp.before_iff {a b : NandOp} : a.before b = true ↔
    (a.yields = false ∧ b.yields = true) ∨ (a.yields = b.yields ∧ a.arrived < b.arrived) := by
  change (!a.yields && b.yields || a.yields == b.yields && decide (a.arrived < b.arrived)) = true ↔ _
  rw [Bool.or_eq_true, Bool.and_eq_true, Bool.and_eq_true, beq_iff_eq, decide_eq_true_iff, Bool.not_eq_true']

theorem NandOp.yields_iff {o : NandOp} : o.yields = true ↔ o.spec ≠ none ∧ o.owner ≠ .ctrl := by
  rw [NandOp.yields, Bool.and_eq_true, Option.isSome_iff_ne_none, bne_iff_ne]

theorem NandOp.before_irrefl (a : NandOp) : a.before a = false := by
  rw [← Bool.not_eq_true, NandOp.before_iff]
  rintro (⟨h, h'⟩ | ⟨-, h⟩)
  · rw [h] at h'
    cases h'
  · exact absurd h (Nat.lt_irrefl _)

theorem NandOp.before_trans {a b c : NandOp} (hab : a.before b = true) (hbc : b.before c = true) : a.before c = true := by
  rw [NandOp.before_iff] at *
  obtain ⟨ha, hb⟩ | ⟨hab, hlt⟩ := hab
  · obtain ⟨hb', -⟩ | ⟨hbc, -⟩ := hbc
    · rw [hb] at hb'
      cases hb'
    · exact .inl ⟨ha, hbc ▸ hb⟩
  · obtain ⟨hb, hc⟩ | ⟨hbc, hlt'⟩ := hbc
    · exact .inl ⟨hab.trans hb, hc⟩
    · exact .inr ⟨hab.trans hbc, hlt.trans hlt'⟩

/-- Between two commands in order, a third one comes behind the first or before the second. -/
theorem NandOp.before_split {a b c : NandOp} (hac : a.before c = true) : a.before b = true ∨ b.before c = true := by
  rw [NandOp.before_iff, NandOp.before_iff]
  rw [NandOp.before_iff] at hac
  obtain ⟨ha, hc⟩ | ⟨hac, hlt⟩ := hac
  · cases hb : b.yields with
    | true => exact .inl (.inl ⟨ha, rfl⟩)
    | false => exact .inr (.inl ⟨rfl, hc⟩)
  · rw [← hac]
    cases ha : a.yields <;> cases hb : b.yields <;> simp <;> omega

/-- One candidate compared with the first one so far. -/
def firstStep (b : Option (Fin 32 × NandOp)) (x : Fin 32 × NandOp) : Option (Fin 32 × NandOp) :=
  match b with
  | none => some x
  | some y => if x.2.before y.2 then some x else b

theorem firstOp_eq (l : List (Fin 32 × NandOp)) : firstOp l = l.foldl firstStep none := rfl

/-- The first one among a list and a candidate: none of them comes before it. -/
theorem foldl_firstStep (l : List (Fin 32 × NandOp)) (y : Fin 32 × NandOp) : ∃ r, l.foldl firstStep (some y) = some r ∧
    r ∈ y :: l ∧ ∀ e ∈ y :: l, e.2.before r.2 = false := by
  induction l generalizing y with
  | nil => exact ⟨y, rfl, List.mem_singleton.mpr rfl, fun e he => List.mem_singleton.mp he ▸ NandOp.before_irrefl _⟩
  | cons x l ih =>
    rw [List.foldl_cons, firstStep]
    cases hxy : x.2.before y.2 with
    | true =>
      obtain ⟨r, hr, hmem, hall⟩ := ih x
      refine ⟨r, by simpa using hr, List.mem_cons_of_mem _ hmem, fun e he => ?_⟩
      obtain rfl | he := List.mem_cons.mp he
      · by_contra hno
        have hx := NandOp.before_trans hxy (Bool.not_eq_false _ ▸ hno)
        rw [hall x List.mem_cons_self] at hx
        cases hx
      · exact hall e he
    | false =>
      obtain ⟨r, hr, hmem, hall⟩ := ih y
      refine ⟨r, by simpa using hr, ?_, fun e he => ?_⟩
      · obtain rfl | h := List.mem_cons.mp hmem
        · exact List.mem_cons_self
        · exact List.mem_cons_of_mem _ (List.mem_cons_of_mem _ h)
      · obtain rfl | he := List.mem_cons.mp he
        · exact hall e List.mem_cons_self
        · obtain rfl | he := List.mem_cons.mp he
          · by_contra hno
            obtain h | h := NandOp.before_split (b := y.2) (Bool.not_eq_false _ ▸ hno)
            · rw [hxy] at h
              cases h
            · rw [hall y List.mem_cons_self] at h
              cases h
          · exact hall e (List.mem_cons_of_mem _ he)

/-- The first command of a list. -/
theorem firstOp_eq_some {l : List (Fin 32 × NandOp)} {r : Fin 32 × NandOp} (h : firstOp l = some r) :
    r ∈ l ∧ ∀ e ∈ l, e.2.before r.2 = false := by
  cases l with
  | nil => cases h
  | cons y l =>
    rw [firstOp_eq] at h
    obtain ⟨r', hr, hmem, hall⟩ := foldl_firstStep l y
    obtain rfl : r' = r := Option.some.inj (hr.symm.trans h)
    exact ⟨hmem, hall⟩

theorem State.busCommand_of_stopped {s : State} (h : s.nandMayStart = false) (ch : Nat) : s.busCommand ch = none := by
  rw [State.busCommand, h]
  rfl

/-- The command that a channel bus carries next. -/
theorem State.busCommand_eq_some {s : State} {ch : Nat} {v : Fin 32} {o : NandOp} (h : s.busCommand ch = some (v, o)) :
    v.val % 4 = ch ∧ s.nextCommand v = some o ∧ ∀ w o', w.val % 4 = ch → s.nextCommand w = some o' → o'.before o = false := by
  rw [State.busCommand] at h
  split at h
  case isFalse => cases h
  case isTrue =>
    have hmem : ∀ w o', (w, o') ∈ (channelLuns ch).filterMap (fun u => (s.nextCommand u).map fun o => (u, o)) ↔
        w.val % 4 = ch ∧ s.nextCommand w = some o' := by
      intro w o'
      rw [List.mem_filterMap]
      constructor
      · rintro ⟨u, hu, hou⟩
        obtain ⟨x, hx, heq⟩ := Option.map_eq_some_iff.mp hou
        cases heq
        exact ⟨by simpa [channelLuns, lunChannel] using hu, hx⟩
      · rintro ⟨hw, ho⟩
        exact ⟨w, by simpa [channelLuns, lunChannel] using hw, by rw [ho, Option.map_some]⟩
    obtain ⟨hin, hall⟩ := firstOp_eq_some h
    obtain ⟨hv, ho⟩ := (hmem v o).mp hin
    exact ⟨hv, ho, fun w o' hw ho' => hall (w, o') ((hmem w o').mpr ⟨hw, ho'⟩)⟩

/-! ## The queue of a LUN (R211, R212) -/

theorem NandOp.ne_read_of_writes {a : NandOp} (h : a.writes = true) : a.kind ≠ .read := by
  intro hk
  rw [NandOp.writes, hk] at h
  cases h

theorem NandOp.writes_of_read {o : NandOp} (h : o.kind = .read) : o.writes = false := by
  rw [NandOp.writes, h]
  rfl

theorem readyReads_subset (pe q : List NandOp) : ∀ o ∈ readyReads pe q, o ∈ q := by
  induction q generalizing pe with
  | nil => exact fun o h => h
  | cons x q ih =>
    intro o ho
    rw [readyReads] at ho
    split at ho
    · exact List.mem_cons_of_mem _ (ih _ o ho)
    · split at ho
      · exact List.mem_cons_of_mem _ (ih _ o ho)
      · obtain rfl | h := List.mem_cons.mp ho
        · exact List.mem_cons_self
        · exact List.mem_cons_of_mem _ (ih _ o h)

/-- A read that may start passes no program or erase of its block. -/
theorem readyReads_block {pe q : List NandOp} {a : NandOp} (ha : a ∈ pe) : ∀ o ∈ readyReads pe q, o.block ≠ a.block := by
  induction q generalizing pe with
  | nil => exact fun o h => absurd h List.not_mem_nil
  | cons x q ih =>
    intro o ho
    rw [readyReads] at ho
    split at ho
    · exact ih (List.mem_append_left _ ha) o ho
    · split at ho
      · exact ih ha o ho
      · rename_i hfree
        obtain rfl | h := List.mem_cons.mp ho
        · intro hblock
          exact hfree (List.any_eq_true.mpr ⟨a, ha, by simpa using hblock.symm⟩)
        · exact ih ha o h

theorem openPart_subset {q : List NandOp} {o : NandOp} (h : o ∈ openPart q) : o ∈ q := List.takeWhile_subset _ h

theorem openPart_cons {a : NandOp} (h : a.kind = .read ∨ a.writes = true) (q : List NandOp) : openPart (a :: q) = a :: openPart q := by
  refine List.takeWhile_cons_of_pos ?_
  rw [Bool.or_eq_true, beq_iff_eq]
  exact h

/-- The entry that an operation is paired with (R212). -/
theorem pairOf_eq_some {q : List NandOp} {o p : NandOp} (h : pairOf q o = some p) : p ∈ q ∧ p.kind = o.kind ∧ p.seq = o.seq ∧
    p.page = o.page ∧ p.block = o.block ^^^ 1 ∧ o.mp = true ∧ p.mp = true := by
  have hmate : p ∈ q ∧ (o.mp && p.mp && p.seq == o.seq && p.kind == o.kind && p.page == o.page && p.block == o.block ^^^ 1) = true := by
    rw [pairOf] at h
    split at h
    · exact ⟨openPart_subset (readyReads_subset _ _ _ (List.mem_of_find?_eq_some h)),
        List.find?_some (p := fun p : NandOp =>
          o.mp && p.mp && p.seq == o.seq && p.kind == o.kind && p.page == o.page && p.block == o.block ^^^ 1) h⟩
    · obtain ⟨hfind, hcond⟩ := Option.filter_eq_some_iff.mp h
      exact ⟨openPart_subset (List.mem_of_find?_eq_some hfind), hcond⟩
  obtain ⟨hq, hcond⟩ := hmate
  simp only [Bool.and_eq_true, beq_iff_eq] at hcond
  obtain ⟨⟨⟨⟨⟨hmp, hmp'⟩, hseq⟩, hkind⟩, hpage⟩, hblock⟩ := hcond
  exact ⟨hq, hkind, hseq, hpage, hblock, hmp, hmp'⟩

theorem readyReads_pair {a o : NandOp} (ho : o.kind = .read) : readyReads [a] (openPart [o]) = if o.block = a.block then [] else [o] := by
  have hopen : openPart [o] = [o] := openPart_cons (.inl ho) []
  rw [hopen, readyReads, if_neg (by rw [NandOp.writes_of_read ho]; decide), List.any_cons, List.any_nil, Bool.or_false, readyReads]
  by_cases h : o.block = a.block
  · rw [if_pos h, if_pos (by simpa using h.symm)]
  · rw [if_neg h, if_neg (by simpa using Ne.symm h)]

section
variable {a o : NandOp} (ha : a.writes = true)
include ha

/-- The choice of a queue whose oldest entry is a program or erase: it, or a read of another block. -/
theorem pickOp_of_write (q : List NandOp) : pickOp (a :: q) = if 64 ≤ a.overtaken then some a
    else ((readyReads [a] (openPart q)).find? fun o => o.spec.isNone).orElse fun _ =>
      (readyReads [a] (openPart q)).head?.orElse fun _ => some a := by
  have hreads : readyReads [] (a :: openPart q) = readyReads [a] (openPart q) := by
    rw [readyReads, if_pos ha, List.nil_append]
  rw [pickOp]
  dsimp only
  rw [openPart_cons (.inr ha), if_neg (List.cons_ne_nil _ _), hreads, List.find?_cons_of_pos ha]

theorem pickOp_late (h : 64 ≤ a.overtaken) (q : List NandOp) : pickOp (a :: q) = some a := by
  rw [pickOp_of_write ha, if_pos h]

variable (ho : o.kind = .read)
include ho

theorem pickOp_block {q : List NandOp} (h : pickOp (a :: q) = some o) : o.block ≠ a.block := by
  have hne : a ≠ o := fun he => NandOp.ne_read_of_writes ha (he ▸ ho)
  rw [pickOp_of_write ha] at h
  split at h
  · exact absurd (Option.some.inj h) hne
  · refine readyReads_block (List.mem_singleton.mpr rfl) o (q := openPart q) ?_
    cases hfind : (readyReads [a] (openPart q)).find? fun o => o.spec.isNone with
    | some r =>
      rw [hfind] at h
      exact Option.some.inj h ▸ List.mem_of_find?_eq_some hfind
    | none =>
      rw [hfind] at h
      cases hhead : (readyReads [a] (openPart q)).head? with
      | some r =>
        rw [hhead] at h
        exact Option.some.inj h ▸ List.mem_of_mem_head? hhead
      | none =>
        rw [hhead] at h
        exact absurd (Option.some.inj h) hne

/-- A read of another block passes a program or erase that was not overtaken too often. -/
theorem pickOp_passes (hlt : a.overtaken < 64) (hs : o.spec = none) (hb : o.block ≠ a.block) : pickOp [a, o] = some o := by
  rw [pickOp_of_write ha, if_neg (Nat.not_le.mpr hlt), readyReads_pair ho, if_neg hb,
    List.find?_cons_of_pos (by rw [hs]; rfl)]
  rfl

theorem pickOp_waits (hb : o.block = a.block) : pickOp [a, o] = some a := by
  rw [pickOp_of_write ha, readyReads_pair ho, if_pos hb]
  split <;> rfl

theorem leaveQueue_overtakes : leaveQueue [a, o] o = [{ a with overtaken := a.overtaken + 1 }] := by
  have hne : a ≠ o := fun he => NandOp.ne_read_of_writes ha (he ▸ ho)
  rw [leaveQueue, if_neg hne, ha, ho, if_pos (by rfl), leaveQueue, if_pos rfl, NandOp.writes_of_read ho]
  rfl

end

/-- A program or erase that starts ends the row of overtakings of those behind it. -/
theorem leaveQueue_write {a : NandOp} (ha : a.writes = true) (q : List NandOp) : ∀ p ∈ leaveQueue (a :: q) a, p.overtaken = 0 := by
  rw [leaveQueue, if_pos rfl, if_pos ha]
  intro p hp
  obtain ⟨x, -, rfl⟩ := List.mem_map.mp hp
  rfl

end Sys2Proof.Machine

namespace Sys2Proof.Machine

/-! ## A LUN changed -/

theorem State.modLun_lun (s : State) (u : Fin 32) (f : Lun → Lun) : (s.modLun u f).lun u = f (s.lun u) := upd_get_same _ _ _

theorem State.modLun_lun_ne (s : State) {u v : Fin 32} (h : u ≠ v) (f : Lun → Lun) : (s.modLun u f).lun v = s.lun v :=
  upd_get_ne _ _ h

theorem State.modLun_congr {s : State} {u : Fin 32} {f g : Lun → Lun} (h : f (s.lun u) = g (s.lun u)) : s.modLun u f = s.modLun u g := by
  unfold State.lun at h
  simp only [State.modLun, State.modNfc, State.modMain, upd, h]

theorem State.modLun_modLun (s : State) (u : Fin 32) (f g : Lun → Lun) : (s.modLun u f).modLun u g = s.modLun u fun l => g (f l) := by
  simp only [State.modLun, State.modNfc, State.modMain, upd_upd]

theorem State.modNfc_congr {s : State} {f g : Nfc → Nfc} (h : f s.main.nfc = g s.main.nfc) : s.modNfc f = s.modNfc g := by
  simp only [State.modNfc, State.modMain, h]

theorem lunMate_ne (u : Fin 32) : lunMate u ≠ u := by
  revert u
  decide

/-! ## The start of an operation (R211, R212, R215, R216, R218) -/

theorem State.writeDie_of_still {o : NandOp} (h : o.writes = false) (u : Fin 32) (s : State) : s.writeDie u o = s := by
  rw [NandOp.writes, Bool.or_eq_false_iff, beq_eq_false_iff_ne, beq_eq_false_iff_ne] at h
  obtain ⟨hp, he⟩ := h
  rw [State.writeDie, if_neg hp, if_neg he]

section
variable {u : Fin 32} {s : State}

theorem exec_nandOperationStart_idle (h : ∀ o, s.busCommand (u.val % 4) ≠ some (u, o)) : exec (.nandOperationStart u) s = .next s := by
  change execNandOperationStart u s = _
  rw [execNandOperationStart]
  cases hb : s.busCommand (lunChannel u) with
  | none => rfl
  | some x =>
    obtain ⟨v, o⟩ := x
    have hne : v ≠ u := fun e => h o (e ▸ hb)
    exact congrArg Host.Outcome.next (if_pos (bne_iff_ne.mpr hne))

theorem exec_nandOperationStart_due {o : NandOp} (h : s.busCommand (u.val % 4) = some (u, o)) : exec (.nandOperationStart u) s =
    .next (if o.kind = .reset then s.startReset u o else if o.owner = .ctrl then s.startSetup u o else s.startOp u o) := by
  change execNandOperationStart u s = _
  rw [execNandOperationStart, show s.busCommand (lunChannel u) = some (u, o) from h]
  exact congrArg Host.Outcome.next (if_neg (by rw [bne_self_eq_false]; decide))

/-- A program or erase of block 0 of LUN 0 without BOOT_WRITE. -/
theorem State.startOp_guarded {o : NandOp} (h : o.writes = true ∧ u = 0 ∧ o.block = 0 ∧ s.main.nfc.bootWrite = false) :
    s.startOp u o = ((s.modLun u fun l => { l with queue := leaveQueue (s.lun u).queue o }).opEnded o
      (some (stBusError, nandDetail u.val 5 (s.main.nfc.opRow o)))).nandSettle := by
  have hcond : (o.writes && u == 0 && decide (o.block = 0) && !s.main.nfc.bootWrite) = true := by
    obtain ⟨hw, hu, hb, hboot⟩ := h
    rw [hw, hu, hb, hboot]
    rfl
  rw [State.startOp]
  dsimp only
  rw [if_pos hcond, State.modLun_congr (g := fun l => { l with queue := leaveQueue (s.lun u).queue o }) rfl]

/-- Any other operation of a stream, with its pair. -/
theorem State.startOp_free {o : NandOp} (h : ¬ (o.writes = true ∧ u = 0 ∧ o.block = 0 ∧ s.main.nfc.bootWrite = false)) :
    let q := leaveQueue (s.lun u).queue o
    let c : InFlight := { op := o, pair := pairOf q o }
    s.startOp u o = ((c.ops.foldl (fun s o => s.writeDie u o)
      (s.modLun u fun l => { l with cur := some c, queue := c.pair.elim q (leaveQueue q) })).send u (c.cycles s.main.nfc)).nandSettle := by
  intro q c
  have hcond : ¬ (o.writes && u == 0 && decide (o.block = 0) && !s.main.nfc.bootWrite) = true := by
    simpa [and_assoc] using h
  rw [State.startOp]
  dsimp only
  rw [if_neg hcond, State.modLun_lun]
  dsimp only
  have hlun : (s.modLun u fun l => { l with queue := leaveQueue l.queue o }).modLun u
      (fun l => { l with cur := some c, queue := c.pair.elim l.queue (leaveQueue l.queue) }) =
      s.modLun u fun l => { l with cur := some c, queue := c.pair.elim q (leaveQueue q) } :=
    (s.modLun_modLun u _ _).trans (State.modLun_congr rfl)
  rw [← hlun]

end

/-- What a RESET leaves of the two LUNs of its target (R215, R216). -/
theorem State.startReset_luns (s : State) (u : Fin 32) (o : NandOp) : let v := s.startReset u o
    (v.lun u).cur = some { op := o } ∧ (v.lun u).resetPend = false ∧ (v.lun (lunMate u)).resetPend = false ∧
      (v.lun (lunMate u)).cur = (s.lun (lunMate u)).cur.bind fun c => c.cut s.main.nfc := by
  intro v
  have hown : v.lun u = { (s.lun u).cleared with cur := some { op := o }, queue := leaveQueue (s.lun u).cleared.queue o } := by
    change ((State.modLun _ (lunMate u) _).lun u) = _
    rw [State.modLun_lun_ne _ (lunMate_ne u), State.modLun_lun]
  have hmate : v.lun (lunMate u) =
      { (s.lun (lunMate u)).cleared with cur := (s.lun (lunMate u)).cur.bind fun c => c.cut s.main.nfc } := by
    change ((State.modLun _ (lunMate u) _).lun (lunMate u)) = _
    rw [State.modLun_lun, State.modLun_lun_ne _ (lunMate_ne u).symm]
  rw [hown, hmate]
  exact ⟨rfl, rfl, rfl, rfl⟩

/-- A read that a RESET cuts waits to be issued again. -/
theorem InFlight.cut_read {c : InFlight} {n : Nfc} (hk : c.op.kind = .read) (hi : c.ignored = false) (hd : c.decodedAll n = false) :
    c.cut n = some { c with ready := false, moved := false, tried := 0, again := true } := by
  have hcond : (c.op.writes || (c.ready && (c.op.kind != .read || c.decodedAll n))) = false := by
    rw [NandOp.writes_of_read hk, hk, hd, bne_self_eq_false, Bool.or_self, Bool.and_false, Bool.or_self]
  rw [InFlight.cut, hi, if_neg (by decide), hcond, if_neg (by decide)]

/-! ## The bytes of the die (R202, R204 to R206) -/

section
variable {s : State} (hw : s.nand.wf = true) {u : Fin 32} {o : NandOp}
include hw

theorem State.writeDie_program (hk : o.kind = .program) :
    let img := pageImage s.main.nfc u.val (s.main.nfc.row o.block o.page) o.profile.val (s.programData o)
    (s.writeDie u o).flash u.val (s.main.nfc.row o.block o.page) 0 img.length = img ∧
      ∀ a, (a < nandKey u.val (s.main.nfc.row o.block o.page) ∨ nandKey u.val (s.main.nfc.row o.block o.page) + img.length ≤ a) →
        (s.writeDie u o).nand.read a = s.nand.read a := by
  intro img
  have hlen : (img.map (~~~ ·)).length = img.length := List.length_map _
  have hnand : (s.writeDie u o).nand = s.nand.writeBytes (nandKey u.val (s.main.nfc.row o.block o.page)) (img.map (~~~ ·)) := by
    rw [State.writeDie, if_pos hk]
  rw [State.flash, hnand, Nat.add_zero]
  refine ⟨?_, fun a ha => Memory.read_writeBytes_out hw (by rw [hlen]; exact ha)⟩
  have hread := Memory.readBytes_writeBytes hw (nandKey u.val (s.main.nfc.row o.block o.page)) (img.map (~~~ ·))
  rw [hlen] at hread
  rw [hread, List.map_map]
  refine (List.map_congr_left fun b _ => ?_).trans (List.map_id _)
  exact BitVec.not_not

theorem State.writeDie_erase (hk : o.kind = .erase) : ∀ a < 2 ^ 15 * 2 ^ s.main.nfc.pageBits.toNat,
    (s.writeDie u o).nand.read (nandKey u.val (s.main.nfc.row o.block 0) + a) = 0 := by
  intro a ha
  rw [State.writeDie, if_neg (by rw [hk]; decide), if_pos hk]
  exact Memory.read_zeroFill_in hw (Nat.le_add_right _ _) (Nat.add_lt_add_left ha _)

end

/-! ## Status (R197, R214) -/

section
variable {s : State} (hs : s.serving = true) {u : Fin 32} {c : InFlight} (hc : (s.lun u).cur = some c)
include hc

theorem exec_statusPoll (ready fail : Bool) : exec (.statusPoll u ready fail) s = .next (s.when (s.serving && !c.ready && !c.again) fun s =>
    (s.send u [.command 0x78, .row (s.main.nfc.opRow c.op)]).when ready fun s => s.polled u c fail) := by
  change execStatusPoll u ready fail s = _
  rw [execStatusPoll, hc]

theorem exec_statusPoll_over (ready fail : Bool) (h : c.ready = true ∨ c.again = true) : exec (.statusPoll u ready fail) s = .next s := by
  have hcond : (s.serving && !c.ready && !c.again) = false := by
    obtain h | h := h
    · rw [h, Bool.not_true, Bool.and_false, Bool.false_and]
    · rw [h, Bool.not_true, Bool.and_false]
  rw [exec_statusPoll hc, State.when_of_false _ hcond]

include hs

theorem exec_statusPoll_sent (hr : c.ready = false) (ha : c.again = false) (ready fail : Bool) : exec (.statusPoll u ready fail) s =
    .next ((s.send u [.command 0x78, .row (s.main.nfc.opRow c.op)]).when ready fun s => s.polled u c fail) := by
  rw [exec_statusPoll hc, State.when_of_true _ (by rw [hs, hr, ha]; rfl)]

end

section
variable {s : State} {u : Fin 32} {c : InFlight}

/-- An operation past its bound no longer occupies the die. -/
theorem State.polled_ignored (hi : c.ignored = true) (hr : (s.lun u).resetPend = false) (fail : Bool) :
    s.polled u c fail = (s.modLun u fun l => { l with cur := none }).nandSettle := by
  rw [State.polled, if_pos hi, hr, if_neg (by decide)]

variable (hi : c.ignored = false)
include hi

theorem State.polled_setting (hp : c.phase = .setting) (fail : Bool) : s.polled u c fail =
    (s.modLun u fun l => { l with cur := some { c with phase := .page } }).send u (c.op.cycles s.main.nfc true) := by
  rw [State.polled, if_neg (by rw [hi]; decide), hp]

theorem State.polled_restoring (hp : c.phase = .restoring) (fail : Bool) : s.polled u c fail =
    s.modLun u fun l => { l with cur := some { c with ready := true, phase := .restored } } := by
  rw [State.polled, if_neg (by rw [hi]; decide), hp]

theorem State.polled_page (hp : c.phase = .page) (fail : Bool) : s.polled u c fail =
    (s.modLun u fun l => { l with cur := some { c with ready := true, fail := fail } }).flrCheck := by
  rw [State.polled, if_neg (by rw [hi]; decide), hp]

end

theorem NandOp.cycles_send (o : NandOp) (s : State) (u : Fin 32) (cs : List BusCycle) (b : Bool) :
    o.cycles (s.send u cs).main.nfc b = o.cycles s.main.nfc b := rfl

/-! ## Decoding (R205 to R209) -/

section
variable {s : State} {u : Fin 32} {c : InFlight} {k : Fin 5}

theorem exec_codewordDecode (hs : s.serving = true) (hc : (s.lun u).cur = some c) (hdue : s.decodeDue u c k = true)
    (outcome : DecodeOutcome) : exec (.codewordDecode u k outcome) s =
      .next (((s.beginMove u c).decodeOne u { c with moved := true } k outcome).ladderStep u) := by
  change execCodewordDecode u k outcome s = _
  rw [execCodewordDecode, hc]
  exact congrArg Host.Outcome.next (State.when_of_true _ (by rw [hs, hdue]; rfl))

theorem NandOp.mem_wanted {o : NandOp} : k ∈ o.wanted ↔ o.cwFirst ≤ k.val ∧ k.val ≤ o.cwLast := by
  rw [NandOp.wanted, List.mem_filter, Bool.and_eq_true, decide_eq_true_iff, decide_eq_true_iff]
  exact and_iff_right (List.mem_finRange k)

/-- A codeword that is there to be decoded. -/
theorem State.decodeDue_of (hk : c.op.kind = .read) (hp : c.phase = .page) (hr : c.ready = true) (hi : c.ignored = false)
    (hraw : c.op.raw = false) (hall : c.decodedAll s.main.nfc = false) (hfirst : c.op.cwFirst ≤ k.val) (hlast : k.val ≤ c.op.cwLast)
    (hdec : c.decoded.getLsbD k.val = false) (htry : c.tried.getLsbD k.val = false) (hst : s.readStale c.op = false)
    (hmove : s.mayMove u c = true) : s.decodeDue u c k = true := by
  have hwant : c.op.wanted.contains k = true := List.contains_iff_mem.mpr (NandOp.mem_wanted.mpr ⟨hfirst, hlast⟩)
  rw [State.decodeDue, hk, hp, hr, hi, hraw, hall, hwant, hdec, htry, hst, hmove]
  rfl

/-- The transfer of a page changes neither the die nor the active set. -/
theorem State.beginMove_still (s : State) (u : Fin 32) (c : InFlight) : (s.beginMove u c).nand = s.nand ∧
    (s.beginMove u c).main.nfc.cfg = s.main.nfc.cfg ∧ (s.beginMove u c).main.nfc.pageBits = s.main.nfc.pageBits := by
  unfold State.beginMove
  dsimp only
  split
  · exact ⟨rfl, rfl, rfl⟩
  · exact ⟨rfl, rfl, rfl⟩

/-- Whether a codeword counts as erased depends on the die and the active set alone, and so does what its metadata shows. -/
theorem State.codeword_still {s t : State} (hn : t.nand = s.nand) (hcfg : t.main.nfc.cfg = s.main.nfc.cfg) (u row k profile : Nat) :
    t.cwErased u row k profile = s.cwErased u row k profile ∧ t.metaOk u row k profile = s.metaOk u row k profile := by
  constructor
  · rw [State.cwErased, State.cwErased, Nfc.prof, Nfc.prof, hn, hcfg]
  · rw [State.metaOk, State.metaOk, State.codeword, State.codeword, State.flash, State.flash, Nfc.prof, Nfc.prof, hn, hcfg]

end

section
variable {t : State} {u : Fin 32} {c : InFlight} {k : Fin 5}

/-- An erased codeword is delivered as such. -/
theorem State.decodeOne_erased (h : c.ladder = 0 ∧ t.cwErased u.val (t.main.nfc.row c.op.block c.op.page) k.val c.op.profile.val = true)
    (outcome : DecodeOutcome) : t.decodeOne u c k outcome =
      (t.modNfc fun n => { n with counts := upd n.counts 4 (· + 1) }).setRead u { c with decoded := setBit c.decoded k.val true } := by
  unfold State.decodeOne
  rw [h.2, if_pos (by rw [decide_eq_true h.1]; rfl)]
  rfl

section
variable (h : ¬ (c.ladder = 0 ∧ t.cwErased u.val (t.main.nfc.row c.op.block c.op.page) k.val c.op.profile.val = true))
include h

theorem State.decodeOne_fails : t.decodeOne u c k .fails = t.setRead u { c with tried := setBit c.tried k.val true } := by
  rw [State.decodeOne, if_neg (by simpa using h)]

/-- A codeword decoded with the metadata that the controller expects. -/
theorem State.decodeOne_corrected (hm : t.metaOk u.val (t.main.nfc.row c.op.block c.op.page) k.val c.op.profile.val = true)
    (bits : BitVec 16) : t.decodeOne u c k (.corrected bits) = (t.modNfc fun n => { n with
      counts := upd n.counts (if c.ladder = 0 then 0 else if c.ladder ≤ n.softCount then 1 else 2) (· + 1)
      hist := upd n.hist (n.bin bits.toNat) (· + 1) }).setRead u { c with decoded := setBit c.decoded k.val true } := by
  have hcount : t.cwCorrected u c k bits.toNat = (t.modNfc fun n => { n with
      counts := upd n.counts (t.main.nfc.stepCount c.ladder) (· + 1)
      hist := upd n.hist (n.bin bits.toNat) (· + 1) }).setRead u { c with decoded := setBit c.decoded k.val true } := by
    have hmeta : (((t.countNand (t.main.nfc.stepCount c.ladder)).modNfc fun n =>
        { n with hist := upd n.hist (n.bin bits.toNat) (· + 1) }).metaOk u.val (t.main.nfc.row c.op.block c.op.page) k.val
          c.op.profile.val) = true := (State.codeword_still (s := t) rfl rfl _ _ _ _).2.trans hm
    rw [State.cwCorrected]
    exact if_pos hmeta
  rw [State.decodeOne, if_neg (by simpa using h)]
  rw [hcount]
  exact congrArg (fun s : State => s.setRead u _) (State.modNfc_congr rfl)

end

/-! ## The ladder (R208, R209) -/

/-- The codewords of a read that are still to be decoded. -/
def InFlight.left (c : InFlight) : List (Fin 5) := c.op.wanted.filter fun k => !c.decoded.getLsbD k.val

section
variable {s : State} (hc : (s.lun u).cur = some c)
include hc

theorem State.ladderStep_done (h : c.left = []) :
    s.ladderStep u = if c.applied s.main.nfc then s.restoreSet u c else s.setRead u c := by
  simp only [State.ladderStep, hc]
  exact if_pos h

theorem State.ladderStep_waits (h : c.left ≠ []) (ht : ∃ k ∈ c.left, c.tried.getLsbD k.val = false) : s.ladderStep u = s := by
  simp only [State.ladderStep, hc]
  refine (if_neg h).trans (if_pos ?_)
  obtain ⟨k, hk, hf⟩ := ht
  rw [Bool.not_eq_true', ← Bool.not_eq_true, List.all_eq_true]
  intro hall
  rw [hall k hk] at hf
  cases hf

theorem State.ladderStep_next (h : c.left ≠ []) (ht : ∀ k ∈ c.left, c.tried.getLsbD k.val = true)
    (hl : c.ladder < s.main.nfc.softCount + s.main.nfc.retryCount) : s.ladderStep u =
      (s.setRead u { c with ladder := c.ladder + 1, phase := .setting, tried := 0, ready := false, moved := false }).send u
        (setCycles (s.main.nfc.stepSet (c.ladder + 1))) := by
  simp only [State.ladderStep, hc]
  refine (if_neg h).trans ((if_neg ?_).trans (if_pos hl))
  rw [Bool.not_eq_true', Bool.not_eq_false, List.all_eq_true]
  exact ht

end

/-! ## The end of an operation (R202, R209, R213, R214, R216) -/

/-- What an operation that is ready does at its end, by its kind. -/
def State.endKind (s : State) (u : Fin 32) (c : InFlight) (data : List (BitVec 8)) : State :=
  match c.op.kind with
  | .read => s.endRead u c
  | .program | .erase =>
    if c.fail then (s.spoil u.val c.op).endOp u c (some (stBusError, nandDetail u.val (nandClass c.op.kind) (s.main.nfc.opRow c.op)))
    else s.endOp u c none
  | .setFeatures => (s.when (c.op.owner == .ctrl) fun s => s.setupDone u).endOp u c none
  | .getFeatures => (s.nandData c.op (padTo 4 data)).endOp u c none
  | .readParam =>
    if data = [] then s.endOp u c (some (stBusError, nandDetail u.val 3 (s.main.nfc.opRow c.op)))
    else (s.nandData c.op (padTo 256 data)).endOp u c none
  | .reset => ((s.modLun u fun l => { l with setup := true }).modLun (lunMate u) fun l => { l with setup := true }).endOp u c none

theorem exec_nandOperationEnd {s : State} (hs : s.serving = true) (hc : (s.lun u).cur = some c) (hr : c.ready = true)
    (hi : c.ignored = false) (data : List (BitVec 8)) : exec (.nandOperationEnd u data) s = .next (s.endKind u c data) := by
  change execNandOperationEnd u data s = _
  rw [execNandOperationEnd, hc]
  refine congrArg Host.Outcome.next ((State.when_of_true _ (by rw [hs, hr, hi]; rfl)).trans ?_)
  unfold State.endKind
  cases c.op.kind <;> rfl

section
variable {s : State} (data : List (BitVec 8))

theorem State.endKind_write (hk : c.op.kind = .program ∨ c.op.kind = .erase) : s.endKind u c data =
    if c.fail then (s.spoil u.val c.op).endOp u c (some (stBusError, nandDetail u.val (nandClass c.op.kind) (s.main.nfc.opRow c.op)))
    else s.endOp u c none := by
  obtain hk | hk := hk <;> rw [State.endKind, hk]

theorem State.endKind_read (hk : c.op.kind = .read) : s.endKind u c data = s.endRead u c := by rw [State.endKind, hk]

theorem State.endKind_setFeatures (hk : c.op.kind = .setFeatures) :
    s.endKind u c data = (s.when (c.op.owner == .ctrl) fun s => s.setupDone u).endOp u c none := by rw [State.endKind, hk]

theorem State.endKind_getFeatures (hk : c.op.kind = .getFeatures) :
    s.endKind u c data = (s.nandData c.op (padTo 4 data)).endOp u c none := by rw [State.endKind, hk]

theorem State.endKind_readParam (hk : c.op.kind = .readParam) : s.endKind u c data =
    if data = [] then s.endOp u c (some (stBusError, nandDetail u.val 3 (s.main.nfc.opRow c.op)))
    else (s.nandData c.op (padTo 256 data)).endOp u c none := by rw [State.endKind, hk]

theorem State.endKind_reset (hk : c.op.kind = .reset) : s.endKind u c data =
    ((s.modLun u fun l => { l with setup := true }).modLun (lunMate u) fun l => { l with setup := true }).endOp u c none := by
  rw [State.endKind, hk]

/-- A read that still wants codewords goes on. -/
theorem State.endRead_goes_on (hst : s.readStale c.op = false) (hd : c.decodedAll s.main.nfc = false) : s.endRead u c = s := by
  rw [State.endRead]
  exact if_pos (by rw [hst, hd]; rfl)

section
variable (hd : c.decodedAll s.main.nfc = true) (hraw : c.op.raw = false ∨ s.mayMove u c = true)
include hd hraw

theorem State.endRead_over : s.endRead u c = if c.applied s.main.nfc && c.phase != .restored then s.restoreSet u c
    else ((s.nandData c.op (s.deliverPage u c)).nextStamp).endOp u c
      (c.uncorr.map fun k => (stEcc, nandDetail u.val k.val (s.main.nfc.opRow c.op))) := by
  have hcond : (!s.readStale c.op && (!c.decodedAll s.main.nfc || (c.op.raw && !s.mayMove u c))) = false := by
    obtain h | h := hraw
    · rw [hd, h, Bool.not_true, Bool.false_and, Bool.or_self, Bool.and_false]
    · rw [hd, h, Bool.not_true, Bool.and_false, Bool.or_self, Bool.and_false]
  rw [State.endRead]
  exact if_neg (by rw [hcond]; decide)

end

end

/-! ## Timeouts (R215) -/

theorem exec_nandTimeout_reset {s : State} (hs : s.serving = true) (hc : (s.lun u).cur = some c) (hr : c.ready = false)
    (ha : c.again = false) (hk : c.op.kind = .reset) : exec (.nandTimeout u) s = .next (s.loseTarget u c.op).nandSettle := by
  change execNandTimeout u s = _
  rw [execNandTimeout, hc]
  exact congrArg Host.Outcome.next ((State.when_of_true _ (by rw [hs, hr, ha]; rfl)).trans (if_pos hk))

theorem exec_nandTimeout_op {s : State} (hs : s.serving = true) (hc : (s.lun u).cur = some c) (hr : c.ready = false)
    (ha : c.again = false) (hk : c.op.kind ≠ .reset) (hi : c.ignored = false) :
    let marked := if c.op.writes then c.ops.foldl (fun s o => (s.suspect u o stTimeoutNand).spoil u.val o) s else s
    exec (.nandTimeout u) s = .next (c.ops.foldl (fun s o =>
        s.opEnded o (some (stTimeoutNand, nandDetail u.val (nandClass o.kind) (s.main.nfc.opRow o))))
      (marked.modLun u fun l => { l.needReset c.op with cur := some { c with ignored := true } })).nandSettle := by
  change execNandTimeout u s = _
  rw [execNandTimeout, hc]
  exact congrArg Host.Outcome.next ((State.when_of_true _ (by rw [hs, hr, ha]; rfl)).trans
    ((if_neg hk).trans (if_neg (by rw [hi]; decide))))

/-! ## The staged set (R204, R362) -/

theorem Nfc.fixProf_eq (n : Nfc) (r : BitVec 64) : n.fixProf r =
    if n.pageBytes < profCpp r * profWords r ∨ 47 < field r 5 0 then r &&& ~~~0x700 else r := by
  simp only [Nfc.fixProf, Bool.or_eq_true, decide_eq_true_iff]

theorem exec_nfcCommit {s : State} (hs : s.serving = true) : exec .nfcCommit s = .next (s.modNfc fun n =>
    { n with cfg := { n.cfg with pending := some { n.cfg.staging with
        prof := Vector.ofFn fun i => n.fixProf n.cfg.staging.prof[i] } } }) :=
  congrArg Host.Outcome.next (State.when_of_true _ hs)

/-- Whether a LUN holds the activation of a set back. -/
def Lun.holdsSet (l : Lun) : Bool := l.cur.any fun c => !(c.op.writes || c.ignored || c.again)

theorem exec_nfcSetActivate (s : State) : exec .nfcSetActivate s = .next (s.when
    (s.serving && (List.finRange 32).all fun u => !(s.lun u).holdsSet) fun s => s.modNfc fun n => { n with cfg := n.cfg.activate }) := by
  have hall : (fun u : Fin 32 => !(s.lun u).holdsSet) = fun u => match (s.lun u).cur with
      | some c => c.op.writes || c.ignored || c.again
      | none => true := by
    funext v
    rw [Lun.holdsSet]
    cases (s.lun v).cur with
    | none => rfl
    | some c => exact Bool.not_not _
  rw [hall]
  rfl

end

/-! ## The settled statement -/

section
variable {u : Fin 32} {s : State}

/-- The start of an operation. -/
theorem nandStart_cases {o : NandOp} (h : s.busCommand (u.val % 4) = some (u, o)) :
    (o.kind = .reset → exec (.nandOperationStart u) s = .next (s.startReset u o)) ∧
      (o.kind ≠ .reset → o.owner = .ctrl → exec (.nandOperationStart u) s = .next (s.startSetup u o)) ∧
      (o.kind ≠ .reset → o.owner ≠ .ctrl → exec (.nandOperationStart u) s = .next (s.startOp u o)) := by
  refine ⟨fun hk => ?_, fun hk ho => ?_, fun hk ho => ?_⟩ <;> rw [exec_nandOperationStart_due h]
  · rw [if_pos hk]
  · rw [if_neg hk, if_pos ho]
  · rw [if_neg hk, if_neg ho]

variable (hs : s.serving = true)
include hs

/-- The status of a LUN that is ready. -/
theorem nandStatus_cases {c : InFlight} (hc : (s.lun u).cur = some c) (hr : c.ready = false) (ha : c.again = false) (ready fail : Bool) :
    let sent := s.send u [.command 0x78, .row (s.main.nfc.opRow c.op)]
    (ready = false → exec (.statusPoll u ready fail) s = .next sent) ∧
      (ready = true → c.ignored = true → (s.lun u).resetPend = false →
        exec (.statusPoll u ready fail) s = .next (sent.modLun u fun l => { l with cur := none }).nandSettle) ∧
      (ready = true → c.ignored = false → c.phase = .setting → exec (.statusPoll u ready fail) s =
        .next ((sent.modLun u fun l => { l with cur := some { c with phase := .page } }).send u (c.op.cycles s.main.nfc true))) ∧
      (ready = true → c.ignored = false → c.phase = .restoring → exec (.statusPoll u ready fail) s =
        .next (sent.modLun u fun l => { l with cur := some { c with ready := true, phase := .restored } })) ∧
      (ready = true → c.ignored = false → c.phase = .page → exec (.statusPoll u ready fail) s =
        .next (sent.modLun u fun l => { l with cur := some { c with ready := true, fail := fail } }).flrCheck) := by
  intro sent
  have hexec := exec_statusPoll_sent hs hc hr ha ready fail
  refine ⟨fun h => ?_, fun h hi hp => ?_, fun h hi hp => ?_, fun h hi hp => ?_, fun h hi hp => ?_⟩ <;> rw [hexec, h]
  · rfl
  · exact congrArg Host.Outcome.next (State.polled_ignored (s := sent) hi hp fail)
  · rw [State.when_true, State.polled_setting hi hp, NandOp.cycles_send]
  · rw [State.when_true, State.polled_restoring hi hp]
  · rw [State.when_true, State.polled_page hi hp]

/-- The decoding of one codeword. -/
theorem nandDecode_cases {c : InFlight} {k : Fin 5} (hc : (s.lun u).cur = some c) (hdue : s.decodeDue u c k = true) (bits : BitVec 16) :
    let row := s.main.nfc.row c.op.block c.op.page
    let t := s.beginMove u c
    let c := { c with moved := true }
    let erased := c.ladder = 0 ∧ s.cwErased u.val row k.val c.op.profile.val = true
    (erased → exec (.codewordDecode u k (.corrected bits)) s = .next (((t.modNfc fun n => { n with counts := upd n.counts 4 (· + 1) }).setRead u
        { c with decoded := setBit c.decoded k.val true }).ladderStep u)) ∧
      (¬ erased → s.metaOk u.val row k.val c.op.profile.val = true → exec (.codewordDecode u k (.corrected bits)) s =
        .next (((t.modNfc fun n => { n with
          counts := upd n.counts (if c.ladder = 0 then 0 else if c.ladder ≤ n.softCount then 1 else 2) (· + 1)
          hist := upd n.hist (n.bin bits.toNat) (· + 1) }).setRead u { c with decoded := setBit c.decoded k.val true }).ladderStep u)) ∧
      (¬ erased → exec (.codewordDecode u k .fails) s =
        .next ((t.setRead u { c with tried := setBit c.tried k.val true }).ladderStep u)) := by
  intro row t c' erased
  obtain ⟨hnand, hcfg, hbits⟩ := s.beginMove_still u c
  have hrow : t.main.nfc.row c.op.block c.op.page = row := by
    change c.op.block * 2 ^ (s.beginMove u c).main.nfc.pageBits.toNat + c.op.page = _
    rw [hbits]
    rfl
  obtain ⟨her, hmeta⟩ := State.codeword_still hnand hcfg u.val row k.val c.op.profile.val
  have herased : (c'.ladder = 0 ∧ t.cwErased u.val (t.main.nfc.row c'.op.block c'.op.page) k.val c'.op.profile.val = true) ↔ erased := by
    rw [show t.main.nfc.row c'.op.block c'.op.page = row from hrow, show t.cwErased u.val row k.val c'.op.profile.val = _ from her]
  refine ⟨fun h => ?_, fun h hm => ?_, fun h => ?_⟩ <;> rw [exec_codewordDecode hs hc hdue]
  · rw [State.decodeOne_erased (herased.mpr h)]
  · rw [State.decodeOne_corrected (mt herased.mp h) ?_]
    rw [show t.main.nfc.row c'.op.block c'.op.page = row from hrow]
    exact hmeta.trans hm
  · rw [State.decodeOne_fails (mt herased.mp h)]

/-- The end of an operation that is ready, by its kind. -/
theorem nandEnd_cases {c : InFlight} (hc : (s.lun u).cur = some c) (hr : c.ready = true) (hi : c.ignored = false)
    (data : List (BitVec 8)) : let detail := fun x => nandDetail u.val x (s.main.nfc.opRow c.op)
    (c.op.kind = .program ∨ c.op.kind = .erase → c.fail = false → exec (.nandOperationEnd u data) s = .next (s.endOp u c none)) ∧
      (c.op.kind = .program ∨ c.op.kind = .erase → c.fail = true → exec (.nandOperationEnd u data) s =
        .next ((s.spoil u.val c.op).endOp u c (some (stBusError, detail (nandClass c.op.kind))))) ∧
      (c.op.kind = .read → s.readStale c.op = false → c.decodedAll s.main.nfc = false → exec (.nandOperationEnd u data) s = .next s) ∧
      (c.op.kind = .read → s.readStale c.op = false → c.decodedAll s.main.nfc = true → c.op.raw = false ∨ s.mayMove u c = true →
        (c.applied s.main.nfc = true → c.phase ≠ .restored → exec (.nandOperationEnd u data) s = .next (s.restoreSet u c)) ∧
        (c.applied s.main.nfc = false ∨ c.phase = .restored → exec (.nandOperationEnd u data) s = .next
          (((s.nandData c.op (s.deliverPage u c)).nextStamp).endOp u c (c.uncorr.map fun k => (stEcc, detail k.val))))) ∧
      (c.op.kind = .setFeatures → c.op.owner ≠ .ctrl → exec (.nandOperationEnd u data) s = .next (s.endOp u c none)) ∧
      (c.op.kind = .setFeatures → c.op.owner = .ctrl → exec (.nandOperationEnd u data) s = .next ((s.setupDone u).endOp u c none)) ∧
      (c.op.kind = .getFeatures → exec (.nandOperationEnd u data) s = .next ((s.nandData c.op (padTo 4 data)).endOp u c none)) ∧
      (c.op.kind = .readParam → data = [] → exec (.nandOperationEnd u data) s = .next (s.endOp u c (some (stBusError, detail 3)))) ∧
      (c.op.kind = .readParam → data ≠ [] →
        exec (.nandOperationEnd u data) s = .next ((s.nandData c.op (padTo 256 data)).endOp u c none)) ∧
      (c.op.kind = .reset → exec (.nandOperationEnd u data) s =
        .next (((s.modLun u fun l => { l with setup := true }).modLun (lunMate u) fun l => { l with setup := true }).endOp u c none)) := by
  intro detail
  rw [exec_nandOperationEnd hs hc hr hi]
  refine ⟨fun hk hf => ?_, fun hk hf => ?_, fun hk hst hd => ?_, fun hk hst hd hraw => ⟨fun happ hp => ?_, fun hno => ?_⟩,
    fun hk ho => ?_, fun hk ho => ?_, fun hk => ?_, fun hk hdata => ?_, fun hk hdata => ?_, fun hk => ?_⟩
  · rw [State.endKind_write data hk, hf, if_neg (by decide)]
  · rw [State.endKind_write data hk, hf, if_pos rfl]
  · rw [State.endKind_read data hk, State.endRead_goes_on hst hd]
  · rw [State.endKind_read data hk, State.endRead_over hd hraw, happ, bne_iff_ne.mpr hp, if_pos (by rfl)]
  · have hcond : (c.applied s.main.nfc && c.phase != .restored) = false := by
      obtain h | h := hno
      · rw [h, Bool.false_and]
      · rw [h, bne_self_eq_false, Bool.and_false]
    rw [State.endKind_read data hk, State.endRead_over hd hraw, hcond, if_neg (by decide)]
  · rw [State.endKind_setFeatures data hk, State.when_of_false _ (beq_eq_false_iff_ne.mpr ho)]
  · rw [State.endKind_setFeatures data hk, State.when_of_true _ (beq_iff_eq.mpr ho)]
  · rw [State.endKind_getFeatures data hk]
  · rw [State.endKind_readParam data hk, if_pos hdata]
  · rw [State.endKind_readParam data hk, if_neg hdata]
  · rw [State.endKind_reset data hk]

/-- NFC_COMMIT makes the set pending, with the profiles that do not fit made invalid. -/
theorem nfcCommit_pending : ∃ t, exec .nfcCommit s = .next t ∧
    t = { s with main := { s.main with nfc := { s.main.nfc with cfg := { s.main.nfc.cfg with pending := t.main.nfc.cfg.pending } } } } ∧
      ∃ p, t.main.nfc.cfg.pending = some p ∧ p = { s.main.nfc.cfg.staging with prof := p.prof } ∧
        ∀ k : Fin 16, p.prof[k] = s.main.nfc.fixProf s.main.nfc.cfg.staging.prof[k] :=
  ⟨_, exec_nfcCommit hs, rfl, _, rfl, rfl, fun k => Vector.getElem_ofFn k.isLt⟩

/-- A set becomes active where no sequence and no ladder is in progress. -/
theorem exec_nfcSetActivate_go {p : NfcCfg} (hp : s.main.nfc.cfg.pending = some p)
    (h : ∀ v c, (s.lun v).cur = some c → c.op.writes = true ∨ c.ignored = true ∨ c.again = true) :
    exec .nfcSetActivate s = .next (s.modNfc fun n => { n with cfg := { n.cfg with active := p, pending := none } }) := by
  have hall : ((List.finRange 32).all fun v => !(s.lun v).holdsSet) = true := by
    refine List.all_eq_true.mpr fun v _ => ?_
    rw [Lun.holdsSet]
    cases hv : (s.lun v).cur with
    | none => rfl
    | some c => simpa [or_assoc] using h v c hv
  have hact : s.main.nfc.cfg.activate = { s.main.nfc.cfg with active := p, pending := none } := by rw [Staged.activate, hp]
  rw [exec_nfcSetActivate, State.when_of_true _ (by rw [hs, hall]; rfl),
    State.modNfc_congr (g := fun n => { n with cfg := { n.cfg with active := p, pending := none } }) (by rw [hact])]

omit hs in
theorem exec_nfcSetActivate_held {c : InFlight} (hc : (s.lun u).cur = some c) (hw : c.op.writes = false) (hi : c.ignored = false)
    (ha : c.again = false) : exec .nfcSetActivate s = .next s := by
  have hall : ((List.finRange 32).all fun v => !(s.lun v).holdsSet) = false := by
    refine List.all_eq_false.mpr ⟨u, List.mem_finRange u, ?_⟩
    rw [Lun.holdsSet, hc, Option.any_some, hw, hi, ha]
    decide
  rw [exec_nfcSetActivate, hall, Bool.and_false, State.when_of_false _ rfl]

end

/-- Settles O54, command by command. -/
theorem nandOperations : Obligations.NandOperations := by
  intro u s hs n l bus
  refine ⟨fun h => State.busCommand_of_stopped h bus, fun v o => State.busCommand_eq_some, fun a b => ?_, exec_nandOperationStart_idle,
    fun o ho => ?_, fun o h => State.writeDie_of_still h u s, fun q o p => pairOf_eq_some, fun o => ?_, fun a o q ha ho => ?_,
    fun hw o => State.writeDie_program hw, fun hw o => State.writeDie_erase hw, fun ready fail c hc => ?_, ?_, fun c hc => ?_,
    fun c data hc hr hi => nandEnd_cases hs hc hr hi data, fun c hc hr ha => ?_, rfl, ?_, fun p hp h => exec_nfcSetActivate_go hs hp h,
    fun c hc hw hi ha => exec_nfcSetActivate_held hc hw hi ha⟩
  · have hspec : ∀ o : NandOp, o.yields = false ↔ ¬ (o.spec ≠ none ∧ o.owner ≠ .ctrl) := fun o => by
      rw [← NandOp.yields_iff, Bool.not_eq_true]
    rw [NandOp.before_iff, hspec, NandOp.yields_iff, Bool.eq_iff_iff, NandOp.yields_iff, NandOp.yields_iff]
  · obtain ⟨hreset, hsetup, hop⟩ := nandStart_cases ho
    refine ⟨hreset, hsetup, fun hk hctrl => ?_⟩
    exact ⟨fun hg => (hop hk hctrl).trans (congrArg Host.Outcome.next (State.startOp_guarded hg)),
      fun hg => (hop hk hctrl).trans (congrArg Host.Outcome.next (State.startOp_free hg))⟩
  · obtain ⟨hcur, hpend, hmate, hcut⟩ := s.startReset_luns u o
    refine ⟨hcur, hpend, hmate, fun c hc hk hi hd => ?_⟩
    rw [hcut, hc]
    exact InFlight.cut_read hk hi hd
  · exact ⟨pickOp_block ha ho, fun h => pickOp_late ha h q, pickOp_passes ha ho, pickOp_waits ha ho, leaveQueue_write ha q,
      leaveQueue_overtakes ha ho⟩
  · exact ⟨exec_statusPoll_over hc ready fail, fun hr ha => nandStatus_cases hs hc hr ha ready fail⟩
  · intro c k bits hc hk hp hr hi hraw hall hfirst hlast hdec htry hst hmove
    exact nandDecode_cases hs hc (State.decodeDue_of hk hp hr hi hraw hall hfirst hlast hdec htry hst hmove) bits
  · exact ⟨State.ladderStep_done hc, State.ladderStep_waits hc, State.ladderStep_next hc⟩
  · exact ⟨exec_nandTimeout_reset hs hc hr ha, fun hk hi => exec_nandTimeout_op hs hc hr ha hk hi⟩
  · obtain ⟨t, ht, hrest, p, hp, hstaging, hprof⟩ := nfcCommit_pending hs
    exact ⟨t, ht, hrest, p, hp, hstaging, fun k => (hprof k).trans (Nfc.fixProf_eq _ _)⟩

end Sys2Proof.Machine
